-- ==== Sys2Proof/Word.lean ====
section
/-! DEFINITION. The bit-vector names of the block: a byte, a register word (R3, R452) and a 64-byte line (R21). -/

namespace Sys2Proof

/-- One byte of the store. -/
abbrev Byte := BitVec 8

/-- One 64-bit register word; 32-bit registers are the low half of their word (R452). -/
abbrev Word := BitVec 64

/-- The 64 bytes of one line, byte 0 in bits [7:0] (R3, R21). -/
abbrev Line := BitVec 512

/-- The 64 byte enables of a partial write, bit i for byte i (R68). -/
abbrev ByteEn := BitVec 64

end Sys2Proof
end

