-- ==== Sys2Proof/Machine/Env.lean ====
section
/-! DEFINITION. The operand types of the commands: what a host, a peer, a board or the DRAM itself brings to a step. -/

namespace Sys2Proof.Machine

/-- The MetaValue of a host request (R100). -/
inductive MetaVal where
  | i | s | a
  deriving DecidableEq, Repr, Inhabited

/-- What a read of a line meets (R21 step 7, R130). -/
inductive Media where
  | clean                               -- the DRAM returns the burst that was written
  | buffered                            -- the Keystone's line buffer still holds the line
  | error (err : Nat)                   -- the burst returned, XOR the burst written
  | miscorrected (err : Nat) (d : Line) -- such an error, which the decoder takes for one that it corrects to `d`
  deriving DecidableEq, Repr, Inhabited

/-- What the code of a directory entry word finds when the entry is read (R96, R113). -/
inductive DirErr where
  | none | single | double
  deriving DecidableEq, Repr, Inhabited

/-- The conditions the DRAM and the directory memory bring to one line request. -/
structure LineEnv where
  media : Media := .clean
  dir : DirErr := .none
  others : List (Nat × Media) := []     -- what the DRAM returns for other lines of the stripe (R134, R135)
  deriving DecidableEq, Repr, Inhabited

/-- The remaining state a host reports in a back-invalidate response (R102). -/
inductive BiRsp where
  | i | s | e
  deriving DecidableEq, Repr, Inhabited

/-- How a remote completion answers (R84, R85). -/
inductive RemStatus where
  | ok | unsupportedRequest | completerAbort | poison
  deriving DecidableEq, Repr, Inhabited

/-- Why a channel is declared failed (R140). -/
inductive ChanCause where
  | calibration | errors | parityLock
  deriving DecidableEq, Repr, Inhabited

/-- The types of DIMM an SPD names (R125). -/
inductive DimmKind where
  | rdimm | mrdimm | udimm | nvdimm
  deriving DecidableEq, Repr, Inhabited

/-- What SPD and training report of one channel (R125, R126). `none` in a list of channels is an empty channel. -/
structure Dimm where
  kind : DimmKind
  stack : Nat          -- dies of a 3DS stack; 1 without stacking
  capGiB : Nat         -- capacity of one DIMM
  x8 : Bool
  density : Nat        -- of a device, in Gb
  ranks : Nat          -- ranks of one DIMM
  dpc : Nat            -- DIMMs per channel
  spdRate : Nat        -- slowest SPD rating, as the CAP code of R149
  trained : Bool
  drfm : Bool          -- supports directed refresh (R147)
  rfm : Bool           -- requires refresh management (R147)
  raaimt : Nat         -- activations per bank at which the DIMM states RFM is due
  deriving DecidableEq, Repr, Inhabited

/-- Whether a DIMM is an MRDIMM. -/
def Dimm.mr (d : Dimm) : Bool := d.kind == .mrdimm

/-- What the package brings to a run of work items of a command: the source number (R2) of the engine, unit or Keystone
that runs them, the codec unit their tiles pass through where they need one (R246), how many items it runs, and what the DRAM
returns for the lines it reads. `cut`: a gather unit stops after so many row lines of an item, and goes on with it in a later run
(R322). `pick` says which of the updates left of a SCATTER_ADD comes next (R318). -/
structure RunEnv where
  src : Nat
  items : Nat
  codec : Nat := 0
  media : List (Nat × Media) := []
  cut : Option Nat := none
  pick : Nat := 0
  deriving DecidableEq, Repr, Inhabited

/-- An image slot of the flash as the ROM reads it: fields of the header, its bytes 0 to 83, and the body (R426, R427). -/
structure ImageSlot where
  magic : Nat
  ver : Nat
  svn : Nat
  bodyLen : Nat
  pubKey : Nat
  sig : Nat
  head : Nat
  body : Nat
  deriving DecidableEq, Repr, Inhabited

/-- One lane measured in a LANE_SAMPLE slot (R374, R403); `done = false` is a sample that was abandoned. -/
structure LaneReading where
  head : Nat
  width : Nat
  height : Nat
  done : Bool
  deriving DecidableEq, Repr, Inhabited

/-- Why a head leaves the Uathes rate: entries to Recovery within 1 s, or CRC errors and replays among the flits of 1 ms, as the Quoin
counted them (R401, R448). -/
inductive UathesFail where
  | equalisation | timeout
  | recoveries (n : Nat)
  | replays (crc n flits : Nat)
  deriving DecidableEq, Repr, Inhabited

end Sys2Proof.Machine
end

