-- ==== Sys2Proof/Syntax.lean ====
section
/-! DEFINITION. The commands of the block: one constructor for each row of the table of operations and events. A command
carries what the outside brings: the head it arrives on, its tag and source, addresses and data, and what the DRAM or the
board does. -/

namespace Sys2Proof

open Sys2Proof.Machine

/-- A command of the DVZ-M40. -/
inductive Instr where
  /-- MEM_RD (R21): A host MemRd or MemRdData line read is checked, ordered at its home Keystone, and answered with data or poison. -/
  | memRd (head tag spid dpa : Nat) (mv : MetaVal) (env : LineEnv)
  /-- MEM_SPEC_RD (R61): A host MemSpecRd hint may fetch a line into the Keystone line buffer or be ignored. -/
  | memSpecRd (head spid dpa : Nat)
  /-- MEM_WR (R64): A host full-line MemWr is checked, lands at admission, counts for the source, and completes. -/
  | memWr (head tag spid dpa : Nat) (data : Line) (poison : Bool) (mv : MetaVal) (env : LineEnv)
  /-- MEM_WR_PTL (R68): A host partial write replaces the enabled bytes of a line and lands as one request. -/
  | memWrPtl (head tag spid dpa : Nat) (data : Line) (be : ByteEn) (poison : Bool) (env : LineEnv)
  /-- MEM_INV (R100): A host MemInv either gives up the host's copy of a directory line or requests ownership. -/
  | memInv (head tag spid dpa : Nat) (mv : MetaVal) (dir : DirErr)
  /-- UNSUPPORTED_MEM_REQUEST (R61): Any other CXL.mem opcode is answered as an unsupported request and has no effect on the store. -/
  | unsupportedMemRequest (head tag op : Nat)
  /-- UIO_MEMORY_READ (R62): A UIO read from a peer or host is split into lines, each served as its own request. -/
  | uioMemoryRead (head tag spid dpa len : Nat) (media : List (Nat × Media)) (dirs : List (Nat × DirErr))
  /-- UIO_MEMORY_WRITE (R62): A UIO write is split into line writes that land independently. -/
  | uioMemoryWrite (head tag spid dpa len data : Nat) (poison : Bool) (media : List (Nat × Media)) (dirs : List (Nat × DirErr))
  /-- GLOBAL_PERSISTENT_FLUSH (R67): A CXL Global Persistent Flush phase is answered at once without flushing anything. -/
  | globalPersistentFlush (head phase : Nat)
  /-- RELEASE_DYNAMIC_CAPACITY (R52): A host's Release Dynamic Capacity command removes its ACL entries and may start Draining. -/
  | releaseDynamicCapacity (head tag spid ext : Nat)
  /-- FLAGGED_STORE (R75): A write to a flag alias is checked, sequenced and held until its source's write count meets EXPECT. -/
  | flaggedStore (head tag spid dpa : Nat) (data : Line) (be : ByteEn) (dir : DirErr)
  /-- FLAG_APPLY (R75): A held flag whose count and predecessor conditions are met applies its action, subtracts EXPECT, advances N and completes. -/
  | flagApply (spid : Nat) (dir : DirErr)
  /-- FLAG_WAIT_EXPIRY (R78): A flag that has been held for FLAG_WAIT expires, and every held flag of its source is discarded and logged. -/
  | flagWaitExpiry (spid seq : Nat)
  /-- CTL_FLAG_RESET (R79): A write to CTL_FLAG_RESET discards the held flags of one source or of all sources and resets counts and sequences. -/
  | ctlFlagReset (head : Nat) (value : BitVec 32)
  /-- BI_RESPONSE (R102): A host back-invalidate response updates the directory transaction, or is discarded and logged when it matches no snoop. -/
  | biResponse (head spid line : Nat) (rsp : BiRsp)
  /-- BI_CONFLICT (R106): A host BIConflict is answered with BIConflictAck once the host's earlier requests to the line have completed. -/
  | biConflict (head spid line : Nat)
  /-- TRANSACTION_ADMIT (R111): A request waiting for a free coherence transaction or for its line's transaction is admitted when one ends. -/
  | transactionAdmit (k : Nat)
  /-- COURSE_READ_MISS (R105): A Course buffer read miss reaches the home Keystone as RdS and is served under the directory. -/
  | courseReadMiss (die line : Nat) (env : LineEnv)
  /-- COURSE_OWN (R208): A Course buffer asks for ownership of a directory line before a unit writes it. -/
  | courseOwn (die line : Nat) (env : LineEnv)
  /-- UPGRADE (R104): A Course buffer reports its first write to a line it holds in E, which moves the line to M. -/
  | upgrade (die line : Nat)
  /-- WRITEBACK (R105): A Course buffer's dirty eviction lands, and the directory state follows the removal. -/
  | writeback (die line : Nat)
  /-- BUFFER_ANSWER (R103): A MISS, CLEAN or DIRTY answer from a Course buffer advances the pending coherence transaction. -/
  | bufferAnswer (die k : Nat)
  /-- FWD (R103): A Course buffer receives FWD and sends its copy to the named requester. -/
  | fwd (die k : Nat)
  /-- RECALL_SHARE (R103): A Course buffer receives RECALL_SHARE, sends its copy, and keeps a clean shared copy. -/
  | recallShare (die k : Nat)
  /-- RECALL_INV (R103): A Course buffer receives RECALL_INV, returns any dirty data, and drops its copy. -/
  | recallInv (die k : Nat)
  /-- PRESENCE (R114): A Course buffer receives PRESENCE and reports whether it holds the line. -/
  | presence (die k : Nat)
  /-- DIR_AUDIT (R114): The directory audit walks entries in permitted slots, sends PRESENCE queries and frees stale entries. -/
  | dirAudit (k line : Nat) (dir : DirErr)
  /-- BI_TIMEOUT (R116): A snoop left unanswered for BI_TIMEOUT declares its host down. -/
  | biTimeout (spid line : Nat)
  /-- HEAD_DOWN_GRACE (R116): A head whose link has been down for HEAD_DOWN_GRACE declares the hosts it routes down and discards their held flags. -/
  | headDownGrace (head : Nat)
  /-- HOST_DOWN_DECLARE (R118): COH_HOST_DOWN with OP 1 declares a host down, so its E and M lines become lost lines and the directory is walked. -/
  | hostDownDeclare (head : Nat) (value : BitVec 32)
  /-- HOST_READMIT (R120): COH_HOST_DOWN with OP 2 readmits a host, whose requests are then handled normally. -/
  | hostReadmit (head : Nat) (value : BitVec 32)
  /-- COH_PROBE (R98): A write to COH_PROBE looks up a directory entry, whose result is valid 200 ns later. -/
  | cohProbe (head : Nat) (value : Word)
  /-- COH_LINE_ACCEPT (R124): A write to COH_LINE_ACCEPT clears the lost mark of a range of lines. -/
  | cohLineAccept (head : Nat) (value : Word)
  /-- EXTENT_CREATE (R41): The CREATE operation of an ADR commit makes a Free extent Active and posts Add Capacity records. -/
  | extentCreate
  /-- EXTENT_REVOKE (R48): The REVOKE operation of an ADR commit moves an Active extent to Draining at every Keystone. -/
  | extentRevoke
  /-- SET_ACL (R50): The SET_ACL operation of an ADR commit replaces an Active extent's access list. -/
  | setAcl
  /-- EXTENT_DRAINED (R44): Once in-flight requests and commands on a Draining extent have finished, it enters Revoked and then Scrubbing or Free. -/
  | extentDrained (ext : Nat)
  /-- RELEASE_SCRUB (R49): The release scrub zeroes a Scrubbing extent and recalls its directory entries, then frees the extent. -/
  | releaseScrub (ext : Nat) (bad : List Nat)
  /-- PARITY_SHARE_ZEROED (R133): The zeroing of a released parity share completes, and the extent reaches Free. -/
  | parityShareZeroed (ext : Nat)
  /-- TILE_ABANDON_TIMEOUT (R192): A tile not ended 40 µs after Draining reached its Course die is abandoned. -/
  | tileAbandonTimeout (cid : Nat)
  /-- BOND_PERIOD_BOUNDARY (R372): At a bond-period boundary, shares renew, meter and counter pages are written, aging starts, generators are reseeded and schedule entries are evaluated. -/
  | bondPeriodBoundary
  /-- DIRECTORY_QUOTA_RECALL (R58): The oldest entries of a composition over its directory quota are recalled at a paced rate. -/
  | directoryQuotaRecall (comp k : Nat)
  /-- COMPOSITION_CREATE (R465): The CREATE operation of a CMP commit creates a composition with its host set, quotas and pages. -/
  | compositionCreate
  /-- COMPOSITION_DELETE (R55): The DELETE operation of a CMP commit writes a final meter page and invalidates tagged on-chip lines. -/
  | compositionDelete
  /-- COMPOSITION_UPDATE (R465): The UPDATE operation of a CMP commit changes the host set, quotas and page configurations. -/
  | compositionUpdate
  /-- REMOTE_COMPLETION (R84): A completion for the controller's own remote request returns and is consumed, or is discarded when late. -/
  | remoteCompletion (id : Nat) (status : RemStatus) (data : Nat)
  /-- REMOTE_TIMEOUT (R84): A remote request with no completion after REMOTE_TIMEOUT times out and raises the remote-fault alarm. -/
  | remoteTimeout (id : Nat)
  /-- MIRROR_PROBE (R138): Every PROBE_MS, a DEGRADED extent with AUTO set probes the partner and enters RESYNC on success. -/
  | mirrorProbe (ext : Nat)
  /-- MIRROR_RESYNC (R139): Resync copies dirty regions to the partner in permitted slots until the extent is MIRRORED. -/
  | mirrorResync (ext k : Nat) (media : Media)
  /-- MIR_RESYNC (R139): MED_MIR_CTL with OP RESYNC starts resync of a DEGRADED extent. -/
  | mirResync (head : Nat) (value : BitVec 32)
  /-- MIR_DEGRADE (R139): MED_MIR_CTL with OP DEGRADE forces a mirrored extent to DEGRADED. -/
  | mirDegrade (head : Nat) (value : BitVec 32)
  /-- ECC_REPAIR_WRITEBACK (R131): Within 1 µs of a corrected read, the corrected line is written back through the ordering point. -/
  | eccRepairWriteback (line : Nat)
  /-- CHANNEL_FAILED (R140): A channel is declared failed after its calibration or error limits are exceeded or it loses CA parity lock. -/
  | channelFailed (ch : Nat) (cause : ChanCause)
  /-- REGION_REBUILD (R142): A region due for retirement claims a rescue slot and is copied line by line. -/
  | regionRebuild (region : Nat) (media : Media)
  /-- REGION_RETIRED (R142): After the last line is copied, the region is retired at all Keystones and a retirement record is written. -/
  | regionRetired (region : Nat)
  /-- MED_RETIRE (R145): A write to MED_RETIRE retires a region by rebuild, or logs the write as ignored. -/
  | medRetire (head : Nat) (value : BitVec 32)
  /-- MED_RESCUE_RELEASE (R143): A write to MED_RESCUE_RELEASE returns a used rescue slot as Free DPA. -/
  | medRescueRelease (head : Nat) (value : BitVec 32)
  /-- REFRESH (R146): A Footing issues DDR5 refresh at the rate its DRAM temperature requires. -/
  | refresh (ch : Nat) (bank : Option Nat) (mr4 : Nat)
  /-- RFM (R147): A Footing issues refresh management at the thresholds its DIMM states. -/
  | rfm (ch bank : Nat)
  /-- ACT_LIMIT (R147): A row that reaches ACT_LIMIT activations receives DRFM or RFM, and its count resets. -/
  | actLimit (ch bank row : Nat)
  /-- PATROL_SCRUB (R148): The patrol scrub reads a batch of lines in permitted slots and repairs or retires what it finds. -/
  | patrolScrub (footing : Nat) (media : List (Nat × Media))
  /-- SCRUB_COVERAGE (R378): A patrol pass that has run 48 h without completing raises SCRUB_COVERAGE. -/
  | scrubCoverage (footing : Nat)
  /-- CALIBRATION (R377): A due channel calibration starts in a permitted slot and blocks the channel. -/
  | calibration (ch : Nat)
  /-- CALIBRATION_FORCED (R377): A calibration that has been due for 128 ms is started at once and recorded with CAL_FORCED. -/
  | calibrationForced (ch : Nat)
  /-- CALIBRATION_END (R149): A calibration ends, either keeping new settings or counting a failure. -/
  | calibrationEnd (ch : Nat) (ok : Bool)
  /-- MEMORY_TRAINING (R126): The Footings read SPD, train all channels, and accept or reject the population. -/
  | memoryTraining (dimms : List (Option Dimm))
  /-- START_UP_SCRUB (R444): The start-up scrub zeroes every line below P in ascending DPA, advancing FRONT. -/
  | startUpScrub (regions : Nat) (bad : List Nat)
  /-- MORTAR_LINK_FAILED (R20): After 16 consecutive replays of one transfer, a Mortar link fails, withdrawing a Course die or causing a package fault. -/
  | mortarLinkFailed (dieA dieB : Nat)
  /-- RING_FETCH (R163): A woken fetcher reads the doorbell, checks for overruns, and fetches descriptors into its fetch state. -/
  | ringFetch (ring : Nat) (media : List (Nat × Media))
  /-- DISPATCH (R168): The dispatcher takes the next descriptor through the stages of R168, completing it early or sending it to its units. -/
  | dispatch (ring : Nat) (media : List (Nat × Media))
  /-- WAIT_SATISFIED (R177): A landing that brings a wait counter to its threshold moves the waiting descriptor to step 11. -/
  | waitSatisfied (cid : Nat)
  /-- WAIT_LIMIT_EXPIRY (R177): A wait that reaches the ring's wait limit completes its command with TIMEOUT. -/
  | waitLimitExpiry (cid : Nat)
  /-- TILE_END (R191): A tile on an engine or unit ends, and the dispatcher gives that unit the command's next tile. -/
  | tileEnd (cid src : Nat)
  /-- COMMAND_COMPLETE (R170): A command's release, signal, completion record and interrupt take effect in order. -/
  | commandComplete (cid : Nat)
  /-- MSIX_VECTOR_CONTROL (R182): Unmasking an MSI-X vector sends its pending message. -/
  | msixVectorControl (head vec : Nat) (mask : Bool)
  /-- RING_CREATE (R155): The CREATE operation of an RNG commit grants a version and starts zeroing the ring. -/
  | ringCreate
  /-- RING_DESTROY (R158): The DESTROY operation of an RNG commit stops fetching and aborts undispatched commands. -/
  | ringDestroy
  /-- RNG_COMMIT (R183): An RNG commit with no operation applies the event-ring configuration. -/
  | rngCommit
  /-- RING_ZEROED (R157): Ring zeroing finishes, and the ring becomes ACTIVE. -/
  | ringZeroed (ring : Nat)
  /-- RING_GONE (R158): A DESTROYING ring whose commands have all completed becomes FREE and writes RING_GONE. -/
  | ringGone (ring : Nat)
  /-- NOP (R244): NOP does nothing beyond its header flags. -/
  | nop (cid : Nat) (run : RunEnv)
  /-- MOVE (R223): MOVE copies, stages or evicts tensors as its MODE selects. -/
  | move (cid : Nat) (run : RunEnv)
  /-- FILL (R224): FILL writes one converted value into every element of a tensor. -/
  | fill (cid : Nat) (run : RunEnv)
  /-- CHECK (R356): CHECK computes a folded CRC over a range on one check unit. -/
  | check (cid : Nat) (run : RunEnv)
  /-- MATMUL (R228): MATMUL writes C as ALPHA times A·Bᵀ. -/
  | matmul (cid : Nat) (run : RunEnv)
  /-- MATMUL_ACC (R228): MATMUL_ACC adds ALPHA times A·Bᵀ to C. -/
  | matmulAcc (cid : Nat) (run : RunEnv)
  /-- EWISE (R231): EWISE applies an element-wise function selected by FUNC. -/
  | ewise (cid : Nat) (run : RunEnv)
  /-- REDUCE (R233): REDUCE reduces a tensor along one axis. -/
  | reduce (cid : Nat) (run : RunEnv)
  /-- NORM (R234): NORM applies RMS or layer normalisation to each row. -/
  | normOp (cid : Nat) (run : RunEnv)
  /-- TOPK (R235): TOPK writes the K chosen values and their indices for each row. -/
  | topk (cid : Nat) (run : RunEnv)
  /-- SAMPLE (R237): SAMPLE draws one index per row from its logits. -/
  | sample (cid : Nat) (run : RunEnv)
  /-- ACQUIRE (R238): The ACQUIRE opcode invalidates read caches, prefetch buffers and staged copies on the named dies. -/
  | acquire (cid : Nat) (run : RunEnv)
  /-- RELEASE (R238): The RELEASE opcode waits until every write of the earlier commands of its ring has completed. -/
  | release (cid : Nat) (run : RunEnv)
  /-- WAIT (R238): The WAIT opcode does nothing beyond its header's wait condition. -/
  | wait (cid : Nat) (run : RunEnv)
  /-- SIGNAL (R238): The SIGNAL opcode applies its header's signal as an add or a maximum. -/
  | signalOp (cid : Nat) (run : RunEnv)
  /-- FLAG_WRITE (R240): FLAG_WRITE applies a flag action to a local line, or sends a flagged store to a peer. -/
  | flagWrite (cid : Nat) (run : RunEnv)
  /-- DUMP_WATCH (R242): DUMP_WATCH arms a watch that copies matching output tensors into a buffer. -/
  | dumpWatch (cid : Nat) (run : RunEnv)
  /-- DUMP_WATCH_LIMIT (R242): A watch whose LIMIT_US has elapsed ends with OK or PARTIAL. -/
  | dumpWatchLimit (cid : Nat)
  /-- KV_APPEND (R279): KV_APPEND appends one token's keys and values for each active sequence row. -/
  | kvAppend (cid : Nat) (run : RunEnv)
  /-- ATTEND (R283): ATTEND computes attention for each active row over the cached KV blocks. -/
  | attend (cid : Nat) (run : RunEnv)
  /-- COLL (R292): COLL runs a ring all-reduce, reduce-scatter or all-gather in lockstep steps across a group. -/
  | coll (cid : Nat) (run : RunEnv)
  /-- GATHER_POOL (R314): GATHER_POOL reads table rows and writes one weighted pooled row per bag. -/
  | gatherPool (cid : Nat) (run : RunEnv)
  /-- SCATTER_ADD (R318): SCATTER_ADD adds weighted update rows to table rows by read-modify-write. -/
  | scatterAdd (cid : Nat) (run : RunEnv)
  /-- TABLE_PUBLISH (R307): TABLE_PUBLISH makes a checked table descriptor the current version. -/
  | tablePublish (cid : Nat) (run : RunEnv)
  /-- TABLE_RETIRE (R306): TABLE_RETIRE releases a version once no command remains bound to it. -/
  | tableRetire (cid : Nat) (run : RunEnv)
  /-- SEARCH (R337): SEARCH walks the graph, or scores exhaustively, and writes the K nearest nodes per query. -/
  | search (cid : Nat) (run : RunEnv)
  /-- INSERT (R344): INSERT allocates slots, writes node records, and links or side-lists the new nodes. -/
  | insert (cid : Nat) (run : RunEnv)
  /-- DELETE (R347): DELETE writes tombstone epochs into node headers. -/
  | deleteOp (cid : Nat) (run : RunEnv)
  /-- MERGE (R348): MERGE folds class S side-list entries into the graph. -/
  | merge (cid : Nat) (run : RunEnv)
  /-- REPAIR (R349): REPAIR relinks, reclaims or sets the entry node as its MODE selects. -/
  | repair (cid : Nat) (run : RunEnv)
  /-- TIME_SET (R368): TIME_SET loads the fabric-time counter now or at the next sync pulse. -/
  | timeSet (cid : Nat) (run : RunEnv)
  /-- EPOCH_PUBLISH (R342): The published epoch advances once all commands reserving up to that epoch have completed and their writes have landed. -/
  | epochPublish (idx : Nat)
  /-- KV_SERVICE_REQUEST (R270): A write to a KV service line runs an ALLOC, REF, UNREF, GRANT or UNGRANT request and writes the result. -/
  | kvServiceRequest (media : List (Nat × Media))
  /-- PAGE_FAULT (R265): A tile mover touching a non-resident migratable page claims frames and starts the fill. -/
  | pageFault (cid addr : Nat)
  /-- PAGE_RESIDENT (R264): When a page's fill reads complete, the page becomes RESIDENT and suspended accesses retry. -/
  | pageResident (page : Nat)
  /-- GROUP_CREATE (R289): The CREATE operation of a group commit reads the member list and makes the group ACTIVE. -/
  | groupCreate (media : List (Nat × Media))
  /-- GROUP_DESTROY (R289): The DESTROY operation of a group commit aborts locally and drains the group. -/
  | groupDestroy
  /-- GROUP_ATTACH (R289): The ATTACH operation of a group commit attaches a ring to the group. -/
  | groupAttach
  /-- GROUP_DETACH (R289): The DETACH operation of a group commit detaches a ring from the group. -/
  | groupDetach
  /-- GROUP_CLEAR (R289): The CLEAR operation of a group commit reactivates an aborted group in a new epoch. -/
  | groupClear
  /-- GROUP_ABORT (R295): A group aborts, stops its commands within 20 µs, and forwards abort records. -/
  | groupAbort (grp cause : Nat)
  /-- ABORT_RECORD (R298): A record landing on a group's ABORT line is accepted, which aborts the group, or is ignored. -/
  | abortRecord
  /-- INDEX_CREATE (R325): The CREATE operation of an index commit makes an index ACTIVE. -/
  | indexCreate
  /-- INDEX_DESTROY (R325): The DESTROY operation of an index commit frees an index. -/
  | indexDestroy
  /-- ENGINE_TRIP (R396): A Course sensor reading of 110 °C halts the die's engines and units, and their commands complete with THERMAL. -/
  | engineTrip (die temp : Nat)
  /-- ENGINE_RESUME (R396): A halted die resumes after all its sensors have read below 100 °C for 1 ms. -/
  | engineResume (die : Nat)
  /-- THERMAL_COLLECT (R395): Every 100 µs, sensor readings are collected and thermal throttle demands adjusted. -/
  | thermalCollect (readings : List Int)
  /-- THERMTRIP (R398): A reading of 125 °C asserts THERMTRIP_N and stops every clock outside VDD_AUX. -/
  | thermtrip (die temp : Nat)
  /-- POWER_INTERVAL (R384): At the end of each 2.048 µs interval, power is estimated and rail, package and budget throttle levels are set. -/
  | powerInterval (acts : List (Nat × Nat))
  /-- PMBUS_READ (R382): Every 1 ms, regulator output power is read and compared for EST_DRIFT. -/
  | pmbusRead (readings : List Nat)
  /-- RAIL_VOLTAGE_REACHED (R387): A Course rail reaches the voltage a higher throttle level needs, and the level rises. -/
  | railVoltageReached (die level : Nat)
  /-- DROOP (R392): A droop detector crossing doubles the die's ACLK period. -/
  | droop (die : Nat)
  /-- DROOP_HOLD_END (R392): After HOLD cycles with every detector above threshold, ACLK returns to normal. -/
  | droopHoldEnd (die cycles : Nat)
  /-- VR_ALERT (R397): A low VR_ALERT_N input puts the controller in the floor state. -/
  | vrAlert (inputs : Nat)
  /-- FLOOR_EXIT (R397): After all VR_ALERT_N inputs have been high for 1 ms, the floor state ends. -/
  | floorExit
  /-- PLUMB_SYNC (R364): A PLUMB_SYNC pulse acquires lock or corrects the counter to the bond boundary. -/
  | plumbSync
  /-- SYNC_MISSING (R365): Four missed expected pulses raise SYNC_MISSING. -/
  | syncMissing
  /-- PLUMB_LOST (R365): Without a PLUMB_CLK edge for 200 ns, lock is lost and TBCLK switches to REFCLK. -/
  | plumbLost
  /-- PTM_EXCHANGE (R369): Every PTM_MS, the requester exchanges PTM with the control head and loads time. -/
  | ptmExchange (time : Option Nat)
  /-- PTM_REQUEST (R369): A PTM request from a link partner is answered with master time. -/
  | ptmRequest (head : Nat)
  /-- SLOT_BOUNDARY (R374): At a slot boundary, scheduled activities gain or lose permission to issue work. -/
  | slotBoundary
  /-- QUIET_WINDOW_OPEN (R376): A quiet window opens and deferrable background work stops issuing. -/
  | quietWindowOpen
  /-- QUIET_WINDOW_CLOSE (R376): A quiet window closes and deferred background work resumes. -/
  | quietWindowClose
  /-- LANE_SAMPLE (R374): A permitted slot measures one receive lane's eye on each permitted Quoin. -/
  | laneSample (samples : List LaneReading)
  /-- TELEMETRY (R374): Telemetry collection runs on K0. -/
  | telemetry
  /-- MARK_ACCEPT (R408): A mark reaches its Keystone trace buffer, or is dropped at its source into a loss accumulator. -/
  | markAccept (src : Nat)
  /-- MARK_PORT_ROW (R411): The MARK port sends a data, IDLE or ALIGN row. -/
  | markPortRow
  /-- OBS_TRACE_REARM (R409): A write to OBS_TRACE_REARM unfreezes every trace buffer. -/
  | obsTraceRearm (head : Nat) (value : BitVec 32)
  /-- PIN_SAMPLE (R413): A write to OBS_PIN_SAMPLE, or reset, samples contacts and emits PIN_SAMPLE marks. -/
  | pinSample (head : Nat) (value : BitVec 32) (levels : List Nat)
  /-- LOG_ENTRY (R418): A log entry is queued, evicting a lower entry or being dropped into a gap record, and written to the log ring. -/
  | logEntry (die : Nat)
  /-- ALARM_OCCURRENCE (R419): An alarm occurrence merges into the alarm table and may write an alarm-ring record and assert ALERT_N. -/
  | alarmOccurrence (die kind : Nat)
  /-- OBS_ALARM_ACK (R421): A write to OBS_ALARM_ACK clears PENDING of the acknowledged kinds. -/
  | obsAlarmAck (head word : Nat) (value : Word)
  /-- OBS_L2_CHAL (R424): A read of OBS_L2_CHAL draws a fresh unlock nonce. -/
  | obsL2Chal (head : Nat)
  /-- OBS_L2_UNLOCK (R424): A write to OBS_L2_UNLOCK makes Plinth read and verify an unlock token. -/
  | obsL2Unlock (head : Nat) (value : Word)
  /-- L2_UNLOCK (R424): Plinth's verification completes, opening level 2 or rejecting the token, and logs the attempt. -/
  | l2Unlock (media : List (Nat × Media))
  /-- MCTP_OBSERVATION_READ (R404): A board management controller's MCTP request returns BAR2 bytes or an error. -/
  | mctpObservationRead (tag off len : Nat)
  /-- RESET_DEASSERT (R443): RESET_N deasserts, straps are sampled, and start-up begins. -/
  | resetDeassert (straps : Nat) (levels : List Nat)
  /-- BOOT_IMAGE_ACCEPTED (R428): The Plinth ROM verifies an image slot, loads it, and burns a boot bit, or enters the failed-boot state. -/
  | bootImageAccepted (flash later : Nat) (ones bad : List Nat)
  /-- MORTAR_TRAINED (R443): Mortar links train, and firmware starts running. -/
  | mortarTrained (failed : Option (Nat × Nat))
  /-- CONTROLLER_RESET (R461): RESET_N assertion resets the whole controller and every register. -/
  | controllerReset
  /-- PWROK_LOSS (R488): PWROK deassertion while running acts as a reset and releases every contact. -/
  | pwrokLoss
  /-- PERST_ASSERT (R445): A head's PERST_N assertion resets that head's link, keys, HED page and held flags. -/
  | perstAssert (head : Nat)
  /-- PERST_DEASSERT (R443): A head's PERST_N deassertion starts link training. -/
  | perstDeassert (head : Nat)
  /-- LINK_UP (R443): A head's link reaches L0 at a negotiated width and rate. -/
  | linkUp (head width rate : Nat)
  /-- LINK_DOWN (R116): A head's link leaves L0 and Recovery, which starts HEAD_DOWN_GRACE. -/
  | linkDown (head : Nat)
  /-- UATHES_OFFER (R446): A partner's Uathes OFFER is answered with ACCEPT or DECLINE. -/
  | uathesOffer (head vendor uver family rates : Nat)
  /-- UATHES_GO (R447): GO in Recovery starts the speed change to 128 GT/s. -/
  | uathesGo (head : Nat)
  /-- UATHES_L0 (R448): Equalisation completes and L0 is reached at 128 GT/s. -/
  | uathesL0 (head : Nat)
  /-- UATHES_FAILED (R448): Equalisation failure, 48 ms without L0, or an excess of errors returns the head to 64 GT/s. -/
  | uathesFailed (head : Nat) (cause : UathesFail)
  /-- HED_UATHES_CTL (R448): A RETRY write to HED_UATHES_CTL takes a FAILED head back to STANDARD. -/
  | hedUathesCtl (head page : Nat) (value : BitVec 32)
  /-- IDE_INTEGRITY_FAILURE (R438): An IDE integrity failure discards the flit's requests and makes the stream Insecure. -/
  | ideIntegrityFailure (head stream : Nat)
  /-- DOE_DISCOVERY (R435): A DOE Discovery object is answered. -/
  | doeDiscovery (head index : Nat)
  /-- EVIDENCE_REQ (R436): An EVIDENCE_REQ is queued for Plinth, or answered BUSY. -/
  | evidenceReq (head len raw : Nat)
  /-- EVIDENCE_RSP (R436): Plinth encapsulates, signs, returns EVIDENCE_RSP, and derives the head's PSK. -/
  | evidenceRsp
  /-- CERT_REQ (R435): A CERT_REQ is answered with the identity certificate. -/
  | certReq (head len raw : Nat)
  /-- GET_VERSION (R437): An SPDM GET_VERSION is answered. -/
  | getVersion (head : Nat)
  /-- GET_CAPABILITIES (R437): An SPDM GET_CAPABILITIES is answered. -/
  | getCapabilities (head flags : Nat)
  /-- NEGOTIATE_ALGORITHMS (R437): An SPDM NEGOTIATE_ALGORITHMS is answered. -/
  | negotiateAlgorithms (head algs : Nat)
  /-- PSK_EXCHANGE (R437): PSK_EXCHANGE with the head's hint opens a session and consumes the PSK. -/
  | pskExchange (head hint nonce : Nat)
  /-- PSK_FINISH (R437): PSK_FINISH completes session setup. -/
  | pskFinish (head mac : Nat)
  /-- KEY_UPDATE (R437): KEY_UPDATE refreshes the session keys. -/
  | keyUpdate (head op : Nat)
  /-- HEARTBEAT (R437): An SPDM HEARTBEAT is answered. -/
  | heartbeat (head : Nat)
  /-- END_SESSION (R437): END_SESSION closes the head's session. -/
  | endSession (head : Nat)
  /-- UNSUPPORTED_SPDM (R437): An unsupported SPDM request is answered as an error. -/
  | unsupportedSpdm (head code : Nat)
  /-- QUERY (R437): An IDE_KM QUERY is answered within the session. -/
  | query (head : Nat)
  /-- KEY_PROG (R437): An IDE_KM KEY_PROG programs IDE keys. -/
  | keyProg (head stream set key : Nat)
  /-- K_SET_GO (R438): K_SET_GO activates a key set and makes the stream Secure. -/
  | kSetGo (head stream set : Nat)
  /-- K_SET_STOP (R437): K_SET_STOP stops a key set. -/
  | kSetStop (head stream set : Nat)
  /-- CONTEXT_KEY_REQUEST (R440): A vendor-defined SET or CLEAR sets or erases a context key for sealed host segments. -/
  | contextKeyRequest (head op ctx key : Nat)
  /-- SEC_FLOOR_COMMIT (R431): A RAISE write blows fuse bits to raise the version floor to the running SVN. -/
  | secFloorCommit (head : Nat) (value : BitVec 32)
  /-- COMMIT_WRITE (R455): A GO write to a commit register captures the staged frame and queues it, or rejects it with BUSY. -/
  | commitWrite (head off : Nat) (value : BitVec 32)
  /-- CTL_COMMIT (R454): The commit engine applies CTL_MASTER, CTL_PORT, weights and flag timing. -/
  | ctlCommit
  /-- COH_COMMIT (R454): The commit engine applies COH_CFG and COH_LOST_CFG. -/
  | cohCommit
  /-- MED_COMMIT (R454): The commit engine applies the media configuration registers. -/
  | medCommit
  /-- ENG_COMMIT (R454): The commit engine applies a context, the KV pool and the row-cache configuration. -/
  | engCommit
  /-- TIM_COMMIT (R370): The commit engine applies the time-base configuration, schedule and quiet windows. -/
  | timCommit
  /-- PWR_COMMIT (R385): The commit engine applies rail, package, droop and thermal limits. -/
  | pwrCommit
  /-- OBS_COMMIT (R409): The commit engine applies the trace, log and alarm configuration. -/
  | obsCommit
  /-- SEC_COMMIT (R439): The commit engine applies SEC_POLICY. -/
  | secCommit
  /-- HED_COMMIT (R466): The commit engine applies a head's dynamic-capacity regions and routes, posting deferred Add Capacity records. -/
  | hedCommit
  /-- SELECTOR_WRITE (R457): A selector write loads its window with the selected object's committed values. -/
  | selectorWrite (head off : Nat) (value : BitVec 32)
  /-- REGISTER_WRITE (R452): A write to a register without a row of its own is staged, applied, or ignored, and marks CTL_SETUP_SRC. -/
  | registerWrite (head bar off size : Nat) (data : Word)
  /-- MEM_RD_FWD (R61): A host MemRdFwd request on an HDM-DB extent is accepted by the head and handled at the home Keystone. -/
  | memRdFwd (head tag spid dpa : Nat)
  /-- MEM_WR_FWD (R61): A host MemWrFwd request on an HDM-DB extent is accepted by the head and handled at the home Keystone. -/
  | memWrFwd (head tag spid dpa : Nat)
  /-- BUS_MASTER_ENABLE (R262): A host's configuration write that sets or clears Bus Master Enable on a head allows or stops the head's tier-5 requests to host memory. -/
  | busMasterEnable (head : Nat) (set : Bool)
  /-- PLUMB_CLK_PRESENT (R363): When PLUMB_CLK begins toggling again with PLUMB_EN set, the time base locks TBCLK to 40 × PLUMB_CLK and then waits for sync pulses. -/
  | plumbClkPresent
  /-- EVENT_RING_ZEROED (R183): Within 50 µs of an enabling or moving commit, the event ring is zeroed, its WR and RD are set to 0, and backlogged events begin to be written. -/
  | eventRingZeroed
  /-- LOG_RING_ZEROED (R417): Within 50 µs of an enabling or moving OBS commit, the log ring, or likewise the alarm ring, is zeroed, its pointers are set to 0, and waiting entries or records begin to be written. -/
  | logRingZeroed (alarm : Bool)
  /-- VDD_AUX_REMOVAL (R488): Removal of VDD_AUX clears PWR_TRIP_HIST, and its return restarts the trip count. -/
  | vddAuxRemoval
  deriving DecidableEq, Repr

end Sys2Proof
end

