-- ==== Sys2Proof/Decode.lean ====
section
/-! DEFINITION. The table gives no row any bits (each row's fields are empty): no word spells a command. -/

namespace Sys2Proof

/-- The command that a word spells by the bits of the table: none, for the table gives no bits. -/
def decodeTableWord (_nbits _w : Nat) : Option Instr := none

end Sys2Proof
end

