-- ==== Sys2Proof/Config.lean ====
section
/-! DEFINITION. What the manual leaves open or keeps secret, as constants without a body: the free values, the
fused keys and the cryptographic functions. Nothing can evaluate them, so no claim can rest on a value of theirs. -/

namespace Sys2Proof.Config

/-- DESIGN CHOICE (log entry 3). The free values: one for each reading of the counter `State.fresh`. -/
opaque free : Nat → Nat

/-- AES-256-GCM opening of a sealed page: key, IV, associated data, ciphertext, tag (R441). -/
opaque aesOpen : Nat → Nat → Nat → Nat → Nat → Option Nat

/-- AES-256-GCM sealing of a page: key, IV, associated data, plaintext; ciphertext and tag (R441). -/
opaque aesSeal : Nat → Nat → Nat → Nat → Nat × Nat

/-! DESIGN CHOICE (log entry 41). What is fused or kept secret in the part, and the cryptographic functions the manual names
without giving them. -/

/-- The 128-bit device serial (R432, R462). -/
opaque serial : Nat

/-- SHAKE256 of the `n` bytes of a number, truncated to `out` bytes (R424, R427, R437). -/
opaque shake (out n bytes : Nat) : Nat

/-- SHAKE256, 256 bits, of the `n` bytes of a number (R424, R427). -/
def shake256 (n bytes : Nat) : Nat := shake 32 n bytes

/-- Verification of an XMSS-SHAKE256_20_256 signature: public key, length of the message, message, signature (R423, R427). -/
opaque xmssVerify (key len msg sig : Nat) : Bool

/-- The identity signature XMSSMT-SHAKE256_40/4_256 at an index: length of the message and message (R432, R435). -/
opaque identitySign (index len msg : Nat) : Nat

/-- The fused hash of the level 2 unlock key (R424). -/
opaque unlockHash : Nat

/-- The fused hash of the firmware-signing key (R428). -/
opaque firmwareHash : Nat

/-- The boot ROM, and its bytes (R430). -/
opaque rom : Nat
opaque romLen : Nat

/-- The identity public key (R430, R432). -/
opaque identityKey : Nat

/-- How the items of SEC_MEAS[2] and SEC_MEAS[3] are laid out for their hashes, and their bytes (R430; DESIGN CHOICE, log entry 73). -/
opaque fuseItem (floor firmware unlock identity : Nat) : Nat
opaque fuseLen : Nat
opaque certItem (cert straps : Nat) : Nat
opaque certLen : Nat

/-- SEC_MEAS[0]: the hash of the boot ROM (R430). -/
def romMeasure : Nat := shake256 romLen rom

/-- SEC_MEAS[2]: the hash of the fuse configuration at a floor (R430). -/
def fuseMeasure (floor : Nat) : Nat := shake256 fuseLen (fuseItem floor firmwareHash unlockHash identityKey)

/-- SEC_MEAS[3]: the hash of the identity certificate as read and the straps (R430). -/
def certMeasure (cert straps : Nat) : Nat := shake256 certLen (certItem cert straps)

/-- A word of an on-chip memory as the level 2 window shows it: the die, or 63 for the firmware memories, the byte offset, and what tells
one moment from another; and the bytes of that memory (R399, R425; free values, log entry 52). -/
opaque level2Word (die off elapsed fresh : Nat) : Nat
opaque level2Size (die : Nat) : Nat

/-- The FIPS 203 input checks of an ML-KEM-1024 encapsulation key (R435). -/
opaque kemAccepts (ek : Nat) : Bool

/-- ML-KEM-1024 encapsulation against a key with a random input: shared secret and ciphertext (R436). -/
opaque kemEncapsulate (ek random : Nat) : Nat × Nat

/-- Byte 33 of EVIDENCE_RSP, from the scope and OPEN of level 2 (R435). -/
opaque evidenceL2 (scope : Nat) (isOpen : Bool) : Nat

/-- The CAPABILITIES flags of the SPDM responder (R437). -/
opaque spdmCapabilities : Nat

/-- The session secret of the SPDM 1.2 key schedule, from the PSK, the hint and the nonces of both sides (R437). -/
opaque sessionSecret (psk hint nonce own : Nat) : Nat

/-- Whether PSK_FINISH carries the right verification data (R437). -/
opaque finishAccepts (secret mac : Nat) : Bool

/-- The session secret after KEY_UPDATE (R437). -/
opaque updatedSecret (secret op : Nat) : Nat

/-! DESIGN CHOICE (log entry 40). The weights and coefficients trimmed and fused at manufacture (R381), and what the power
controller predicts from them (R384, R389). -/

/-- Energy in pJ that one counted event of a block draws from a rail (R381). -/
opaque weight (rail key : Nat) : Nat

/-- Leakage in pJ of a die in one interval, drawn from a rail, at the rail's level and the die's hottest reading (R381). -/
opaque leakage (rail die level temp : Nat) : Nat

/-- The trimmed voltage of a Course rail at a level: what it lies above 600 mV (R383, R387). -/
opaque voltage (rail level : Nat) : Nat

/-- A unit's part of its die's leakage and clock energy, in 2^-16 (R393). -/
opaque unitPart (src : Nat) : Nat

/-- Current predicted for a rail at a level, from the current last estimated (R384). -/
opaque predict (rail level current : Nat) : Nat

/-- Package power predicted for the Course levels and the Keystone level, from the power last estimated (R389). -/
opaque predictPkg (levels : List Nat) (r power : Nat) : Nat

end Sys2Proof.Config
end

