-- ==== Sys2Proof/Machine/Bits.lean ====
section
/-! DEFINITION. Bit-field, sign, byte and checksum helpers over natural numbers and bit vectors. Bit ranges are
written high first, as the manual writes them. -/

namespace Sys2Proof.Machine

/-- Bits [hi:lo] of `n`, as the manual's field maps write them. -/
def fld (n hi lo : Nat) : Nat := (n >>> lo) % 2 ^ (hi + 1 - lo)

/-- Bit `i` of `n`. -/
def bit (n i : Nat) : Bool := n.testBit i

/-- `v` placed in bits [hi:lo], bits above the field discarded. -/
def put (v hi lo : Nat) : Nat := (v % 2 ^ (hi + 1 - lo)) <<< lo

/-- `n` with bits [hi:lo] replaced by `v`. -/
def setFld (n hi lo v : Nat) : Nat :=
  (n >>> (hi + 1)) <<< (hi + 1) + put v hi lo + n % 2 ^ lo

/-- A field of a register word. -/
def wfld (w : Word) (hi lo : Nat) : Nat := fld w.toNat hi lo

/-- A Boolean as the bit the manual writes for it. -/
def b2n (b : Bool) : Nat := if b then 1 else 0

/-- Two's-complement value of the low `w` bits of `n`. -/
def sext (w n : Nat) : Int :=
  let m := n % 2 ^ w
  if m < 2 ^ (w - 1) then (m : Int) else (m : Int) - 2 ^ w

/-- The low `w` bits of an integer in two's complement. -/
def ofInt (w : Nat) (i : Int) : Nat := (i % (2 ^ w : Int)).toNat

/-- Ceiling division; 0 when the divisor is 0. -/
def cdiv (a b : Nat) : Nat := if b = 0 then 0 else (a + b - 1) / b

/-- `n` saturated at `m`. -/
def satAt (m n : Nat) : Nat := min m n

/-- Number of set bits among the low `w` bits. -/
def popcount : Nat → Nat → Nat
  | 0, _ => 0
  | w + 1, n => b2n (bit n w) + popcount w n

/-- Whether every one of the `w` low bits is set. -/
def allOnes (w n : Nat) : Bool := n % 2 ^ w = 2 ^ w - 1

/-- Byte `i` of a little-endian number (R3). -/
def byteAt (n i : Nat) : Nat := (n >>> (8 * i)) % 256

/-- The `k` bytes of a little-endian number, lowest first (R3). -/
def bytesOf (k n : Nat) : List Nat := (List.range k).map (byteAt n)

/-- A little-endian number from its bytes (R3). -/
def ofBytes : List Nat → Nat
  | [] => 0
  | b :: bs => b % 256 + 256 * ofBytes bs

/-- One bit of a CRC that shifts left over `w` bits. -/
def crcLeftBit (w poly : Nat) (crc : Nat) (b : Bool) : Nat :=
  let top := bit crc (w - 1)
  let sh := (crc <<< 1) % 2 ^ w
  if top != b then sh ^^^ poly else sh

/-- One byte of a left-shifting CRC, most significant bit first. -/
def crcLeftByte (w poly crc b : Nat) : Nat :=
  [7, 6, 5, 4, 3, 2, 1, 0].foldl (fun c i => crcLeftBit w poly c (bit b i)) crc

/-- The CRC-8 of the flag trailer: polynomial 0x07, initial value 0, no reflection (R71). -/
def crc8 (bs : List Nat) : Nat := bs.foldl (crcLeftByte 8 0x07) 0

/-- Index of the lowest element of a list that satisfies `p`. -/
def firstIdx {α : Type} (p : α → Bool) (l : List α) : Option Nat :=
  let i := l.findIdx p
  if i < l.length then some i else none

/-- The element at `i`, or a default. -/
def nth {α : Type} (l : List α) (i : Nat) (d : α) : α := (l[i]?).getD d

/-- A list with the element at `i` replaced. -/
def setNth {α : Type} : List α → Nat → α → List α
  | [], _, _ => []
  | _ :: t, 0, v => v :: t
  | h :: t, i + 1, v => h :: setNth t i v

end Sys2Proof.Machine
end

