-- ==== Sys2Proof/Machine/Tab.lean ====
section
/-! DEFINITION. Sparse tables keyed by natural numbers: the plain-data form of every register file, object table and
line set of the block. Keys rise strictly, so equal tables are equal data. -/

namespace Sys2Proof.Machine

/-- A table from natural-number keys to values, its keys strictly rising. -/
structure Tab (α : Type) where
  rows : List (Nat × α)
  deriving DecidableEq, Repr, Inhabited

namespace Tab

variable {α : Type}

/-- The table that holds nothing. -/
def empty : Tab α := ⟨[]⟩

/-- The row of a key in a sorted list. -/
def findRow : List (Nat × α) → Nat → Option α
  | [], _ => none
  | (j, v) :: t, k => if j = k then some v else findRow t k

/-- The value at a key. -/
def get? (t : Tab α) (k : Nat) : Option α := findRow t.rows k

/-- The value at a key, or a default. -/
def getD (t : Tab α) (k : Nat) (d : α) : α := (t.get? k).getD d

/-- Whether the key is present. -/
def has (t : Tab α) (k : Nat) : Bool := (t.get? k).isSome

/-- Put a row at its place in a sorted list, replacing the row of the same key. -/
def putRow (k : Nat) (v : α) : List (Nat × α) → List (Nat × α)
  | [] => [(k, v)]
  | (j, w) :: t => if k < j then (k, v) :: (j, w) :: t else if k = j then (k, v) :: t else (j, w) :: putRow k v t

/-- Set the value at a key. -/
def set (t : Tab α) (k : Nat) (v : α) : Tab α := ⟨putRow k v t.rows⟩

/-- Remove a key. -/
def erase (t : Tab α) (k : Nat) : Tab α := ⟨t.rows.filter (fun r => r.1 != k)⟩

/-- Apply `f` to the value at a key, if there is one. -/
def modify (t : Tab α) (k : Nat) (f : α → α) : Tab α :=
  ⟨t.rows.map (fun r => if r.1 = k then (r.1, f r.2) else r)⟩

/-- Apply `f` to every value. -/
def mapV (t : Tab α) (f : Nat → α → α) : Tab α := ⟨t.rows.map (fun r => (r.1, f r.1 r.2))⟩

/-- Keep the rows that satisfy `p`. -/
def filter (t : Tab α) (p : Nat → α → Bool) : Tab α := ⟨t.rows.filter (fun r => p r.1 r.2)⟩

/-- The keys, lowest first. -/
def keys (t : Tab α) : List Nat := t.rows.map (·.1)

/-- The values, by rising key. -/
def vals (t : Tab α) : List α := t.rows.map (·.2)

/-- How many keys are present. -/
def size (t : Tab α) : Nat := t.rows.length

/-- Fold over the rows by rising key. -/
def fold {β : Type} (t : Tab α) (f : β → Nat → α → β) (b : β) : β := t.rows.foldl (fun x r => f x r.1 r.2) b

/-- Whether some row satisfies `p`. -/
def any (t : Tab α) (p : Nat → α → Bool) : Bool := t.rows.any (fun r => p r.1 r.2)

/-- Whether every row satisfies `p`. -/
def all (t : Tab α) (p : Nat → α → Bool) : Bool := t.rows.all (fun r => p r.1 r.2)

/-- The first row, by rising key, that satisfies `p`. -/
def find? (t : Tab α) (p : Nat → α → Bool) : Option (Nat × α) := t.rows.find? (fun r => p r.1 r.2)

end Tab

/-- A set of natural numbers. -/
abbrev NSet := Tab Unit

/-- Put a number into a set. -/
def NSet.add (t : NSet) (k : Nat) : NSet := Tab.set t k ()

/-- Take the numbers from `a` to `b - 1` out of a set. -/
def NSet.delRange (t : NSet) (a b : Nat) : NSet := Tab.filter t (fun k _ => !(a ≤ k && k < b))

/-- Put a number into a set, or take it out. -/
def NSet.put (t : NSet) (k : Nat) (b : Bool) : NSet := if b then t.add k else Tab.erase t k

end Sys2Proof.Machine
end

