-- ==== Sys2Proof/Machine/TypesStore.lean ====
section
/-! DEFINITION. The state of the store path: extents and compositions, flags, the directory and its transactions,
remote requests, and media protection (chapters 2 to 6 of the manual). -/

namespace Sys2Proof.Machine

/-! ### Extents and compositions (R39 to R60) -/

/-- The states of an extent, as coded in ADR_EXT_STATE (R40, R44). -/
inductive ExtState where
  | free | active | draining | revoked | scrubbing
  deriving DecidableEq, Repr, Inhabited

/-- One entry of an access list (R40). `head = 15` is fabric-attached access. -/
structure Acl where
  wr : Bool
  head : Nat
  spid : Nat
  deriving DecidableEq, Repr, Inhabited

/-- The states of a mirrored extent, as coded in MED_MIR_STATE (R138, R139). -/
inductive MirState where
  | none | mirrored | degraded | resync
  deriving DecidableEq, Repr, Inhabited

/-- One row of the extent table (R39, R40), with what the other blocks hold for it. -/
structure Extent where
  state : ExtState := .free
  gen : Nat := 0
  base : Nat := 0                       -- 2 MiB units
  len : Nat := 0                        -- 2 MiB units
  comp : Nat := 0
  scrub : Bool := true
  coh : Nat := 0
  prot : Nat := 0
  partner : Nat := 0
  pbase : Nat := 0
  tag : Nat := 0
  acl : List Acl := []
  share : Option (Nat × Nat) := none    -- parity share: base and length in 2 MiB units (R133)
  zeroed : Bool := false                -- the release scrub has written every line (R49)
  mir : MirState := .none
  dirty : NSet := Tab.empty             -- dirty 2 MiB regions, by region number (R138)
  copied : Tab Nat := Tab.empty         -- by dirty region, lines already copied by resync (R139)
  probeAt : Nat := 0                    -- elapsed time of the last probe or of degradation (R138)
  presented : NSet := Tab.empty         -- heads on which Add Capacity was posted (R52)
  deferred : NSet := Tab.empty          -- heads on which Add Capacity is due and waits (R52)
  drainAt : Nat := 0                    -- elapsed time at which Draining took effect
  deriving DecidableEq, Repr, Inhabited

/-- The configuration of a page or pool a composition names in the store (R59, R402, R270). -/
structure PageCfg where
  enable : Bool := false
  base : Nat := 0                       -- DPA[42:12]
  ext : Nat := 0                        -- extent recorded at commit (R59)
  gen : Nat := 0                        -- its generation
  deriving DecidableEq, Repr, Inhabited

/-- The migration pool of a composition (R263): extent, its generation, and the registers as committed. -/
structure MigCfg where
  enable : Bool := false
  word : Nat := 0
  ext : Nat := 0
  gen : Nat := 0
  deriving DecidableEq, Repr, Inhabited

/-- A composition (R54 to R60). Meters and counters are keyed by the word number of their page. -/
structure Comp where
  hosts : List Nat := []
  quota : List Nat := [0, 0, 0, 0, 0, 0, 0, 0]
  meter : PageCfg := {}
  cnt : PageCfg := {}
  mig : MigCfg := {}
  kv : PageCfg := {}
  periods : Nat := 0                    -- bond periods since creation (R59)
  meters : Tab Nat := Tab.empty         -- running totals; integrals in unit·ns, energy in nJ, engine time in ns (R59)
  counts : Tab Nat := Tab.empty         -- counter-page totals, by word (R402)
  shareNow : Nat := 0                   -- engine share in force this bond period, µs (R57, R58)
  engUsed : Nat := 0                    -- engine-ns charged this bond period
  marksUsed : Nat := 0                  -- marks passed this bond period (R408)
  budgetNow : Nat := 0                  -- power budget in force, 0.25 W (R58)
  overq : Nat := 0                      -- over-quota flags set by a cut and not yet cleared (R58)
  duty : Nat := 0                       -- issue-duty level of the power budget (R394)
  deriving DecidableEq, Repr, Inhabited

/-! ### Flagged stores (R71 to R83) -/

/-- A flag held at its home Keystone (R75, R79, R80). -/
structure HeldFlag where
  seq : Nat
  expect : Nat
  action : Nat
  payload : Line                        -- the line as it arrived; bytes 56 to 63 are the trailer
  be : ByteEn
  line : Nat                            -- DPA[42:6]
  head : Nat
  tag : Nat
  landedAt : Nat
  limit : Nat                           -- FLAG_WAIT in force when it landed, ns (R83)
  refused : Bool := false               -- refused at step 3 (R80)
  revoked : Bool := false               -- its extent entered Draining while it was held (R79)
  dpaOk : Bool := true                  -- its DPA[46:43] is 0, so that its line may lie in an extent (R32)
  deriving DecidableEq, Repr, Inhabited

/-- What the controller keeps for one source SPID (R74, R77). -/
structure FlagSource where
  count : Nat := 0
  next : Nat := 0
  held : List HeldFlag := []
  deriving DecidableEq, Repr, Inhabited

/-! ### The directory (R96 to R125) -/

/-- The states of a directory line (R99). -/
inductive DirState where
  | i | s | f | e | m | o
  deriving DecidableEq, Repr, Inhabited

/-- A directory entry: the fields of the entry word (R97), with the allocation order kept beside it (R96). -/
structure DirEntry where
  comp : Nat
  st : DirState
  bcast : Bool := false
  own : Nat := 0
  ptrs : List Nat
  order : Nat
  deriving DecidableEq, Repr, Inhabited

/-- The request classes of R100; `drop` is a host giving up its copy, and `evict` the recall of an entry (R111, R112, R58,
R49, R113). -/
inductive ReqClass where
  | rdS | rdE | own | unc | wr | drop | evict
  deriving DecidableEq, Repr, Inhabited

/-- How a line request is answered when it ends. -/
inductive ReqKind where
  | memRd                               -- CXL.mem read: data with a grant
  | memInv                              -- Cmp with a grant
  | memWr                               -- CXL.mem write: Cmp
  | uioRd                               -- one line of a UIO read
  | uioWr                               -- one line of a UIO write
  | flag                                -- a flag application (R73)
  | course                              -- a Course buffer's own request
  | signal                              -- a local signal or flag of the controller's own (R179, R240)
  | lost                                -- an entry of the lost-line log (R123)
  | none                                -- the controller's own recall
  deriving DecidableEq, Repr, Inhabited

/-- One line request at its home Keystone (R21 step 4). `src` is a SPID, or 4080 + c for Course buffer c (R12). -/
structure LineReq where
  kind : ReqKind
  cls : ReqClass
  src : Nat
  course : Bool := false
  head : Nat := 0
  tag : Nat := 0
  line : Nat
  off : Nat := 0                        -- first byte wanted, for one line of a UIO read
  len : Nat := 64
  data : Line := 0
  be : ByteEn := 0
  full : Bool := false                  -- a full-line write
  poison : Bool := false
  action : Nat := 0                     -- flag action (R73); 1 for a resync's read of the partner's copy (R139)
  env : LineEnv := {}
  discard : Bool := false               -- dirty data the recall returns is discarded (R49)
  note : Nat := 0                       -- body of the flag log record, without its reason (R416)
  grant : Nat := 0                      -- state granted with the answer: 0 none, 1 S, 2 E or M (R105)
  room : Option Nat := none             -- the line recalled to make room for the request's new entry (R111, R112)
  cid : Option Nat := none              -- the command that wrote, for a write that waits for the partner's copy (R137)
  starved : Bool := false               -- waits for one of its Keystone's 4,096 transactions (R111)
  atOnce : Bool := false                -- landed ahead of the waiting requests, for a snoop that addressed its source (R106)
  deriving DecidableEq, Repr, Inhabited

/-- The back-invalidate snoops (R102), coded as the log codes them. -/
inductive SnoopOp where
  | inv | data | cur
  deriving DecidableEq, Repr, Inhabited

/-- A snoop outstanding to a host (R102, R116). -/
structure Snoop where
  spid : Nat
  op : SnoopOp
  head : Nat
  sentAt : Option Nat                   -- none while it waits for one of the head's 1,024 places
  limit : Nat
  wrote : Bool := false                 -- the host has written the line since (R106)
  deriving DecidableEq, Repr, Inhabited

/-- The messages between Keystones and Course buffers (R103). -/
inductive BufMsg where
  | fwd | recallShare | recallInv | presence
  deriving DecidableEq, Repr, Inhabited

/-- A Course buffer's answer (R103). -/
inductive BufAns where
  | miss | clean | dirty
  deriving DecidableEq, Repr, Inhabited

/-- What an addressed agent answered. -/
inductive Answer where
  | hostI | hostS | hostE | miss | clean | dirty
  deriving DecidableEq, Repr, Inhabited

/-- A coherence transaction of one line (R106). -/
structure Trans where
  req : LineReq
  snoops : List Snoop := []
  recalls : List (Nat × BufMsg) := []   -- Course die and message awaiting its answer
  answers : List (Nat × Answer) := []   -- by pointer value
  data : Option Line := none            -- data a buffer returned with its answer
  poison : Bool := false                -- that data is poisoned
  deriving DecidableEq, Repr, Inhabited

/-- A message waiting on a Mortar link to a buffer, in order (R104). -/
structure ToBuf where
  msg : BufMsg
  line : Nat
  deriving DecidableEq, Repr, Inhabited

/-- What a message on a Mortar link to a Keystone is: an answer, a report of a buffer's own (R103), or its request (R100). -/
inductive UpMsg where
  | answer | upgrade | writeback | request
  deriving DecidableEq, Repr, Inhabited

/-- A message waiting on a Mortar link to a Keystone, in order (R104). -/
structure FromBuf where
  msg : BufMsg
  ans : BufAns
  line : Nat
  data : Line
  poison : Bool
  kind : UpMsg := .answer
  req : Option LineReq := none          -- a request, as it reaches its Keystone
  deriving DecidableEq, Repr, Inhabited

/-- A line in a Course buffer (R12, R99). `own` is the right to write it (E or M); `dirty` is M or O. -/
structure BufLine where
  data : Line
  poison : Bool := false
  own : Bool := false
  dirty : Bool := false
  once : Bool := false                  -- an answer served uncached, kept for the access that asked only (R112, R119)
  deriving DecidableEq, Repr, Inhabited

/-! ### Media (R125 to R151) -/

/-- A rebuild in progress of one region (R142). -/
structure Rebuild where
  slot : Option Nat                     -- the region that is its slot; none while it waits for one
  next : Nat := 0                       -- next line of the region to copy
  bad : Nat := 0                        -- lines written with poison
  cause : Nat
  asked : Bool := false                 -- its wait for a slot has raised RESCUE_EMPTY (R142)
  deriving DecidableEq, Repr, Inhabited

/-- One row of a bank's table of most-activated rows (R147). -/
structure ActRow where
  row : Nat
  count : Nat
  deriving DecidableEq, Repr, Inhabited

/-- One bank, as its Footing tracks it (R147). -/
structure Bank where
  raa : Nat := 0                        -- rolling accumulated activation count
  rows : List ActRow := []              -- the 32 most-activated rows
  row : Option Nat := none              -- the row that is open
  deriving DecidableEq, Repr, Inhabited

/-- What a Footing keeps for one channel. -/
structure Chan where
  failed : Bool := false
  calFails : Nat := 0                   -- calibration failures in a row (R149)
  calBusy : Bool := false               -- under calibration (R26)
  calSince : Nat := 0                   -- elapsed time at which the last calibration ended, or training did (R377)
  calAgain : Bool := false              -- the last one failed: due again at once
  calStart : Nat := 0                   -- elapsed time at which the running calibration began
  ueTimes : List Nat := []              -- elapsed times of uncorrectable reads within the last 1 ms (R140)
  refreshes : List Nat := [0, 0, 0, 0]  -- refreshes each bank of the bank groups has had, by its number in its group (R146)
  forced : Nat := 0                     -- calibrations counted as forced (R377)
  mr4 : Nat := 0                        -- the DRAM temperature last read from mode register 4 (R146)
  mitigations : Nat := 0                -- RFM and DRFM commands issued (R147)
  deriving DecidableEq, Repr, Inhabited

/-- The patrol pass of one Footing (R148, R378). -/
structure Patrol where
  next : Nat := 0                       -- lines of the pass already read
  start : Nat := 0                      -- elapsed time the pass began
  covered : Bool := true                -- no SCRUB_COVERAGE is active
  readAt : Option Nat := none           -- elapsed time of the last batch (R378)
  deriving DecidableEq, Repr, Inhabited

/-- Media state beyond the registers (R125 to R151). -/
structure MedSt where
  dimm : Option Dimm := none            -- the accepted population (R126)
  popReason : Nat := 0                  -- MED_POP.REASON
  popChannel : Nat := 0                 -- MED_POP.CHANNEL
  rate : Nat := 7                       -- MED_POP.RATE
  p : Nat := 0                          -- population P in bytes (R34)
  chans : Tab Chan := Tab.empty         -- by channel
  ue : Tab Nat := Tab.empty             -- lines that read uncorrectable, with the device (15 not located)
  repair : NSet := Tab.empty            -- corrected lines whose write-back is owed (R131)
  retired : NSet := Tab.empty           -- retired 2 MiB regions (R43)
  rebuilds : Tab Rebuild := Tab.empty   -- by region (R142)
  used : NSet := Tab.empty              -- regions that are rescue slots in use (R143)
  released : NSet := Tab.empty          -- regions released from the rescue pool (R143)
  ceLines : Tab Nat := Tab.empty        -- lines with a corrected error counted for CE_LIMIT (R141)
  ceLimitN : Tab Nat := Tab.empty       -- by 8 × region + Footing, the count held against CE_LIMIT (R141)
  ceRegion : Tab Nat := Tab.empty       -- corrected errors by region (R131, R144)
  ceRank : Tab Nat := Tab.empty         -- by channel and rank (R131)
  ceDev : Tab Nat := Tab.empty          -- by channel, rank and device (R131)
  repairedAt : Tab Nat := Tab.empty     -- lines repaired after an uncorrectable read, with the time (R141)
  banks : Tab Bank := Tab.empty         -- by channel, rank, bank group and bank (R147)
  patrol : Tab Patrol := Tab.empty      -- by Footing (R148)
  front : Nat := 0                      -- start-up scrub front in bytes (R444)
  deriving DecidableEq, Repr, Inhabited

/-- A read that waits at a Footing for a calibration to end, with the line as it stood at its turn at the ordering point (R26,
R65). -/
structure CalAnswer where
  req : LineReq
  data : Line
  poison : Bool
  deriving DecidableEq, Repr, Inhabited

/-- An access to a channel beside a read that is answered: one that meets a calibration waits at the Footing (R26). -/
inductive CalAccess where
  | write (line : Nat)                  -- a line is written
  | old (line : Nat) (media : Media)    -- the old value of a line that a write merges into, or whose parity it updates (R68, R134)
  | side (line : Nat) (media : Media)   -- a line of a stripe, read on another line's behalf (R134, R135)
  | zero (region : Nat)                 -- a channel's lines of a region, written by a scrub (R49, R444)
  deriving DecidableEq, Repr, Inhabited

/-- A UIO write whose completion is owed: its lines that have not ended, its source, and those of its lines that landed in their
own turn (R62, R106). -/
structure UioWrite where
  left : Nat
  src : Nat := 0
  lines : List Nat := []
  deriving DecidableEq, Repr, Inhabited

/-- A BIConflict whose Ack waits for completions (R106). -/
structure Conflict where
  head : Nat
  spid : Nat
  line : Nat
  deriving DecidableEq, Repr, Inhabited

/-! ### Remote requests (R84, R85) -/

/-- What a remote request is for. -/
inductive Purpose where
  | mirror (ext line : Nat)             -- a partner write of a landed line (R136)
  | mirrorRead (line : Nat)             -- a read of the partner's copy (R137)
  | resync (ext line : Nat)             -- one line of a resync copy (R139)
  | probe (ext : Nat)                   -- a probe read (R138)
  | read (cid addr : Nat)               -- an operand read of a command
  | write (cid : Nat)                   -- a result write of a command
  | flag (cid : Nat)                    -- a flag of FLAG_WRITE (R240)
  | signal (cid : Nat)                  -- a remote signal (R180)
  | peerSync                            -- a resynchronising flag (R213)
  | coll (cid : Nat)                    -- a COLL transfer (R292)
  | abort (grp : Nat)                   -- an abort record (R297)
  | fill (page : Nat)                   -- a page fill (R264)
  | evict (page : Nat)                  -- a page write-back (R264)
  deriving DecidableEq, Repr, Inhabited

/-- A request of the controller's own in flight (R84). `host` requests name host memory behind the head. -/
structure Remote where
  head : Nat
  host : Bool
  port : Nat
  write : Bool
  addr : Nat                            -- DPA at the peer, or host address
  len : Nat
  data : Nat := 0
  poison : Bool := false
  flag : Option (Nat × Nat × Nat) := none  -- a flagged store: EXPECT, SEQ and ACTION, set as it is sent (R212)
  be : Nat := 0xFF                      -- payload byte enables of a flagged store
  purpose : Purpose
  cid : Option Nat := none              -- the command that issued it
  ring : Option Nat := none             -- and its ring
  issued : Nat                          -- elapsed time of issue
  sent : Option Nat := none             -- elapsed time of transmission
  early : Bool := false                 -- issued while its head's link was down, or waiting as PERST_N fell: timed from its issue (R84, R445)
  limit : Nat                           -- REMOTE_TIMEOUT in force
  deriving DecidableEq, Repr, Inhabited

end Sys2Proof.Machine
end

