-- ==== Sys2Proof/Machine/TypesEng.lean ====
section
/-! DEFINITION. The state the opcodes use: contexts, on-chip copies, peer sequencing, migration pages, the KV pool,
collective groups, embedding tables, the row cache, search indexes and dump watches (chapters 8 to 13). -/

namespace Sys2Proof.Machine

/-- A context (R203). -/
structure Ctx where
  comp : Nat := 0
  enable : Bool := false
  segCount : Nat := 0
  hostMask : Nat := 0
  segBase : Nat := 0                    -- DPA[42:12]
  deriving DecidableEq, Repr, Inhabited

/-- A line held in an engine's read cache, a unit's prefetch buffer or a die's staged copies (R207). -/
structure CopyLine where
  comp : Nat
  data : Line
  poison : Bool
  used : Nat := 0                       -- when it was last read, as a count of such reads (R190)
  deriving DecidableEq, Repr, Inhabited

/-- What an engine's scratchpad holds: the operand rows of the running command, engine-ready (R190, R207, R245). -/
structure Spad where
  comp : Nat := 0
  cid : Nat := 0
  rows : List (Nat × Nat) := []         -- pieces of rows, oldest first: the format of its tile, and the bits packed by R216
  bytes : Nat := 0
  deriving DecidableEq, Repr, Inhabited

/-- The dispatcher's partial results of a command that a Course buffer holds, as FP32 (R12, R191, R245). -/
structure Partials where
  comp : Nat := 0
  cid : Nat := 0
  sums : List Nat := []
  deriving DecidableEq, Repr, Inhabited

/-- What a head's Quoin keeps for one peer port (R212, R213). -/
structure PeerSt where
  count : Nat := 0                      -- plain writes since the previous flag
  next : Nat := 0                       -- next sequence
  flag : Option Nat := none             -- outstanding flag: the remote-request id
  flagLine : Nat := 0                   -- line of that flag
  resync : Bool := false                -- between a failed flag, or a change of route, and its resynchronisation
  rerouted : Bool := false              -- the route changed; the next flag resynchronises first (R468)
  deriving DecidableEq, Repr, Inhabited

/-- The state of a migration page (R264). -/
inductive PageState where
  | filling | resident | evicting
  deriving DecidableEq, Repr, Inhabited

/-- A page outside ABSENT (R264): its key, its frames and its state. -/
structure MigPage where
  comp : Nat
  head : Nat
  big : Bool                            -- 2 MiB page
  host : Nat                            -- host page address
  frame : Nat                           -- first frame of the pool
  state : PageState
  dirty : Bool := false
  pieces : NSet := Tab.empty            -- 4 KiB pieces not yet filled, or not yet written back
  waiters : List Nat := []              -- commands that wait for its fill, or the one that evicts it
  sealing : Option (Nat × Nat × Nat) := none  -- a sealed page: key, context and address of its first metadata entry (R441)
  held : Tab Nat := Tab.empty           -- of a sealed page, what has arrived of a piece: 2 × piece its bytes, 2 × piece + 1 its entry
  deriving DecidableEq, Repr, Inhabited

/-- A KV block record (R269). -/
structure KvBlock where
  owner : Nat
  grantees : List Nat := []
  refs : Nat := 1
  holds : Nat := 0
  fill : Nat := 0
  tag : Nat := 0
  deriving DecidableEq, Repr, Inhabited

/-- A request that landed on a KV service line and waits for its Keystone: 64 × composition + line, its bytes 0 to 31, and
the write whose completion leaves after the result, with the partner write that one waits for (R270). -/
structure KvReq where
  key : Nat
  bits : Nat
  owed : Option (Option Nat × LineReq) := none
  deriving DecidableEq, Repr, Inhabited

/-- The states of a collective group (R287, R289). -/
inductive GrpState where
  | free | active | aborted | draining
  deriving DecidableEq, Repr, Inhabited

/-- A collective group (R287 to R301). -/
structure Grp where
  state : GrpState := .free
  gkey : Nat := 0
  comp : Nat := 0
  rank : Nat := 0
  size : Nat := 0
  epoch : Nat := 0
  gen : Nat := 0
  cause : Nat := 0
  origin : Nat := 0
  aborts : Nat := 0
  rxlen : Nat := 0
  rx : Nat := 0                         -- DPA of this member's receive window
  list : Nat := 0
  gnext : Nat := 0                      -- next step number
  last : Nat := 0                       -- last step number taken
  members : List Nat := []              -- the member entries read at creation
  rings : NSet := Tab.empty             -- attached rings
  base : Nat := 0                       -- last base step
  marks : Tab Nat := Tab.empty          -- progress of R301: 0 useful, 1 lost, 2 replayed (engine-ns), 3 MARK, 4 MVALID, 5 highest STEP so far
  abTime : Nat := 0                     -- fabric time at which ORIGIN detected the last abort (R297)
  abCause : Nat := 0                    -- ORIGIN's CAUSE of it (R297)
  due : Bool := false                   -- aborted, its commands not yet stopped and no record forwarded (R296, R297)
  queue : List Nat := []                -- its COLLs dispatched and not completed, in dispatch order (R293)
  deriving DecidableEq, Repr, Inhabited

/-- A version of an embedding table (R302 to R309). -/
structure TblVer where
  ver : Nat
  state : Nat                           -- 1 CURRENT, 2 SUPERSEDED, 3 RETIRING
  base : Nat
  rows : Nat
  width : Nat
  stride : Nat
  fmt : Nat
  ext : Nat
  gen : Nat
  dead : Bool := false
  bound : Nat := 0                      -- commands bound to it
  deriving DecidableEq, Repr, Inhabited

/-- An embedding table. -/
structure Tbl where
  comp : Nat
  vers : List TblVer := []
  deriving DecidableEq, Repr, Inhabited

/-- A line of the row cache (R319). -/
structure RowLine where
  dpa : Nat
  tbl : Nat
  ver : Nat
  comp : Nat
  freq : Nat
  deriving DecidableEq, Repr, Inhabited

/-- A search index (R323 to R351). -/
structure Idx where
  state : Nat := 0                      -- 0 FREE, 1 ACTIVE, 2 DEAD
  comp : Nat := 0
  words : Tab Word := Tab.empty         -- the committed window: GEOM, ATTR, MEM
  bound : Nat := 0                      -- commands bound to it
  hwm : Nat := 0
  live : Nat := 0
  deltas : List (Nat × Nat × Nat) := [] -- nodes that appear and nodes that leave LIVE as an epoch is published
  firsts : List (Nat × Nat) := []       -- epochs to be published with the lowest node their INSERT linked (R344)
  tomb : Nat := 0
  epoch : Nat := 0
  entry : Nat := 0xFFFF_FFFF
  sideHead : Nat := 0                   -- side-list entries ever folded and ever appended (R345)
  sideTail : Nat := 0
  freeHead : Nat := 0xFFFF_FFFF
  reserved : Nat := 0                   -- last epoch reserved
  open_ : List (Nat × Nat) := []        -- outstanding reservations: epoch and command, oldest first
  exts : List (Nat × Nat) := []         -- extents of its memory with their generations
  disp : List Nat := []                 -- commands naming it dispatched and not completed, oldest first
  deriving DecidableEq, Repr, Inhabited

/-- A dump watch (R241 to R243). -/
structure Watch where
  cid : Nat                             -- the DUMP_WATCH command
  armed : Bool := false
  since : Nat := 0                      -- elapsed time at which it was armed
  next : Nat := 0                       -- next byte of its buffer
  claimed : Nat := 0                    -- dumps reserved
  taken : Nat := 0                      -- dumps whose header has landed
  skipped : Nat := 0
  deriving DecidableEq, Repr, Inhabited

/-- The engines' and units' own state, and the tables the opcodes share. -/
structure EngSt where
  ctxs : Tab Ctx := Tab.empty
  readCache : Tab (Tab CopyLine) := Tab.empty   -- by engine, lines by number
  prefetch : Tab (Tab CopyLine) := Tab.empty    -- by source number of the unit
  staged : Tab (Tab CopyLine) := Tab.empty      -- by Course die
  copyUse : Nat := 0                            -- reads of copies so far, the order of use
  spads : Tab Spad := Tab.empty                 -- scratchpads, by engine (R190)
  partials : Tab Partials := Tab.empty          -- by Course die (R245)
  owner : Tab Nat := Tab.empty                  -- composition whose command an engine or unit last took, plus 1
  seeds : Nat := 0                              -- generation of the engines' random generators (R200)
  peers : Tab PeerSt := Tab.empty               -- by port
  pages : Tab MigPage := Tab.empty              -- by page number given at the fault
  faults : List (Nat × Nat) := []               -- faults that wait for service, in order: command and address (R265)
  kv : Tab KvBlock := Tab.empty                 -- by block
  kvSerial : Tab Nat := Tab.empty               -- requests served, by 64 × composition + line
  kvDue : List KvReq := []                      -- service requests that landed, in order
  grps : Tab Grp := Tab.empty
  abortDue : List (Nat × Nat) := []             -- abort records that landed: group and record
  tbls : Tab Tbl := Tab.empty
  rowCache : Tab RowLine := Tab.empty           -- by 16 × set + way, sets numbered over the Keystones
  sketch : Tab Nat := Tab.empty                 -- frequency counters
  idxs : Tab Idx := Tab.empty
  searchCache : Tab Nat := Tab.empty            -- index lines held at their Keystones, with their last use (R332)
  searchUse : Nat := 0
  watches : List Watch := []
  deriving DecidableEq, Repr, Inhabited

end Sys2Proof.Machine
end

