-- ==== Sys2Proof/Machine/TypesObs.lean ====
section
/-! DEFINITION. The state of observation: counters, sensors, marks, the log and alarms (chapter 17 of the manual). -/

namespace Sys2Proof.Machine

/-- A mark (R405), its fields kept apart; `kind` as R406. -/
structure Mark where
  time : Nat
  src : Nat
  kind : Nat
  comp : Nat
  sys : Bool
  mseq : Nat
  payload : Nat                         -- bits [255:112], as a 144-bit number
  deriving DecidableEq, Repr, Inhabited

/-- A source's loss accumulator (R408). -/
structure Loss where
  cause : Nat                           -- bit 0 SHARE, bit 1 CREDIT, bit 2 FROZEN
  count : Nat
  first : Nat
  last : Nat
  deriving DecidableEq, Repr, Inhabited

/-- What one mark source holds (R408). -/
structure MarkSrc where
  queue : List Mark := []
  mseq : Nat := 0
  loss : Option Loss := none
  deriving DecidableEq, Repr, Inhabited

/-- The trace buffer of one Keystone (R409). -/
structure Trace where
  marks : Tab Mark := Tab.empty         -- by index
  next : Nat := 0
  stream : List Nat := []               -- indices waiting for the MARK port in STREAM mode (R412)
  frozen : Bool := false
  post : Option Nat := none             -- marks still accepted after a freeze trigger
  overwritten : Nat := 0
  sinceSync : Nat := 0                  -- marks accepted since the last SYNC of this Keystone
  deriving DecidableEq, Repr, Inhabited

/-- The MARK port (R410 to R412). -/
structure MarkPort where
  row : Nat := 0
  crc : List Nat := [0, 0, 0, 0]        -- running CRC of each lane since the last ALIGN row
  scr : List Nat := [0, 0, 0, 0]        -- scrambler state of each lane, 58 bits
  turn : Nat := 0                       -- buffer that is next in the round-robin
  deriving DecidableEq, Repr, Inhabited

/-- A log entry before SEQ and PHASE are given to it (R415). -/
structure LogEntry where
  time : Nat
  src : Nat
  kind : Nat
  sev : Nat
  body : Nat                            -- 128 bits
  deriving DecidableEq, Repr, Inhabited

/-- A gap record (R416, R418). `pos` is how many entries of its queue stand before it. -/
structure Gap where
  pos : Nat
  count : Nat
  first : Nat
  last : Nat
  minSev : Nat
  maxSev : Nat
  src : Nat
  deriving DecidableEq, Repr, Inhabited

/-- A log queue of a die, or the backlog of K0 (R418). -/
structure LogQ where
  entries : List LogEntry := []
  gap : Option Gap := none
  deriving DecidableEq, Repr, Inhabited

/-- One kind of the alarm table, or an accumulator of a die (R419). -/
structure Alarm where
  last : Nat := 0
  first : Nat := 0
  detail : Nat := 0
  count : Nat := 0
  active : Bool := false
  pend : Bool := false
  deriving DecidableEq, Repr, Inhabited

/-- An accumulator's delivery also carries whether it changes ACTIVE (R419, R421). -/
structure AlarmAcc where
  a : Alarm
  setsActive : Option Bool := none
  deriving DecidableEq, Repr, Inhabited

/-- A ring in the store that the controller writes (R417, R421). -/
structure RecRing where
  wr : Nat := 0
  rd : Nat := 0
  zeroing : Bool := false
  deriving DecidableEq, Repr, Inhabited

/-- Observation state beyond the registers. -/
structure ObsSt where
  counters : Tab Nat := Tab.empty       -- global counters by word (R401)
  cePage : Tab (Tab Nat) := Tab.empty   -- BAR2 copies of counter pages, by composition (R402)
  meterPage : Tab (Tab Nat) := Tab.empty -- BAR2 copies of meter pages (R59)
  sensor : Tab (Nat × Nat) := Tab.empty -- reading in 1/16 °C as 16 bits, highest in °C (R403)
  sensorStamp : Nat := 0
  lane : Tab Nat := Tab.empty           -- lane-sample entries (R403)
  srcs : Tab MarkSrc := Tab.empty       -- by source number
  trace : List Trace := [{}, {}, {}, {}]
  port : MarkPort := {}
  logQ : Tab LogQ := Tab.empty          -- by die
  backlog : LogQ := {}
  logSeq : Nat := 0
  log : RecRing := {}
  alarms : Tab Alarm := Tab.empty       -- the alarm table, by kind
  acc : Tab AlarmAcc := Tab.empty       -- accumulators, keyed 256 × die + kind
  alarmDue : NSet := Tab.empty          -- kinds with a record waiting to be written
  alarmSent : NSet := Tab.empty         -- kinds whose record of this bond period has been written
  alarm : RecRing := {}
  alert : Bool := false                 -- ALERT_N asserted
  deriving DecidableEq, Repr, Inhabited

end Sys2Proof.Machine
end

