-- ==== Sys2Proof/Machine/TypesPlat.lean ====
section
/-! DEFINITION. The state of the time base, power, security, start-up, heads and set-up registers (chapters 15, 16, 18
and 19 of the manual). -/

namespace Sys2Proof.Machine

/-! ### Time (R361 to R380) -/

/-- The time base on K0. -/
structure TimeSt where
  elapsed : Nat := 0                    -- TBCLK edges since reset, ns; an idle step counts one (R371)
  counter : Nat := 0                    -- fabric-time counter, quarter-ns, bits [62:0] (R361)
  unsync : Bool := true
  lock : Bool := false
  plumbClk : Bool := false              -- PLUMB_CLK toggles
  hadLock : Bool := false               -- locked at least once since reset
  pulse : Option Nat := none            -- elapsed time of an untaken pulse (R363, R364)
  expected : Nat := 0                   -- counter value of the last boundary whose pulse was taken or missed
  pulses : Nat := 0                     -- pulses taken within 4 ns of their boundary (R364)
  spurious : Nat := 0                   -- pulses ignored (R364)
  steps : Nat := 0                      -- TIM_STATUS.STEPS
  resid : Nat := 0                      -- TIM_STATUS.RESID, 16 bits
  missed : Nat := 0                     -- TIM_STATUS.MISSED
  ptmOk : Bool := false
  ptmAt : Nat := 0                      -- elapsed time of the last PTM exchange
  ptmLoad : Option (Nat × Nat) := none  -- T waiting for the next accepted pulse, and the elapsed time of its exchange (R369)
  atSync : Option Nat := none           -- command id of a TIME_SET waiting for the next accepted pulse (R368)
  bond : Nat := 0                       -- bond period of the last boundary event
  boundaryDue : Bool := false           -- the counter has crossed a boundary whose event is still to come (R371)
  boundaryAt : Nat := 0                 -- fabric time of that boundary
  slot : Nat := 0                       -- slot the schedule was last evaluated for
  quiet : Bool := false                 -- a quiet window is open
  laneNext : Tab Nat := Tab.empty       -- by head, the lane its next LANE_SAMPLE slot measures (R374)
  laneSlot : Tab Nat := Tab.empty       -- by head, 64 × bond period + slot of its last measurement
  laneAbandoned : Nat := 0              -- lane samples abandoned and counted (R374)
  telemetry : Nat := 0                  -- telemetry collections run
  deriving DecidableEq, Repr, Inhabited

/-! ### Power (R381 to R398) -/

/-- A window average (R384), kept exact as a fraction of 2^32. -/
abbrev Avg := Nat

/-- One Course die (R387, R391, R392, R396). -/
structure CourseSt where
  withdrawn : Bool := false             -- R20
  halted : Bool := false                -- R396
  haltCool : Option Nat := none         -- elapsed time since when all sensors read below 100 °C
  n : Nat := 16                         -- throttle level in force
  railN : Nat := 16                     -- demanded by its rail
  pkgN : Nat := 16                      -- demanded by the package limit
  thermN : Nat := 16                    -- demanded by thermal throttling
  volt : Nat := 16                      -- level whose voltage the rail has reached
  peak : Nat := 0                       -- highest level used in the running interval (R387)
  history : List Nat := []              -- highest levels of the last 512 intervals, newest first (R387)
  droop : Bool := false                 -- ACLK period doubled
  deriving DecidableEq, Repr, Inhabited

/-- A stretch of a tile within an estimation interval: its command, the composition, and its elapsed time (R393). -/
structure TileRun where
  cid : Nat
  comp : Nat
  ns : Nat
  deriving DecidableEq, Repr, Inhabited

/-- The power controller and thermal monitor. -/
structure PowerSt where
  interval : Nat := 0                   -- estimation intervals completed
  began : Nat := 0                      -- elapsed time at which the running interval began
  ends : Nat := 2048                    -- elapsed time at which it ends (R362, R371)
  runs : Tab (List TileRun) := Tab.empty -- tiles that ended in the running interval, by source (R393)
  reqs : Tab Nat := Tab.empty           -- line requests of the interval by charge: composition, 256 overhead, `cmdCharge`
  avg : Tab Nat := Tab.empty            -- window averages by 4 × rail + window, in 2^-32 of 0.1 A (R384)
  last : Tab Nat := Tab.empty           -- current estimated for the last interval, by rail, in the same unit
  pkgAvg : Nat := 0                     -- average package power, in 2^-32 W (R389)
  pkgLast : Nat := 0                    -- package power of the last interval, in 2^-32 W
  bound : NSet := Tab.empty              -- rails bound or exceeded (RAIL_OVER)
  low : NSet := Tab.empty               -- rails whose lowest level fails, and rails 22 and 23 exceeded (R384)
  hot : NSet := Tab.empty               -- Quoins above THROTTLE_C (R395)
  pmb : List (Nat × Nat) := []          -- PMBus energy and estimated energy of the last 64 ms, nJ per ms, newest first
  estMs : Nat := 0                      -- estimated package energy since the last PMBus reading, nJ
  pmbAt : Nat := 0                      -- elapsed time of that reading
  thermAt : Nat := 0                    -- elapsed time of the last collection (R395)
  r : Nat := 8                          -- Keystone level in force (R388)
  rRail : Nat := 8
  rPkg : Nat := 8
  rFt : Nat := 8                        -- Footing level in force
  rFtRail : Nat := 8
  thermR : Tab Nat := Tab.empty         -- levels demanded by thermal throttling of Keystones and Footings, by die
  pkgOver : Bool := false
  alert : Nat := 0                      -- VR_ALERT_N inputs low, one bit each
  floor : Bool := false                 -- floor state (R397)
  alertClear : Nat := 0                 -- elapsed time since when all eight inputs have been high
  floorSrc : Nat := 0
  budgetAvg : Tab Nat := Tab.empty      -- attributed power average by composition, in 2^-32 of 0.25 W (R394)
  tripValid : Bool := false             -- PWR_TRIP_HIST, held in VDD_AUX
  tripDie : Nat := 0
  tripTemp : Nat := 0
  tripCount : Nat := 0
  thermtrip : Bool := false             -- THERMTRIP_N asserted
  deriving DecidableEq, Repr, Inhabited

/-! ### Heads (R443 to R449, R182, R451) -/

/-- The states of a head's Uathes negotiation, as coded in HED_UATHES (R448, R449). -/
inductive UathesSt where
  | standard | agreed | uathes | failed
  deriving DecidableEq, Repr, Inhabited

/-- Where a head's SPDM connection stands (R437). -/
inductive SpdmSt where
  | idle | version | caps | algs | pskSent | session
  deriving DecidableEq, Repr, Inhabited

/-- The states of an IDE stream, as coded in HED_IDE_STATE (R439). -/
inductive IdeSt where
  | off | keyed | secure | insecure
  deriving DecidableEq, Repr, Inhabited

/-- One head Hh with its Quoin. -/
structure Head where
  perst : Bool := true                  -- PERST_N asserted
  perstAt : Nat := 0                    -- elapsed time of its last deassertion
  up : Bool := false                    -- link in L0 or Recovery
  downAt : Nat := 0                     -- elapsed time at which the link went down
  graceMs : Nat := 50                   -- HEAD_DOWN_GRACE in force for this outage (R121)
  wasDown : Bool := false               -- an outage is running
  gone : NSet := Tab.empty              -- hosts declared down for this outage (R116)
  width : Nat := 0                      -- HED_UATHES.WIDTH code
  rate : Nat := 0                       -- HED_UATHES.RATE code
  bme : Bool := false                   -- Bus Master Enable (R262)
  uathes : UathesSt := .standard
  agreedAt : Nat := 0
  goAt : Option Nat := none             -- elapsed time at which GO was taken
  pfamily : Nat := 0
  fallbacks : Nat := 0
  psk : Option Nat := none              -- PSK bound to `hint` (R437)
  hint : Nat := 0
  spdm : SpdmSt := .idle
  secret : Nat := 0                     -- session secret
  ideMem : IdeSt := .off
  ideIo : IdeSt := .off
  ideFails : Nat := 0
  ideOld : NSet := Tab.empty            -- streams that turned Insecure since the present session began (R438)
  keyReady : NSet := Tab.empty          -- streams (0 mem, 1 io) × key sets programmed in this session
  keys : Tab Nat := Tab.empty           -- IDE keys, by 2 × stream + key set
  keySet : Tab Nat := Tab.empty         -- active key set, by stream
  cxl : Tab Nat := Tab.empty            -- CXL component registers a host has written, the HDM decoder among them, by 64-bit word of BAR4 (R445, R451)
  deriving DecidableEq, Repr, Inhabited

/-! ### Security and start-up (R426 to R444) -/

/-- An evidence request waiting for Plinth (R436). -/
structure EvReq where
  head : Nat
  raw : Nat                             -- the 1,604 request bytes
  dropped : Bool := false               -- its head has been reset since it arrived
  deriving DecidableEq, Repr, Inhabited

/-- Plinth, its fuses and its key store. -/
structure SecSt where
  floorBits : Nat := 0                  -- blown bits of the floor counter (fuses)
  otp : NSet := Tab.empty               -- boot bits blown and verified (fuses)
  weak : NSet := Tab.empty              -- boot bits that may be half blown (fuses, R433)
  boots : Nat := 0                      -- boot bits burned, as counted in this boot (R433, R434)
  spi : Bool := false                   -- the SPI contacts are driven (R428, R429)
  boot : Nat := 0                       -- SEC_STATE.BOOT
  svn : Nat := 0
  slot : Nat := 0
  xnext : Option Nat := none            -- next signature index of this boot
  xend : Nat := 0
  meas : List Nat := [0, 0, 0, 0]
  cert : Nat := 0                       -- identity certificate as read from flash
  queue : List EvReq := []              -- evidence requests, the one being served first
  ctxKeys : Tab Nat := Tab.empty        -- context keys, by 16 × context + head (R440)
  sealCtr : Tab Nat := Tab.empty        -- IV counters under those keys (R441)
  strapHead : Nat := 0                  -- CTRL_HEAD strap as sampled
  straps : Nat := 0
  resetAt : Nat := 0                    -- elapsed time of RESET_N deassertion
  running : Bool := false               -- RESET_N deasserted and start-up begun
  loaded : Bool := false                -- an image has been accepted and loaded (step 4)
  fw : Bool := false                    -- CTL_BOOT.FW
  fwAt : Nat := 0                       -- elapsed time of step 6
  mortar : Bool := false                -- Mortar trained
  trained : Bool := false
  active : Bool := false
  scrubbed : Bool := false
  pkgFault : Bool := false              -- R20
  l2Nonce : Option Nat := none
  l2Result : Nat := 0
  l2Scope : Nat := 0
  l2Open : Bool := false
  l2Req : Option Nat := none            -- line of the token being verified
  deriving DecidableEq, Repr, Inhabited

/-! ### Set-up registers (R453 to R461) -/

/-- The commit domains of R454. -/
inductive Dom where
  | ctl | adr | cmp | coh | med | rng | eng | grp | idx | tim | pwr | obs | sec
  | hed (h : Nat)
  deriving DecidableEq, Repr, Inhabited

/-- The reasons of R459. -/
inductive Reason where
  | accepted | zero | encoding | range | overlap | state | composition | quota | acl | parity | dcap | version | busy
  deriving DecidableEq, Repr, Inhabited

/-- A commit that has landed and waits in the engine: its domain and the staged frame it captured (R455). -/
structure Frame where
  dom : Dom
  sel : Nat                             -- value of the domain's selector
  words : Tab Word                      -- staged words that differ from the reset value
  deriving DecidableEq, Repr, Inhabited

/-- A domain's status register (R458). -/
structure DomStatus where
  done : Nat := 0
  whereOff : Nat := 0
  reason : Reason := .accepted
  deriving DecidableEq, Repr, Inhabited

/-- The set-up registers of BAR0. Words are keyed by their BAR0 offset. -/
structure RegSt where
  staged : Tab Word := Tab.empty
  committed : Tab Word := Tab.empty
  imm : Tab Word := Tab.empty           -- RWI registers: selectors, pointers, COH_PROBE, OBS_L2_SEL
  queue : List Frame := []
  status : Tab DomStatus := Tab.empty   -- by the domain's commit offset
  setupSrc : Nat := 0                   -- CTL_SETUP_SRC.HEADS
  probeLine : Nat := 0                  -- line of the last COH_PROBE
  probeResult : Nat := 0                -- COH_PROBE_RESULT, 128 bits
  probeAt : Nat := 0                    -- elapsed time at which it becomes valid
  deriving DecidableEq, Repr, Inhabited

end Sys2Proof.Machine
end

