-- ==== Sys2Proof/Machine/TypesRing.lean ====
section
/-! DEFINITION. The state of Felo rings, commands, events, MSI-X vectors and waits (chapter 7 of the manual). -/

namespace Sys2Proof.Machine

/-- The states of a ring pair, as coded in RNG_STATE (R154, R157). -/
inductive RingState where
  | free | zeroing | active | error | destroying
  deriving DecidableEq, Repr, Inhabited

/-- A ring pair (R152 to R163). `ctx` and the regions are the committed window. -/
structure Ring where
  state : RingState := .free
  reason : Nat := 0                     -- R159
  version : Nat := 0
  sqEntries : Nat := 0
  sqBase : Nat := 0                     -- DPA[42:12]
  cqEntries : Nat := 0
  cqBase : Nat := 0
  doorbell : Nat := 0                   -- DPA[42:6]
  status : Nat := 0                     -- DPA[42:6]
  ctrCount : Nat := 0
  ctrBase : Nat := 0
  comp : Nat := 0
  intEn : Bool := false
  intHead : Nat := 0
  intVec : Nat := 0
  waitExp : Nat := 20
  verMask : Nat := 0
  ctx : Nat := 0
  sqHead : Nat := 0                     -- slots fetched, modulo 2^32
  sqTail : Nat := 0                     -- as last read from the doorbell line
  cqTail : Nat := 0                     -- records written, modulo 2^32
  cqHead : Nat := 0                     -- as last read from the doorbell line
  woken : Bool := false                 -- a write landed on the doorbell line (R161)
  aborted : Nat := 0                    -- commands aborted by DESTROY (R158)
  chainHead : Bool := false             -- the descriptor before the next one had CHAIN = 1
  chainFail : Bool := false             -- and completed with neither OK nor PARTIAL (R169)
  chainWait : Option Nat := none        -- the chain predecessor whose record has not landed (R169)
  hostOut : Tab (Tab Nat) := Tab.empty  -- by head, host writes of its commands not yet flushed, counted by command (R210, R221)
  lateFail : List Nat := []             -- completed commands a write of which failed afterwards (R238)
  publishHold : Option Nat := none      -- a TABLE_PUBLISH whose end the fetcher waits for (R305)
  deriving DecidableEq, Repr, Inhabited

/-- Where a fetched command stands. -/
inductive Phase where
  | fetched                             -- not yet dispatched
  | waiting                             -- at step 10 of R168
  | share                               -- at step 11 of R168
  | running
  | ended                               -- last tile ended, or completed at dispatch
  | signalled                           -- waiting for a remote signal's completion (R180)
  deriving DecidableEq, Repr, Inhabited

/-- A segment-table entry, as copied at dispatch (R204). -/
structure Seg where
  kind : Nat                            -- 0 unused, 1 LOCAL, 2 FABRIC, 3 HOST, others reserved
  vbase : Nat
  len : Nat                             -- 4 KiB pages
  tbase : Nat
  port : Nat
  head : Nat
  wr : Bool
  pin : Bool
  rc : Bool
  pg : Nat
  ok : Bool := true                     -- its kind, pin, target and head were in order when it was copied (R205)
  deriving DecidableEq, Repr, Inhabited

/-- A remote line a command has read: the status and data of its answer, and the time stamp at which it came (R84, R85, R174). -/
structure Fetched where
  status : Nat := 0
  data : Nat := 0
  time : Nat := 0
  deriving DecidableEq, Repr, Inhabited

/-- Bytes a command writes through one operand: equal rows at a stride, from a resolved address (R218). -/
structure Span where
  off : Nat                             -- byte offset of the operand in the descriptor
  base : Nat                            -- key of the place of its first byte
  row : Nat                             -- bytes of a row
  stride : Nat := 0
  rows : Nat := 1
  deriving DecidableEq, Repr, Inhabited

/-- A Felo command from its fetch to its completion record (R24, R168, R170). -/
structure Cmd where
  ring : Nat
  seq : Nat                             -- count of its first slot, modulo 2^32
  desc : Nat                            -- the descriptor, little-endian, its whole span
  slots : Nat                           -- slots its span occupies
  readFail : Nat := 0                   -- status of a slot that could not be read at fetch, 0 = none (R168 step 1)
  firstFail : Bool := false             -- and it was the first slot
  phase : Phase := .fetched
  status : Nat := 0
  failAt : Nat := 0                     -- time stamp of the failure its status tells of (R174)
  r0 : Nat := 0
  r1 : Nat := 0
  waitFrom : Nat := 0                   -- elapsed time at which step 10 was reached
  watched : Bool := false               -- holds a watch slot of its wait line's home Keystone (R178)
  met : Option Nat := none              -- a landing on its wait line has ended the wait: 0, or the status of the line (R177)
  waitLine : Nat := 0
  sigPort : Nat := 0                    -- port and line of the signal counter, read at step 6
  sigLine : Nat := 0
  segs : List Seg := []
  ctx : Nat := 0
  start : Nat := 0                      -- fabric time at dispatch of the first tile
  dispAt : Option Nat := none           -- elapsed time at which it began to run; none while it has not
  ended : Nat := 0                      -- fabric time of the end
  pos : Nat := 0                        -- next work item
  late : List Nat := []                 -- work items suspended by a page fault, in order (R265)
  badTiles : NSet := Tab.empty          -- rejected tiles it has logged (R259)
  total : Nat := 0                      -- work items of the command
  engNs : Nat := 0                      -- engine time charged to it, ns (R59)
  engFrom : Tab Nat := Tab.empty        -- by engine, the elapsed time up to which it is charged (R59)
  begun : NSet := Tab.empty             -- sources that took a first tile
  tiles : Tab Nat := Tab.empty          -- tiles run, by source
  tileAt : Tab Nat := Tab.empty         -- by source, the elapsed time at which its tile in progress began (R393)
  tileEnd : Tab Nat := Tab.empty        -- by source, the time stamp of its last tile's end (R406)
  marked : NSet := Tab.empty            -- sources whose CMD_END has been marked (R406)
  energy : Nat := 0                     -- nJ
  writesOut : Nat := 0                  -- remote writes without a completion
  prefetch : Tab Fetched := Tab.empty   -- remote lines read, by the key of their place
  scratch : Tab Nat := Tab.empty        -- what an opcode keeps between work items
  bound : Nat := 0                      -- table and version or index it is bound to, plus 1
  epoch : Nat := 0                      -- epoch it reads at or reserves (R342)
  group : Nat := 0                      -- group it runs in, plus 1
  stopping : Bool := false              -- stops at its next tile boundary (R192)
  stopAt : Nat := 0                     -- elapsed time at which it was told to
  hostHeads : NSet := Tab.empty         -- heads that carried host writes not yet flushed (R210)
  signalled : Bool := false             -- its signal has been applied (R170)
  busy : NSet := Tab.empty              -- sources with a tile in progress (R191)
  mid : NSet := Tab.empty               -- sources whose tile in progress has finished no work item yet (R192)
  outAt : List Span := []               -- what it writes (R218)
  dumpAt : List (Nat × Nat × Nat) := [] -- dumps reserved for it: watch, byte offset of the TREF, buffer offset (R242)
  deriving DecidableEq, Repr, Inhabited

/-- A record of the event ring before it is written (R184, R185). -/
structure EventRec where
  kind : Nat
  status : Nat
  r0 : Nat
  r1 : Nat
  time : Nat
  deriving DecidableEq, Repr, Inhabited

/-- The event ring (R183, R185). -/
structure EventSt where
  wr : Nat := 0
  rd : Nat := 0
  drop : Nat := 0
  zeroing : Bool := false               -- an enabling or moving commit waits for its zeroing
  backlog : List EventRec := []
  deriving DecidableEq, Repr, Inhabited

/-- One MSI-X vector of a head (R182): the 16-byte table entry and the pending bit. -/
structure Msix where
  addr : Nat := 0
  data : Nat := 0
  masked : Bool := true
  pend : Bool := false
  sending : Bool := false               -- a message has not yet left the Quoin (R182)
  deriving DecidableEq, Repr, Inhabited

end Sys2Proof.Machine
end

