-- ==== Sys2Proof/Machine/State.lean ====
section
/-! DEFINITION. The state of the block: everything the manual gives the controller, as plain data, the queue of waiting
commands, and the state right after reset. -/

namespace Sys2Proof.Machine

/-- What a host request is granted with its completion (R91, R105). -/
inductive Grant where
  | none | s | e
  deriving DecidableEq, Repr, Inhabited

/-- What the controller sends to the outside, in the order it sends it. -/
inductive Out where
  | memData (head tag line : Nat) (data : Line) (poison : Bool) (grant : Grant)   -- CXL.mem read response (R21)
  | cmp (head tag : Nat) (grant : Grant)                                          -- CXL.mem completion (R64, R100)
  | unsupported (head tag : Nat)                                                  -- R61
  | fwdAccepted (head tag : Nat)                                                  -- MemRdFwd or MemWrFwd accepted (R61)
  | uioData (head tag line off len : Nat) (data : Line) (poison : Bool)           -- one line of a UIO read (R62)
  | uioCpl (head tag : Nat)                                                       -- UIO completion (R62)
  | gpf (head phase : Nat)                                                        -- R67
  | release (head tag : Nat) (ok : Bool)                                          -- Release Dynamic Capacity (R52)
  | snoop (head spid line : Nat) (op : SnoopOp)                                   -- BISnp (R102)
  | conflictAck (head spid line : Nat)                                            -- BIConflictAck (R106)
  | addCapacity (head ext start len tag : Nat)                                    -- Add Capacity record (R52)
  | forcedRelease (head ext start len tag : Nat)                                  -- Forced Capacity Release record (R52)
  | mediaEvent (head dpa : Nat)                                                   -- General Media Event (R151)
  | msix (head vec : Nat)                                                         -- R182
  | peerRead (id head port addr len : Nat)                                        -- UIO read to a peer (R84)
  | peerWrite (id head port addr len data : Nat) (poison : Bool)                  -- UIO write to a peer (R84)
  | peerFlag (id head port line payload be expect seq action : Nat)               -- flagged store to a peer (R212)
  | hostRead (id head addr len : Nat)                                             -- CXL.io read of host memory (R262)
  | hostWrite (id head addr len data : Nat) (poison : Bool)                       -- CXL.io write of host memory (R219, R262)
  | mitigate (ch bank : Nat) (row : Option Nat)                                   -- RFM, or DRFM for a row, at the DRAM pins (R147)
  | refresh (ch : Nat) (bank : Option Nat)                                        -- all banks, or the same bank of each group (R146)
  | calibrate (ch : Nat)                                                          -- R149
  | ptmTime (head ns : Nat)                                                       -- PTM response (R369)
  | doe (head len raw : Nat)                                                      -- a DOE object, little-endian (R435)
  | spdm (head code : Nat) (body : List Nat)                                      -- an SPDM response (R437)
  | uathes (head op : Nat)                                                        -- Alternate Protocol answer (R446, R448)
  | altReject (head : Nat)                                                        -- PCIe rejection of a round (R446)
  | aer (head : Nat)                                                              -- AER error (R438)
  | mctp (tag : Nat) (ok : Bool) (bytes : List Nat)                               -- sideband response (R404)
  | row (sync : Nat) (lanes : List Nat)                                           -- MARK-port row, scrambled (R410, R411)
  | nonce (head value : Nat)                                                      -- OBS_L2_CHAL as read (R424)
  | memActive                                                                     -- Memory Active in every head's DVSEC (R443)
  | recovery (head : Nat)                                                         -- the Quoin directs Recovery (R448)
  | thermtrip (asserted : Bool)                                                   -- THERMTRIP_N (R398)
  | released                                                                      -- every driven contact released (R488, R398)
  deriving DecidableEq, Repr, Inhabited

/-- The machine's faults: none. Every command of the block has an effect the manual states, so no step stops. -/
inductive Fault where
  deriving DecidableEq, Repr

/-- The machine's refusals. -/
inductive Refusal where
  /-- Raised only by the dispatcher, for a command whose meaning has not been written; safe. -/
  | notModelled (mnemonic : String)
  deriving DecidableEq, Repr

/-- The whole state. -/
structure State where
  pending : List Instr := []            -- commands waiting, first in, first out (the model's own)
  out : List Out := []                  -- what has been sent, latest first (the model's own)
  fresh : Nat := 0                      -- free values drawn so far (the model's own)
  time : TimeSt := {}
  -- the store
  mem : List Host.Cell := []            -- bytes of DRAM, by DPA[42:0]; unlisted bytes read 0
  poison : NSet := Tab.empty            -- lines with the poison mark, by DPA[42:6] (R70)
  lost : NSet := Tab.empty              -- lines with the lost mark (R119)
  lineBuf : NSet := Tab.empty           -- lines a Keystone's line buffer may still hold (R11, R21)
  med : MedSt := {}
  -- extents and compositions
  exts : Tab Extent := Tab.empty
  comps : Tab Comp := Tab.empty
  -- the store path
  flags : Tab FlagSource := Tab.empty   -- by SPID
  dir : Tab DirEntry := Tab.empty       -- by line
  dirOrder : Nat := 0                   -- allocations so far (R96)
  dirFix : Nat := 0                     -- single-bit errors corrected (R113)
  trans : Tab Trans := Tab.empty        -- by line
  waitQ : Tab (List LineReq) := Tab.empty   -- requests waiting at each Keystone, in admission order (R106, R111)
  toBuf : Tab (List ToBuf) := Tab.empty     -- by 4 × Course die + Keystone
  fromBuf : Tab (List FromBuf) := Tab.empty
  bufs : Tab (Tab BufLine) := Tab.empty -- Course buffers, by die, lines by number
  uio : Tab UioWrite := Tab.empty       -- UIO writes whose completion is owed, by 65536 × head + tag
  hostDown : NSet := Tab.empty          -- hosts declared down (R116)
  lostWr : Nat := 0                     -- COH_LOST_PTR.WR
  lostRd : Nat := 0
  lostDrop : Nat := 0
  remotes : Tab Remote := Tab.empty     -- by request id
  nextId : Nat := 0
  owed : Tab (List LineReq) := Tab.empty    -- writes whose completion waits for a partner write, by request id (R136)
  mirReads : Tab LineReq := Tab.empty   -- requests that wait for the partner's copy, by request id (R137)
  mirCopy : Tab (Option Line) := Tab.empty  -- lines whose waiting requests are served now, with the partner's copy (R137)
  calHeld : Tab (List CalAnswer) := Tab.empty   -- reads that wait for a calibration, by channel (R26)
  calAcc : Tab (List CalAccess) := Tab.empty    -- other accesses that wait for one, by channel (R26)
  conflicts : List Conflict := []       -- BIConflicts not yet acknowledged, oldest first (R106)
  timedOut : Tab Remote := Tab.empty    -- requests that timed out and may still return (R84)
  remFault : NSet := Tab.empty          -- targets whose remote-fault alarm is active: a port, or 0x1000 + head (R84)
  -- rings and commands
  rings : Tab Ring := Tab.empty
  fetchLast : Tab Nat := Tab.empty      -- by Keystone, the ring whose turn was last (R164)
  cmds : Tab Cmd := Tab.empty           -- by command id
  nextCid : Nat := 0
  events : EventSt := {}
  msix : Tab Msix := Tab.empty          -- by 2048 × head + vector
  -- engines and tables
  eng : EngSt := {}
  courses : Tab CourseSt := Tab.empty   -- by Course die 0 to 15
  -- platform
  heads : Tab Head := Tab.empty
  regs : RegSt := {}
  obs : ObsSt := {}
  power : PowerSt := {}
  sec : SecSt := {}
  deriving DecidableEq, Repr, Inhabited

/-- The machine with RESET_N just asserted: every register at its reset value, nothing fetched, nothing listed in the
store. RESET_N deassertion is a command of its own (R443). -/
def State.reset : State := {}

end Sys2Proof.Machine
end

