-- ==== Sys2Proof/Machine/Regs.lean ====
section
/-! DEFINITION. The set-up registers as words: their places in BAR0, their reset values, their staged and committed copies,
and the fields of the committed copies the blocks act on (R453, R462, R466). -/

namespace Sys2Proof.Machine

/-! ### Offsets of BAR0 (R462, R466) -/

def offCtlMaster : Nat := 0x010100
def offCtlPort : Nat := 0x010108
def offCtlMortar : Nat := 0x010110
def offCtlFlagCfg : Nat := 0x010118
def offCtlFlagReset : Nat := 0x010120
def offCtlSetupSrc : Nat := 0x010128
def offCtlBoot : Nat := 0x010130
def offAdrSel : Nat := 0x020100
def offAdrRange : Nat := 0x020108
def offAdrAttr : Nat := 0x020110
def offAdrMirror : Nat := 0x020118
def offAdrTag : Nat := 0x020120
def offAdrAcl : Nat := 0x021000
def offCmpSel : Nat := 0x040100
def offCmpCtl : Nat := 0x040108
def offCmpMeter : Nat := 0x040110
def offCmpCnt : Nat := 0x040118
def offCmpMig : Nat := 0x040120
def offCmpKv : Nat := 0x040128
def offCmpQuota : Nat := 0x040140
def offCmpHosts : Nat := 0x041000
def offCohCfg : Nat := 0x060100
def offCohLostCfg : Nat := 0x060108
def offCohLostPtr : Nat := 0x060110
def offCohProbe : Nat := 0x060120
def offCohProbeResult : Nat := 0x060128
def offCohHostDown : Nat := 0x060140
def offCohLineAccept : Nat := 0x060148
def offMedPar : Nat := 0x070100
def offMedShare : Nat := 0x070108
def offMedMirCfg : Nat := 0x070110
def offMedMirState : Nat := 0x070118
def offMedMirCtl : Nat := 0x070120
def offMedRescue : Nat := 0x070128
def offMedUsed : Nat := 0x070130
def offMedRelease : Nat := 0x070138
def offMedRetire : Nat := 0x070140
def offMedRetCfg : Nat := 0x070148
def offMedDist : Nat := 0x070150
def offMedScrub : Nat := 0x070158
def offMedSpeed : Nat := 0x070160
def offMedPop : Nat := 0x070168
def offRngSel : Nat := 0x080100
def offRngSq : Nat := 0x080108
def offRngCq : Nat := 0x080110
def offRngLines : Nat := 0x080120
def offRngCtr : Nat := 0x080130
def offRngAttr : Nat := 0x080138
def offRngState : Nat := 0x080140
def offRngCap : Nat := 0x080148
def offRngEvtCfg : Nat := 0x080150
def offRngEvtPtr : Nat := 0x080160
def offCtxSel : Nat := 0x090100
def offCtx : Nat := 0x090108
def offKvPool : Nat := 0x090110
def offRowc : Nat := 0x090120
def offTblSel : Nat := 0x090200
def offTblState : Nat := 0x090210
def offGrpSel : Nat := 0x092100
def offGrp : Nat := 0x092108
def offGrpLoc : Nat := 0x092110
def offGrpGnext : Nat := 0x092118
def offGrpState : Nat := 0x092120
def offGrpProg : Nat := 0x092140
def offIdxSel : Nat := 0x093100
def offIdxGeom : Nat := 0x093108
def offIdxAttr : Nat := 0x093110
def offIdxMem : Nat := 0x093120
def offIdxState : Nat := 0x093140
def offTimCfg : Nat := 0x0A0100
def offTimOffset : Nat := 0x0A0108
def offTimNow : Nat := 0x0A0110
def offTimStatus : Nat := 0x0A0118
def offTimSched : Nat := 0x0A1000
def offTimQw : Nat := 0x0A2000
def offPwrRail : Nat := 0x0B0100
def offPwrPkg : Nat := 0x0B0200
def offPwrDroop : Nat := 0x0B0208
def offPwrTherm : Nat := 0x0B0210
def offPwrTrip : Nat := 0x0B0218
def offPwrState : Nat := 0x0B0220
def offTraceCfg : Nat := 0x0C0100
def offTraceRearm : Nat := 0x0C0108
def offPinSample : Nat := 0x0C0110
def offTraceStat : Nat := 0x0C0140
def offLogCfg : Nat := 0x0C0200
def offLogPtr : Nat := 0x0C0210
def offAlmCfg : Nat := 0x0C0220
def offAlmPtr : Nat := 0x0C0228
def offAlertMask : Nat := 0x0C0240
def offAlarmAck : Nat := 0x0C0260
def offL2Chal : Nat := 0x0C0300
def offL2Unlock : Nat := 0x0C0320
def offL2State : Nat := 0x0C0328
def offL2Sel : Nat := 0x0C0330
def offSecPolicy : Nat := 0x0D0100
def offSecFloor : Nat := 0x0D0108
def offSecState : Nat := 0x0D0110
def offSecMeas : Nat := 0x0D0200
def offHed (h : Nat) : Nat := 0x0E0000 + h * 0x1000

/-! ### Reset values -/

/-- One rail's limits, I1M, I64 and I8, in 0.1 A (R386). -/
def railReset (i8 i64 i1m : Nat) : Nat := i1m <<< 32 + i64 <<< 16 + i8

/-- The reset limits of rail `n` (R386). -/
def railLimits (n : Nat) : Nat :=
  if n < 16 then railReset 400 360 330
  else match n with
    | 16 => railReset 2800 2500 2300
    | 17 => railReset 1800 1700 1600
    | 18 => railReset 900 850 800
    | 19 => railReset 340 320 300
    | 20 => railReset 1350 1280 1200
    | 21 => railReset 400 380 350
    | 22 => railReset 120 110 100
    | _ => railReset 60 55 50

/-- High word of TIM_SCHED[n] at reset: PERIOD 1, UNITS all ones, ACT n + 1 for n ≤ 5 (R373). -/
def schedHighReset (n : Nat) : Nat := put 1 55 48 + put 0xFFFF 47 32 + (if n ≤ 5 then n + 1 else 0)

/-- The reset value of the BAR0 word at `off`. CTL_MASTER takes the strap at RESET_N deassertion (R186). -/
def regReset (off : Nat) : Word :=
  BitVec.ofNat 64 <|
    if off = offCtlMortar then 0x268
    else if off = offCtlFlagCfg then 0x1514
    else if off = offAdrAttr then 0x80
    else if off = offCohCfg then 0x32_0000_1600
    else if off = offMedMirCfg then 0x10064
    else if off = offMedRetCfg then 256
    else if off = offMedDist then 2048
    else if off = offMedScrub then 24
    else if off = offMedSpeed then 4
    else if off = offRngAttr then put 20 37 32
    else if off = offRowc then 0x4001
    else if off = offTimCfg then put 100 39 32 + put 64 31 16 + 0x100
    else if offTimSched ≤ off ∧ off < offTimSched + 4096 then
      (if off % 16 = 0 then 0xFFFF_FFFF_FFFF_FFFF else schedHighReset ((off - offTimSched) / 16))
    else if offPwrRail ≤ off ∧ off < offPwrRail + 192 then railLimits ((off - offPwrRail) / 8)
    else if off = offPwrPkg then 1000
    else if off = offPwrDroop then put 32 25 16 + 50
    else if off = offPwrTherm then 100
    else if off = offTraceCfg then 0x1F02
    else if off = offLogCfg then put 1 63 61
    else if offAlertMask ≤ off ∧ off < offAlertMask + 32 then 0xFFFF_FFFF_FFFF_FFFF
    else if off = offSecPolicy then 0xFFF
    else 0

/-- The staged copy of a word (R453). -/
def RegSt.stagedAt (r : RegSt) (off : Nat) : Word := r.staged.getD off (regReset off)

/-- The committed copy of a word (R453). -/
def RegSt.committedAt (r : RegSt) (off : Nat) : Word := r.committed.getD off (regReset off)

/-- A committed word, as a number. -/
def State.cfg (s : State) (off : Nat) : Nat := (s.regs.committedAt off).toNat

/-- A field of a committed word. -/
def State.cfgF (s : State) (off hi lo : Nat) : Nat := fld (s.cfg off) hi lo

/-- A word of the RWI registers. -/
def State.immAt (s : State) (off : Nat) : Nat := (s.regs.imm.getD off 0).toNat

/-- A staged word in a captured frame (R455). -/
def Frame.word (f : Frame) (off : Nat) : Nat := (f.words.getD off (regReset off)).toNat

/-- A field of a staged word in a captured frame. -/
def Frame.fld (f : Frame) (off hi lo : Nat) : Nat := Machine.fld (f.word off) hi lo

/-! ### Committed fields the blocks act on -/

/-- Own port ID (R35, R463). -/
def State.port (s : State) : Nat := s.cfgF offCtlPort 11 0

/-- The control head (R186). -/
def State.ctrlHead (s : State) : Nat := s.cfgF offCtlMaster 3 0

/-- FLAG_WAIT in ns (R83). -/
def State.flagWait (s : State) : Nat := 2 ^ s.cfgF offCtlFlagCfg 4 0

/-- REMOTE_TIMEOUT in ns (R83). -/
def State.remoteTimeout (s : State) : Nat := 2 ^ s.cfgF offCtlFlagCfg 12 8

/-- BI_TIMEOUT in ns (R121). -/
def State.biTimeout (s : State) : Nat := 2 ^ s.cfgF offCohCfg 12 8

/-- HEAD_DOWN_GRACE in ms (R121). -/
def State.graceMs (s : State) : Nat := s.cfgF offCohCfg 47 32

/-- The lowest-numbered head whose committed, enabled HED_ROUTE covers port `q` (R468). -/
def State.route (s : State) (q : Nat) : Option Nat :=
  (List.range 12).find? (fun h => (List.range 8).any (fun i =>
    let w := s.cfg (offHed h + 0x140 + 8 * (i / 2))
    let r := if i % 2 = 0 then fld w 31 0 else fld w 63 32
    bit r 31 && decide (fld r 11 0 ≤ q) && decide (q ≤ fld r 27 16)))

end Sys2Proof.Machine
end

