-- ==== Sys2Proof/Machine/Ops.lean ====
section
/-! DEFINITION. The named operations every family shares: memory bytes and lines, free values, outputs, stamps, counters,
log production, alarm occurrences, marks and MSI-X. -/

namespace Sys2Proof.Machine

/-! ### Bytes of the store -/

/-- The `n` bytes from address `a`, little-endian; a byte that is not listed reads 0. -/
def readMem (m : List Host.Cell) (a n : Nat) : Nat :=
  m.foldl (fun acc c => if a ≤ c.1 && c.1 < a + n then acc + c.2.toNat <<< (8 * (c.1 - a)) else acc) 0

/-- The cells of the bytes `bs` from address `a` that do not read as an unlisted byte does. -/
def cellsOf : Nat → List Nat → List Host.Cell
  | _, [] => []
  | a, b :: bs => if b % 256 = 0 then cellsOf (a + 1) bs else (a, BitVec.ofNat 8 b) :: cellsOf (a + 1) bs

/-- Write the bytes `bs` from address `a`, keeping the canonical form. -/
def writeMem (m : List Host.Cell) (a : Nat) (bs : List Nat) : List Host.Cell :=
  m.filter (fun c => c.1 < a) ++ cellsOf a bs ++ m.filter (fun c => a + bs.length ≤ c.1)

/-- Make every byte from `a` to `b - 1` read 0. -/
def zeroMem (m : List Host.Cell) (a b : Nat) : List Host.Cell := m.filter (fun c => c.1 < a || b ≤ c.1)

/-- The bytes of a line. -/
def lineBytes (d : Line) : List Nat := bytesOf 64 d.toNat

/-- The mask of the bytes enabled by `be`, 8 bits for each. -/
def beMask (be : ByteEn) : Line :=
  BitVec.ofNat 512 ((List.range 64).foldl (fun a i => if be.getLsbD i then a + 0xFF <<< (8 * i) else a) 0)

/-- `old` with the bytes enabled by `be` replaced from `new` (R68). -/
def mergeLine (old new : Line) (be : ByteEn) : Line :=
  let m := beMask be
  (old &&& ~~~m) ||| (new &&& m)

/-- All 64 byte enables. -/
def beAll : ByteEn := BitVec.allOnes 64

/-- The byte enables of `n` bytes from byte `off`. -/
def beRange (off n : Nat) : ByteEn := BitVec.ofNat 64 ((2 ^ n - 1) <<< off)

namespace State

/-- The bytes of a line as DRAM holds them, whatever marks it carries. -/
def rawLine (s : State) (ln : Nat) : Line := BitVec.ofNat 512 (readMem s.mem (64 * ln) 64)

/-- Put the bytes of a line into DRAM. -/
def putLine (s : State) (ln : Nat) (d : Line) : State := { s with mem := writeMem s.mem (64 * ln) (lineBytes d) }

/-- Send something out. -/
def emit (s : State) (o : Out) : State := { s with out := o :: s.out }

/-- Draw a free value. -/
def draw (s : State) : Nat × State := (Config.free s.fresh, { s with fresh := s.fresh + 1 })

/-- The full-width time stamp: counter bits [62:0] with UNSYNC in bit 63 (R361). -/
def stamp (s : State) : Nat := s.time.counter % 2 ^ 63 + (if s.time.unsync then 2 ^ 63 else 0)

/-- Bits [39:0] of the fabric-time counter (R361). -/
def stamp40 (s : State) : Nat := s.time.counter % 2 ^ 40

/-- Elapsed TBCLK time in ns (R371). -/
def now (s : State) : Nat := s.time.elapsed

/-! ### Counters (R401, R402, R59) -/

end State

/-! Words of the global counters (R401); the arrays start at the word given. -/
def cEngUs : Nat := 0
def cChRd : Nat := 16
def cChWr : Nat := 48
def cChCe : Nat := 80
def cChUe : Nat := 112
def cHeadErr : Nat := 144
def cDieUj : Nat := 192
def cOvhUj : Nat := 232
def cFlagLog : Nat := 233
def cFlagApplied : Nat := 244
def cDropIdx : Nat := 245
def cStaleEdge : Nat := 246
def cDroopEv : Nat := 247
def cDroopCyc : Nat := 263
def cScrubMibms : Nat := 279
def cMarksOut : Nat := 280
def cMarksDropped : Nat := 281
def cLogWritten : Nat := 282
def cLogDropped : Nat := 283
def cLateCpl : Nat := 284
def cMsixDiscard : Nat := 285
def cAbortIgnored : Nat := 286
def cSnoopNeedless : Nat := 287

/-! Words of a composition's counter page (R402). -/
def pLinesRd : Nat := 2
def pLinesWr : Nat := 3
def pCe : Nat := 4
def pUe : Nat := 5
def pFlagApplied : Nat := 6
def pFlagLog : Nat := 7
def pCmdOk : Nat := 8
def pCmdFail : Nat := 9
def pDropIdx : Nat := 10
def pStaleEdge : Nat := 11
def pMarksOut : Nat := 12
def pMarksDropped : Nat := 13

/-! Words of a composition's meter page (R59). -/
def mExt : Nat := 2
def mEng : Nat := 3
def mEnergy : Nat := 4
def mDir : Nat := 5
def mRow : Nat := 6
def mKv : Nat := 7
def mDropWr : Nat := 11
def mPoisonRd : Nat := 12
def mRevoked : Nat := 13
def mThrottle : Nat := 14
def mRefused : Nat := 15

/-- The key under which the line requests of a command are counted: its id and its composition (R393). -/
def cmdCharge (cid comp : Nat) : Nat := 512 + 256 * cid + comp

namespace State

/-- Add to a global counter, by its word number. -/
def bump (s : State) (word n : Nat) : State :=
  { s with obs := { s.obs with counters := s.obs.counters.set word (s.obs.counters.getD word 0 + n) } }

/-- Change a composition, if it exists. -/
def modComp (s : State) (c : Nat) (f : Comp → Comp) : State := { s with comps := s.comps.modify c f }

/-- Add to a composition's meter, by the word of its page (R59). -/
def bumpMeter (s : State) (c word n : Nat) : State :=
  s.modComp c (fun x => { x with meters := x.meters.set word (x.meters.getD word 0 + n) })

/-- Count a line request served by a Keystone for the energy of the interval: charged to a composition, to the overhead
(256) or to a command, by `cmdCharge` (R393). -/
def charge (s : State) (key n : Nat) : State :=
  { s with power := { s.power with reqs := s.power.reqs.set key (s.power.reqs.getD key 0 + n) } }

/-- Add to a composition's counter page, by word (R402). -/
def bumpCount (s : State) (c word n : Nat) : State :=
  s.modComp c (fun x => { x with counts := x.counts.set word (x.counts.getD word 0 + n) })

/-! ### The log (R415 to R418) -/

end State

/-- What a gap record becomes when an entry is dropped at position `pos` (R418). -/
def Gap.count1 (g : Option Gap) (pos : Nat) (e : LogEntry) : Gap :=
  match g with
  | none => { pos := pos, count := 1, first := e.time, last := e.time, minSev := e.sev, maxSev := e.sev, src := e.src }
  | some g =>
    { g with pos := min g.pos pos, count := g.count + 1, first := min g.first e.time, last := max g.last e.time,
             minSev := min g.minSev e.sev, maxSev := max g.maxSev e.sev }

/-- Two gap records merged at the earlier position (R418). -/
def Gap.merge (a b : Gap) : Gap :=
  { pos := min a.pos b.pos, count := a.count + b.count, first := min a.first b.first, last := max a.last b.last,
    minSev := min a.minSev b.minSev, maxSev := max a.maxSev b.maxSev, src := if a.first ≤ b.first then a.src else b.src }

/-- Queue an entry in a queue of `cap` entries; at most one entry gives way. Answers the queue and whether one was
dropped (R418). -/
def LogQ.push (q : LogQ) (cap : Nat) (e : LogEntry) : LogQ × Bool :=
  if q.entries.length < cap then ({ q with entries := q.entries ++ [e] }, false)
  else
    let low := q.entries.foldl (fun m x => min m x.sev) 7
    if low < e.sev then
      let i := q.entries.length - 1 - (q.entries.reverse.findIdx (fun x => x.sev == low))
      let old := nth q.entries i e
      let rest := q.entries.take i ++ q.entries.drop (i + 1)
      ({ entries := rest ++ [e], gap := some (Gap.count1 q.gap i old) }, true)
    else ({ q with gap := some (Gap.count1 q.gap q.entries.length e) }, true)

/-- Log kinds (R416). -/
def logGap : Nat := 0x01
def logExtent : Nat := 0x02
def logFlagKind : Nat := 0x03
def logMedia : Nat := 0x04
def logRetire : Nat := 0x05
def logTileCheck : Nat := 0x06
def logTimeStep : Nat := 0x07
def logCalForced : Nat := 0x08
def logPageLost : Nat := 0x09
def logBiRsp : Nat := 0x0A
def logRetireIgnored : Nat := 0x0B
def logL2 : Nat := 0x0C

namespace State

/-- Produce a log entry at a die (R417, R418). Entries below MINSEV are not produced; with the log disabled an entry
counts as dropped. -/
def logAt (s : State) (die src kind sev body : Nat) : State :=
  if sev < s.cfgF offLogCfg 63 61 then s
  else if !(bit (s.cfg offLogCfg) 52) then s.bump cLogDropped 1
  else
    let r := (s.obs.logQ.getD die {}).push 64 { time := s.stamp, src := src, kind := kind, sev := sev, body := body }
    let s := { s with obs := { s.obs with logQ := s.obs.logQ.set die r.1 } }
    if r.2 then s.bump cLogDropped 1 else s

/-! ### Alarms (R419 to R421) -/

/-- A change of an alarm's ACTIVE that a die has still to send, of the kind given, becomes `a`: what is known last is what the table
shows in the end, whichever die delivers first (R419, R421). -/
def setActives (s : State) (kind : Nat) (a : Bool) : State :=
  { s with obs := { s.obs with acc := s.obs.acc.mapV (fun k x =>
      if k % 256 = kind && x.setsActive.isSome then { x with setsActive := some a } else x) } }

/-- An occurrence of an alarm kind at a die: the die's accumulator merges it (R419). `active` is given for a condition
alarm. -/
def alarm (s : State) (die kind detail : Nat) (active : Option Bool := none) : State :=
  let s := match active with
    | some a => s.setActives kind a
    | none => s
  let key := 256 * die + kind
  let t := s.stamp
  let a := match s.obs.acc.get? key with
    | some x => { x with a := { x.a with last := t, detail := detail, count := min (x.a.count + 1) 0xFFFF_FFFF,
                                         first := if x.a.count = 0 then t else x.a.first },
                         setsActive := active.or x.setsActive }
    | none => { a := { last := t, first := t, detail := detail, count := 1 }, setsActive := active }
  { s with obs := { s.obs with acc := s.obs.acc.set key a } }

/-- A condition alarm whose condition ends, on every die: the die sends the change of ACTIVE without an occurrence (R419, R421). -/
def alarmEnd (s : State) (die kind : Nat) : State :=
  let s := s.setActives kind false
  let key := 256 * die + kind
  let a := match s.obs.acc.get? key with
    | some x => { x with setsActive := some false }
    | none => { a := { count := 0 }, setsActive := some false }
  { s with obs := { s.obs with acc := s.obs.acc.set key a } }

/-! ### Marks (R405 to R408) -/

/-- The die a source number belongs to (R2). -/
def dieOfSrc (src : Nat) : Nat :=
  if src < 1200 then 16 + src / 75
  else if src < 1212 then 4 + (src - 1200)
  else if src < 1244 then 32 + (src - 1212) / 4
  else if src < 1248 then src - 1244
  else if src < 1312 then 16 + (src - 1248) / 4
  else if src < 1344 then 16 + (src - 1312) / 2
  else if src < 1376 then 16 + (src - 1344) / 2
  else if src < 1392 then 16 + (src - 1376)
  else if src < 1424 then 16 + (src - 1392) / 2
  else 0

/-- The Keystone a mark travels to (R408). -/
def markKeystone (m : Mark) : Nat := if m.sys then dieOfSrc m.src % 4 else m.comp % 4

/-- Whether a mark kind is produced: ENABLE, and its KINDS bit (R409). PIN_SAMPLE marks are always produced (R413). -/
def markOn (s : State) (kind : Nat) : Bool :=
  let w := s.cfg offTraceCfg
  if kind = 0x20 then true
  else bit w 0 && (match kind with
    | 0x01 => bit w 8 | 0x02 => bit w 8 | 0x03 => bit w 9 | 0x08 => bit w 10 | 0x30 => bit w 11 | 0x3F => bit w 12
    | _ => true)

/-- Record a dropped mark in its source's accumulator (R408). -/
def MarkSrcDrop (m : MarkSrc) (cause t : Nat) : MarkSrc :=
  { m with loss := some (match m.loss with
      | none => { cause := cause, count := 1, first := t, last := t }
      | some l => { l with cause := l.cause ||| cause, count := min (l.count + 1) 0xFFFF_FFFF, last := t }) }

/-- Produce a mark at a source; it is queued or dropped there (R408). -/
def markAt (s : State) (time src kind comp : Nat) (sys : Bool) (payload : Nat) : State :=
  if !(s.markOn kind) then s
  else
    let q := s.obs.srcs.getD src {}
    let m : Mark := { time := time, src := src, kind := kind, comp := if sys then 0 else comp, sys := sys,
                      mseq := q.mseq, payload := payload }
    let q := { q with mseq := (q.mseq + 1) % 65536 }
    let k := markKeystone m
    let frozen := ((s.obs.trace[k]?).map (·.frozen)).getD false
    let c := s.comps.getD comp {}
    let spent := !sys && !(kind == 0x30) && !(kind == 0x3F) && decide (nth c.quota 5 0 ≤ c.marksUsed)
    let cause := if spent then 1 else if kind == 0x20 then 0 else if q.queue.length ≥ 16 then 2 else if frozen then 4 else 0
    let q := if cause = 0 then { q with queue := q.queue ++ [m] } else MarkSrcDrop q cause s.stamp
    let s := { s with obs := { s.obs with srcs := s.obs.srcs.set src q } }
    if cause = 0 then (if sys || kind == 0x30 || kind == 0x3F then s else s.modComp comp (fun x => { x with marksUsed := x.marksUsed + 1 }))
    else if sys then s.bump cMarksDropped 1
    else (s.bump cMarksDropped 1).bumpCount comp pMarksDropped 1

/-- Produce a mark of what happens now. -/
def mark (s : State) (src kind comp : Nat) (sys : Bool) (payload : Nat) : State := s.markAt s.stamp src kind comp sys payload

/-! ### MSI-X (R182) -/

/-- Send, hold or discard a vector's message. One that is sent leaves the Quoin at the next edge of TBCLK; another for its vector
merges into it meanwhile (R182). -/
def sendMsix (s : State) (head vec : Nat) : State :=
  let key := 2048 * head + vec
  let v := s.msix.getD key {}
  if v.masked then { s with msix := s.msix.set key { v with pend := true } }
  else if !(s.heads.getD head {}).up then s.bump cMsixDiscard 1
  else { s with msix := s.msix.set key { v with sending := true } }

/-- One vector's message leaves its Quoin, or is discarded where its head's link is down (R182). -/
def msixLeaves (s : State) (key : Nat) : State :=
  let v := s.msix.getD key {}
  if !v.sending then s
  else
    let s := { s with msix := s.msix.set key { v with sending := false } }
    if (s.heads.getD (key / 2048) {}).up then s.emit (.msix (key / 2048) (key % 2048)) else s.bump cMsixDiscard 1

/-- Every message that waits in a Quoin leaves it (R182). -/
def msixOut (s : State) : State := s.msix.keys.foldl msixLeaves s

end State

end Sys2Proof.Machine
end

