-- ==== Sys2Proof/Machine/Fp.lean ====
section
/-! DEFINITION. Number formats: exact values, decoding, rounding, MX blocks, and rows of elements packed as they stand in
memory (R193 to R200, R216, R217). Values are exact rationals; free draws are numbered readings of `Config.free`. -/

namespace Sys2Proof.Machine

/-- A decoded value. `num` carries the sign of a zero apart. -/
inductive Val where
  | nan
  | inf (neg : Bool)
  | num (q : Rat) (negZero : Bool)
  deriving DecidableEq, Repr, Inhabited

/-- A finite value; a zero is +0. -/
def Val.of (q : Rat) : Val := .num q false

/-- Two to an integer power. -/
def pow2 (k : Int) : Rat := if 0 ≤ k then ((2 ^ k.toNat : Nat) : Rat) else 1 / ((2 ^ (-k).toNat : Nat) : Rat)

/-- The magnitude of a rational. -/
def rabs (q : Rat) : Rat := if q < 0 then -q else q

/-- Exponent of the leading power of two of a positive rational. -/
def ilog2 (q : Rat) : Int :=
  let e : Int := (Nat.log2 q.num.natAbs : Int) - (Nat.log2 q.den : Int)
  if q < pow2 e then e - 1 else e

/-- Whether a value is negative, −0 included. -/
def Val.neg? : Val → Bool
  | .nan => false
  | .inf n => n
  | .num q z => decide (q < 0) || (q == 0 && z)

/-- Round a magnitude to a whole number: 0 nearest even, 1 stochastic with the 16 bits `r`, otherwise toward zero
(R199, R200). -/
def roundNat (rnd r : Nat) (y : Rat) : Nat :=
  let f := (Rat.floor y).toNat
  if rnd = 1 then ((Rat.floor (y * 65536)).toNat + r % 65536) / 65536
  else if rnd = 0 then
    let d := y - ((f : Nat) : Rat)
    if d < 1 / 2 then f else if 1 / 2 < d then f + 1 else f + f % 2
  else f

/-- A binary floating-point format: explicit mantissa bits, exponent bits, and whether its top exponent is special:
0 no, 1 infinities and NaNs, 2 one NaN code. -/
structure Bin where
  m : Nat
  eb : Nat
  top : Nat
  deriving DecidableEq, Repr, Inhabited

/-- Smallest normal exponent. -/
def Bin.emin (b : Bin) : Int := 2 - (2 ^ (b.eb - 1) : Nat)

/-- Largest finite magnitude (R194). -/
def Bin.maxMag (b : Bin) : Rat :=
  let frac : Nat := if b.top = 2 then 2 ^ (b.m + 1) - 2 else 2 ^ (b.m + 1) - 1
  let emax : Int := if b.top = 1 then (2 ^ (b.eb - 1) : Nat) - 1 else (2 ^ (b.eb - 1) : Nat)
  ((frac : Nat) : Rat) * pow2 (emax - b.m)

/-- Spacing of a format at a magnitude. -/
def Bin.step (b : Bin) (q : Rat) : Rat := pow2 ((if q = 0 then b.emin else max (ilog2 q) b.emin) - b.m)

def fp32 : Bin := ⟨23, 8, 1⟩
def bf16 : Bin := ⟨7, 8, 1⟩
def fp16 : Bin := ⟨10, 5, 1⟩
def e4m3 : Bin := ⟨3, 4, 2⟩
def e5m2 : Bin := ⟨2, 5, 1⟩
def e2m3 : Bin := ⟨3, 2, 0⟩
def e3m2 : Bin := ⟨2, 3, 0⟩
def e2m1 : Bin := ⟨1, 2, 0⟩

/-- Total bits of a code. -/
def Bin.bits (b : Bin) : Nat := 1 + b.eb + b.m

/-- Decode a code (R193, R194). -/
def Bin.decode (b : Bin) (c : Nat) : Val :=
  let man := c % 2 ^ b.m
  let ex := c / 2 ^ b.m % 2 ^ b.eb
  let neg := bit c (b.m + b.eb)
  let top := 2 ^ b.eb - 1
  if ex = top ∧ b.top = 1 then (if man = 0 then .inf neg else .nan)
  else if ex = top ∧ b.top = 2 ∧ man = 2 ^ b.m - 1 then .nan
  else
    let q : Rat := if ex = 0 then ((man : Nat) : Rat) * pow2 (b.emin - b.m)
      else (((2 ^ b.m + man : Nat)) : Rat) * pow2 ((ex : Int) - 1 + b.emin - b.m)
    .num (if neg then -q else q) (neg && q == 0)

/-- Round a magnitude to the format's grid, with no upper limit. -/
def Bin.quant (b : Bin) (rnd r : Nat) (q : Rat) : Rat :=
  if q = 0 then 0
  else
    let st := b.step q
    ((roundNat rnd r (q / st) : Nat) : Rat) * st

/-- The code of a magnitude on the format's grid, within its range. -/
def Bin.code (b : Bin) (neg : Bool) (q : Rat) : Nat :=
  let s := if neg then 2 ^ (b.m + b.eb) else 0
  if q = 0 then s
  else if q < pow2 b.emin then s + (Rat.floor (q / pow2 (b.emin - b.m))).toNat
  else
    let e := ilog2 q
    s + (e - b.emin + 1).toNat * 2 ^ b.m + ((Rat.floor (q / pow2 (e - b.m))).toNat - 2 ^ b.m)

/-- Round to FP32, to nearest even, as a value (R198). -/
def toFp32 : Val → Val
  | .num q z =>
    let a := fp32.quant 0 0 (rabs q)
    if fp32.maxMag < a then .inf (decide (q < 0)) else .num (if q < 0 then -a else a) (z || (decide (q < 0) && a == 0))
  | v => v

/-- The FP32 value of 32 bits. -/
def ofFp32 (c : Nat) : Val := fp32.decode (c % 2 ^ 32)

/-- One converted element: its code, and whether it is NaN, infinite or saturated (R199, R221). -/
structure Conv where
  code : Nat
  special : Bool
  deriving DecidableEq, Repr, Inhabited

/-- Convert into FP32, BF16 or FP16 (R199). The payload of a NaN is left open: it is taken from the draw. -/
def convBin (b : Bin) (rnd : Nat) (sat : Bool) (r : Nat) : Val → Conv
  | .nan => ⟨(r / 65536 % 2) * 2 ^ (b.m + b.eb) + (2 ^ b.eb - 1) * 2 ^ b.m + 1 + r / 131072 % (2 ^ b.m - 1), true⟩
  | .inf neg => if sat then ⟨b.code neg b.maxMag, true⟩ else ⟨(if neg then 2 ^ (b.m + b.eb) else 0) + (2 ^ b.eb - 1) * 2 ^ b.m, true⟩
  | .num q z =>
    let a := b.quant rnd r (rabs q)
    let neg := decide (q < 0) || z
    if b.maxMag < a then
      (if sat then ⟨b.code neg b.maxMag, true⟩ else ⟨(if neg then 2 ^ (b.m + b.eb) else 0) + (2 ^ b.eb - 1) * 2 ^ b.m, true⟩)
    else ⟨b.code neg a, false⟩

/-- Convert into an integer from `lo` to `hi` of `w` bits (R199). -/
def convInt (w : Nat) (lo hi : Int) (rnd r : Nat) : Val → Conv
  | .nan => ⟨0, true⟩
  | .inf neg => ⟨ofInt w (if neg then lo else hi), true⟩
  | .num q _ =>
    let a : Int := roundNat rnd r (rabs q)
    let i := if q < 0 then -a else a
    if i < lo then ⟨ofInt w lo, true⟩ else if hi < i then ⟨ofInt w hi, true⟩ else ⟨ofInt w i, false⟩

/-! ### Formats by their code (R193) -/

/-- Whether a format code is an MX format. -/
def isMx (f : Nat) : Bool := decide (3 ≤ f) && decide (f ≤ 8)

/-- Whether a format code is an integer format. -/
def isIntFmt (f : Nat) : Bool := decide (9 ≤ f) && decide (f ≤ 11)

/-- Whether a format code is listed. -/
def fmtOk (f : Nat) : Bool := decide (f ≤ 11)

/-- Bits of one element, without the shared scale. -/
def elemBits (f : Nat) : Nat := match f with
  | 0 => 32 | 1 => 16 | 2 => 16 | 3 => 8 | 4 => 8 | 5 => 6 | 6 => 6 | 7 => 4 | 8 => 8 | 9 => 8 | 10 => 32 | _ => 8

/-- The element format of an MX format; MXINT8 has none. -/
def mxBin (f : Nat) : Bin := match f with
  | 3 => e4m3 | 4 => e5m2 | 5 => e2m3 | 6 => e3m2 | _ => e2m1

/-- Bytes of a row of `cols` elements in plain form (R216). -/
def rowBytes (f cols : Nat) : Nat :=
  if isMx f then (32 * elemBits f + 8) / 8 * (cols / 32) else elemBits f / 8 * cols

/-- Alignment of addresses and strides (R216). -/
def fmtAlign (f : Nat) : Nat := match f with
  | 0 => 4 | 10 => 4 | 1 => 2 | 2 => 2 | _ => 1

/-- Decode one element of an MX block, without its scale. -/
def mxElem (f c : Nat) : Val :=
  if f = 8 then .of ((sext 8 c : Rat) / 64) else (mxBin f).decode c

/-- Scale a decoded element by the block scale (R194). -/
def scaleVal (scale : Nat) : Val → Val
  | .num q z => .num (q * pow2 ((scale : Int) - 127)) z
  | v => v

/-- The 32 values of an MX block of `32 × bits + 8` bits (R194). -/
def mxDecode (f blk : Nat) : List Val :=
  let w := elemBits f
  let scale := fld blk (32 * w + 7) (32 * w)
  (List.range 32).map (fun i => if scale = 255 then Val.nan else scaleVal scale (mxElem f (fld blk (w * i + w - 1) (w * i))))

/-- Largest element magnitude L (R194). -/
def mxMax (f : Nat) : Rat := if f = 8 then 127 / 64 else (mxBin f).maxMag

/-- Round a scaled magnitude to an element value (R195). -/
def mxQuant (f rnd r : Nat) (q : Rat) : Rat :=
  if f = 8 then ((roundNat rnd r (q * 64) : Nat) : Rat) / 64 else (mxBin f).quant rnd r q

/-- The element code of a signed element value. -/
def mxCode (f : Nat) (neg : Bool) (a : Rat) : Nat :=
  if f = 8 then
    let i : Int := Rat.floor (a * 64)
    ofInt 8 (if neg then -i else i)
  else (mxBin f).code neg a

/-- The scale exponent of a block whose largest magnitude is `mx` (R195). -/
def mxScale (f : Nat) (mx : Rat) : Int :=
  let x0 : Int := ilog2 mx - ilog2 (mxMax f) - 1
  let fits (x : Int) : Bool := decide (mxQuant f 0 0 (mx * pow2 (-x)) ≤ mxMax f)
  let x := if fits x0 then x0 else if fits (x0 + 1) then x0 + 1 else x0 + 2
  max (-127) (min 127 x)

/-- Encode 32 values as one MX block; `n` numbers its draws. Answers the block's bits and which elements are NaN, infinite
or saturated (R195, R196). -/
def mxEncode (f rnd n : Nat) (vs : List Val) : Nat × List Bool :=
  let w := elemBits f
  if vs.any (fun v => match v with | .num _ _ => false | _ => true) then (255 <<< (32 * w), vs.map (fun _ => true))
  else
    let mags := vs.map (fun v => match v with | .num q _ => rabs q | _ => 0)
    let mx := mags.foldl max 0
    if mx = 0 then (0, vs.map (fun _ => false))
    else
      let x := mxScale f mx
      let one (i : Nat) (v : Val) : Nat × Bool := match v with
        | .num q z =>
          let a := mxQuant f rnd (Config.free (n + i)) (rabs q * pow2 (-x))
          let sat := decide (mxMax f < a)
          (mxCode f (decide (q < 0) || z) (if sat then mxMax f else a), sat)
        | _ => (0, true)
      let cs := vs.mapIdx one
      (cs.foldr (fun c acc => acc <<< w + c.1) 0 + (x + 127).toNat <<< (32 * w), cs.map (·.2))

/-- Convert one value into a scalar format (R199). -/
def convScalar (f rnd : Nat) (sat : Bool) (r : Nat) (v : Val) : Conv := match f with
  | 0 => convBin fp32 rnd sat r v
  | 1 => convBin bf16 rnd sat r v
  | 2 => convBin fp16 rnd sat r v
  | 9 => convInt 8 (-128) 127 rnd r v
  | 10 => convInt 32 (-2147483648) 2147483647 rnd r v
  | _ => convInt 8 0 255 rnd r v

/-- Decode one scalar element. -/
def scalarVal (f c : Nat) : Val := match f with
  | 0 => fp32.decode c
  | 1 => bf16.decode c
  | 2 => fp16.decode c
  | 9 => .of (sext 8 c)
  | 10 => .of (sext 32 c)
  | _ => .of (c : Nat)

/-- A row converted into a format: its packed bits, and which elements are NaN, infinite or saturated. It takes one draw
for each element. -/
structure Packed where
  bits : Nat
  special : List Bool
  deriving DecidableEq, Repr, Inhabited

/-- Pieces of `k` elements of a list; `fuel` bounds their number. -/
def chunks {α : Type} (k : Nat) : Nat → List α → List (List α)
  | 0, _ => []
  | fuel + 1, l => if l.isEmpty then [] else l.take k :: chunks k fuel (l.drop k)

/-- Concatenate bit strings of `w` bits, the first lowest. -/
def catBits (w : Nat) (l : List Nat) : Nat := l.foldr (fun c acc => acc <<< w + c) 0

/-- Convert a row of values (R195, R199, R216). -/
def packRow (f rnd : Nat) (sat : Bool) (n : Nat) (vs : List Val) : Packed :=
  if isMx f then
    let bs := (chunks 32 vs.length vs).mapIdx (fun i g => mxEncode f rnd (n + 32 * i) g)
    ⟨catBits (32 * elemBits f + 8) (bs.map (·.1)), (bs.map (·.2)).flatten⟩
  else
    let cs := vs.mapIdx (fun i v => convScalar f rnd sat (Config.free (n + i)) v)
    ⟨catBits (elemBits f) (cs.map (·.code)), cs.map (·.special)⟩

/-- Decode a row of `cols` elements from its packed bits. -/
def unpackRow (f cols bits : Nat) : List Val :=
  if isMx f then
    let w := 32 * elemBits f + 8
    ((List.range (cols / 32)).map (fun i => mxDecode f (fld bits (w * i + w - 1) (w * i)))).flatten
  else
    let w := elemBits f
    (List.range cols).map (fun i => scalarVal f (fld bits (w * i + w - 1) (w * i)))

/-- A decoded element as the vector unit takes it: rounded to FP32, beyond its range infinite (R217). -/
def vecVal (v : Val) : Val := toFp32 v

/-- Whether two finite or special values are the same number; NaN matches NaN. -/
def sameVal : Val → Val → Bool
  | .nan, .nan => true
  | .inf a, .inf b => a == b
  | .num a _, .num b _ => a == b
  | _, _ => false

/-- An FP32 result that the manual only bounds: the drawn number when it lies within the bound of the exact value, the
exact value correctly rounded otherwise (R201, R202). -/
def bounded (n : Nat) (exact bound : Rat) : Val :=
  match ofFp32 (Config.free n) with
  | .num q z => if rabs (q - exact) ≤ bound then .num q z else toFp32 (.of exact)
  | _ => toFp32 (.of exact)

/-- An FP32 result of which the manual states nothing: any number the format holds. -/
def anyVal (n : Nat) : Val := ofFp32 (Config.free n)

/-- Spacing of FP32 at a value. -/
def step32 (q : Rat) : Rat := fp32.step (rabs q)

end Sys2Proof.Machine
end

