-- ==== Sys2Proof/Machine/Approx.lean ====
section
/-! DEFINITION. Exponentials, logarithms, roots, circular and error functions to far more bits than any bound of the manual
needs, as fixed-point series with 256 fraction bits (R202, R231 to R237). -/

namespace Sys2Proof.Machine

/-- Fraction bits of the series. -/
def fxBits : Nat := 256

/-- A rational as fixed point. -/
def toFx (q : Rat) : Int := Rat.floor (q * ((2 ^ fxBits : Nat) : Rat))

/-- Fixed point as a rational. -/
def ofFx (i : Int) : Rat := (i : Rat) / ((2 ^ fxBits : Nat) : Rat)

/-- Product in fixed point. -/
def fxMul (a b : Int) : Int := a * b / (2 ^ fxBits : Nat)

/-- Quotient in fixed point. -/
def fxDiv (a b : Int) : Int := if b = 0 then 0 else a * (2 ^ fxBits : Nat) / b

/-- Sum of a power series: `term` is the current power term, `next k t` the one after it, `out k t` what it adds. -/
def series (next : Nat → Int → Int) (out : Nat → Int → Int) : Nat → Nat → Int → Int → Int
  | 0, _, _, acc => acc
  | fuel + 1, k, t, acc => series next out fuel (k + 1) (next k t) (acc + out k t)

/-- exp of a fixed-point number of magnitude below 1. -/
def expSmall (x : Int) : Int := series (fun k t => fxMul t x / (k + 1 : Nat)) (fun _ t => t) 80 0 (toFx 1) 0

/-- atanh of a fixed-point number of magnitude at most 1/2. -/
def atanhFx (z : Int) : Int := series (fun _ t => fxMul t (fxMul z z)) (fun k t => t / (2 * k + 1 : Nat)) 140 0 z 0

/-- arctan of 1 / n. -/
def atanInv (n : Nat) : Int :=
  series (fun _ t => -(t / (n * n : Nat))) (fun k t => t / (2 * k + 1 : Nat)) 140 0 (toFx (1 / (n : Nat))) 0

/-- ln 2. -/
def ln2Fx : Int := 2 * atanhFx (toFx (1 / 3))

/-- π. -/
def piFx : Int := 16 * atanInv 5 - 4 * atanInv 239

/-- eˣ; arguments beyond ±400, whose results lie far outside FP32, are taken as ±400. -/
def expR (x : Rat) : Rat :=
  let x := max (-400) (min 400 x)
  let f := toFx x
  let k := f / ln2Fx
  ofFx (expSmall (f - k * ln2Fx)) * pow2 k

/-- ln x for x above 0. -/
def lnR (x : Rat) : Rat :=
  let e := ilog2 x
  let m := x / pow2 e
  ofFx (2 * atanhFx (toFx ((m - 1) / (m + 1))) + e * ln2Fx)

/-- Newton's iteration for an integer square root from above. -/
def isqrtStep (n : Nat) : Nat → Nat → Nat
  | 0, r => r
  | fuel + 1, r =>
    let r' := (r + n / r) / 2
    if r' < r then isqrtStep n fuel r' else r

/-- Integer square root. -/
def isqrt (n : Nat) : Nat := if n = 0 then 0 else isqrtStep n 2000 (2 ^ (Nat.log2 n / 2 + 1))

/-- √x for x not below 0, to more than 250 bits. -/
def sqrtR (x : Rat) : Rat :=
  if x ≤ 0 then 0
  else
    let s : Int := 256 - ilog2 x / 2
    ((isqrt (Rat.floor (x * pow2 (2 * s))).toNat : Nat) : Rat) * pow2 (-s)

/-- sin and cos of an angle in radians. -/
def sinCos (t : Rat) : Rat × Rat :=
  let two := 2 * piFx
  let f := toFx t
  let r := f - f / two * two
  let c := series (fun k t => -(fxMul (fxMul t r) r / ((2 * k + 1) * (2 * k + 2) : Nat))) (fun _ t => t) 60 0 (toFx 1) 0
  let s := series (fun k t => -(fxMul (fxMul t r) r / ((2 * k + 2) * (2 * k + 3) : Nat))) (fun _ t => t) 60 0 r 0
  (ofFx s, ofFx c)

/-- tanh x. -/
def tanhR (x : Rat) : Rat :=
  let e := expR (2 * max (-150) (min 150 x))
  (e - 1) / (e + 1)

/-- 1 / (1 + e⁻ˣ). -/
def sigmoidR (x : Rat) : Rat := 1 / (1 + expR (-x))

/-- erf x; beyond ±7 it is taken as ±1. -/
def erfR (x : Rat) : Rat :=
  if 7 < x then 1 else if x < -7 then -1
  else
    let f := toFx x
    let s := series (fun k t => -(fxMul (fxMul t f) f / (k + 1 : Nat))) (fun k t => t / (2 * k + 1 : Nat)) 300 0 f 0
    2 * ofFx s / sqrtR (ofFx piFx)

/-- ln(1 + eˣ). -/
def softplusR (x : Rat) : Rat := if 150 < x then x else lnR (1 + expR x)

/-- GELU, tanh approximation: x/2 × (1 + tanh(√(2/π) (x + 0.044715 x³))). -/
def geluTanhR (x : Rat) : Rat :=
  if 30 < x then x else if x < -30 then 0
  else x / 2 * (1 + tanhR (sqrtR (2 / ofFx piFx) * (x + 44715 / 1000000 * x * x * x)))

/-- GELU by erf. -/
def geluErfR (x : Rat) : Rat := x / 2 * (1 + erfR (x / sqrtR 2))

/-- The bound of a built function (R202). -/
def builtBound (exact : Rat) : Rat := max (rabs exact * pow2 (-20)) (pow2 (-22))

/-- Slack that covers the finite precision of the series. -/
def slack : Rat := pow2 (-120)

end Sys2Proof.Machine
end

