-- ==== Sys2Proof/Machine/Arith.lean ====
section
/-! DEFINITION. FP32 arithmetic on decoded values: correctly rounded operations, bounded results, products, sums and the
element-wise functions (R198, R201, R202, R231 to R234). Each takes the number of a draw for what the manual leaves open: a
number it states no result for, or one it only bounds. -/

namespace Sys2Proof.Machine

/-- A rounded number whose zero has the given sign. -/
def roundZ (negZero : Bool) (q : Rat) : Val :=
  if q = 0 then .num 0 negZero else match toFp32 (.of q) with
    | .num a _ => .num a (a == 0 && decide (q < 0))
    | v => v

/-- Negation (R202: exact). -/
def fneg : Val → Val
  | .num q z => .num (-q) (q == 0 && !z)
  | .inf n => .inf (!n)
  | .nan => .nan

/-- Magnitude (R202: exact). -/
def fabs : Val → Val
  | .num q _ => .of (rabs q)
  | .inf _ => .inf false
  | .nan => .nan

/-- Sum, correctly rounded; of opposite infinities the manual states nothing. -/
def fadd (n : Nat) : Val → Val → Val
  | .nan, _ => .nan
  | _, .nan => .nan
  | .inf a, .inf b => if a == b then .inf a else anyVal n
  | .inf a, _ => .inf a
  | _, .inf b => .inf b
  | .num p a, .num q b => roundZ (p == 0 && q == 0 && a && b) (p + q)

/-- Product, correctly rounded; infinity times zero is NaN (R198). -/
def fmul : Val → Val → Val
  | .nan, _ => .nan
  | _, .nan => .nan
  | .num p a, .num q b => roundZ ((Val.num p a).neg? != (Val.num q b).neg?) (p * q)
  | x, y =>
    let zero (v : Val) : Bool := match v with | .num q _ => q == 0 | _ => false
    if zero x || zero y then .nan else .inf (x.neg? != y.neg?)

/-- Fused multiply-add, correctly rounded. -/
def ffma (n : Nat) (x y z : Val) : Val :=
  match x, y, z with
  | .num p _, .num q _, .num r c => roundZ (p * q == 0 && r == 0 && c && (x.neg? != y.neg?)) (p * q + r)
  | .num p _, .num q _, .inf c => if p * q == 0 then .inf c else .inf c
  | _, _, _ => fadd n (fmul x y) z

/-- Order of two numbers, infinities included; NaN is not ordered. -/
def vlt : Val → Val → Bool
  | .num p _, .num q _ => decide (p < q)
  | .inf true, .inf true => false
  | .inf true, .nan => false
  | .inf true, _ => true
  | .num _ _, .inf false => true
  | _, _ => false

def isNan : Val → Bool
  | .nan => true
  | _ => false

/-- Larger and smaller of two; a NaN gives NaN (R231: exact). -/
def fmax (x y : Val) : Val := if isNan x || isNan y then .nan else if vlt x y then y else x
def fmin (x y : Val) : Val := if isNan x || isNan y then .nan else if vlt y x then y else x

/-- A function of one finite number within a bound; the manual states no result of it elsewhere. -/
def funAt (n : Nat) (x : Val) (ok : Rat → Bool) (f : Rat → Rat) (bound : Rat → Rat) : Val :=
  match x with
  | .nan => .nan
  | .inf _ => anyVal n
  | .num q _ => if ok q then (let e := f q; bounded n e (bound e + slack * (rabs e + bound e))) else anyVal n

/-- Quotient within 1 step (R202, R231). -/
def fdiv (n : Nat) (x y : Val) : Val :=
  match x, y with
  | .nan, _ => .nan
  | _, .nan => .nan
  | .num p _, .num q _ => if q = 0 then anyVal n else bounded n (p / q) (step32 (p / q))
  | _, _ => anyVal n

/-- The step bounds of R231. -/
def stepBound (k : Nat) (e : Rat) : Rat := ((k : Nat) : Rat) * step32 e

/-- A function of one element, EWISE values 0 to 19 (R231). -/
def ewise1 (n func : Nat) (s t x : Val) : Val :=
  let all (_ : Rat) : Bool := true
  match func with
  | 0 => x
  | 1 => fneg x
  | 2 => fabs x
  | 3 => funAt n x (fun q => q != 0) (fun q => 1 / q) (stepBound 2)
  | 4 => (match x with
      | .num q z => if q = 0 then .num 0 z else if 0 < q then bounded n (sqrtR q) (stepBound 1 (sqrtR q) + slack * sqrtR q) else anyVal n
      | .nan => .nan
      | _ => anyVal n)
  | 5 => funAt n x (fun q => decide (0 < q)) (fun q => 1 / sqrtR q) (stepBound 2)
  | 6 => funAt n x all expR builtBound
  | 7 => funAt n x (fun q => decide (0 < q)) lnR builtBound
  | 8 => funAt n x all (fun q => expR (max (-400) (min 400 q) * ofFx ln2Fx)) (stepBound 2)
  | 9 => funAt n x (fun q => decide (0 < q)) (fun q => lnR q / ofFx ln2Fx) (stepBound 2)
  | 10 => funAt n x all tanhR builtBound
  | 11 => funAt n x all sigmoidR builtBound
  | 12 => funAt n x all (fun q => q * sigmoidR q) builtBound
  | 13 => funAt n x all geluTanhR builtBound
  | 14 => funAt n x all geluErfR builtBound
  | 15 => funAt n x all softplusR builtBound
  | 16 => fmax x (.of 0)
  | 17 => fmul x s
  | 18 => fadd n x s
  | _ => fmin (fmax x s) t

/-- SWIGLU and GEGLU: within the bound of built functions and half a step (R231). -/
def gluAt (n : Nat) (f : Rat → Rat) (x y : Val) : Val :=
  match x, y with
  | .nan, _ => .nan
  | _, .nan => .nan
  | .num p _, .num q _ =>
    let e := f p * q
    bounded n e (builtBound e + step32 e / 2 + slack * (rabs e + builtBound e))
  | _, _ => anyVal n

/-- A function of two elements, EWISE values 20 to 31 but ROPE (R231). -/
def ewise2 (n func : Nat) (s x y : Val) : Val := match func with
  | 20 => fadd n x y
  | 21 => fadd n x (fneg y)
  | 22 => fmul x y
  | 23 => fdiv n x y
  | 24 => fmax x y
  | 25 => fmin x y
  | 26 => ffma n s x y
  | 27 => gluAt n (fun q => q * sigmoidR q) x y
  | 28 => gluAt n geluTanhR x y
  | 30 => if vlt y x then .of 1 else .of 0
  | _ => (match y with | .num q _ => if q = 0 then s else x | _ => x)

/-- The angle of pair `i` of a row of `cols` at position `p`: p × S^(−2i / COLS); nothing is stated for a base that is not above 0
(R232). -/
def ropeAngle (p : Rat) (base : Val) (cols i : Nat) : Option Rat := match base with
  | .num b _ => if b ≤ 0 then none else some (p * expR (-(((2 * i : Nat) : Rat) / ((cols : Nat) : Rat)) * lnR b))
  | .inf false => some (if i = 0 then p else 0)
  | _ => none

/-- The pair rule of ROPE at position `p` for pair `i` of a row of `cols` (R232). -/
def ropePair (n : Nat) (p base : Val) (cols i : Nat) (x y : Val) : Val × Val :=
  match p, x, y with
  | .num p _, .num x _, .num y _ =>
    (match ropeAngle p base cols i with
    | some th =>
      let (sn, cs) := sinCos th
      let bd := pow2 (-20) * (rabs x + rabs y) * (1 + rabs th) * (1 + slack)
      (bounded n (x * cs - y * sn) bd, bounded (n + 1) (x * sn + y * cs) bd)
    | none => (anyVal n, anyVal (n + 1)))
  | _, _, _ => if isNan x || isNan y || isNan p then (.nan, .nan) else (anyVal n, anyVal (n + 1))

/-- Rotate a row of even length at position `p` (R232). -/
def ropeRow (n : Nat) (p base : Val) (cols : Nat) (vs : List Val) : List Val :=
  ((chunks 2 vs.length vs).mapIdx (fun i c =>
    match c with
    | [x, y] => let r := ropePair (n + 2 * i) p base cols i x y; [r.1, r.2]
    | l => l)).flatten

/-! ### Sums -/

/-- What a sum of finite and special terms comes to: NaN, an infinity, nothing stated, or an exact sum with the sum of the
magnitudes. -/
inductive Sum where
  | nan
  | inf (neg : Bool)
  | open_
  | fin (sum mags : Rat)
  deriving DecidableEq, Repr, Inhabited

/-- Add one term. -/
def Sum.add : Sum → Val → Sum
  | .nan, _ => .nan
  | _, .nan => .nan
  | .open_, _ => .open_
  | .inf a, .inf b => if a == b then .inf a else .open_
  | .inf a, _ => .inf a
  | .fin _ _, .inf b => .inf b
  | .fin t m, .num q _ => .fin (t + q) (m + rabs q)

/-- The sum of a list. -/
def sumVals (vs : List Val) : Sum := vs.foldl Sum.add (.fin 0 0)

/-- The exact product of two decoded values; infinity times zero is NaN (R198). -/
def exactMul : Val → Val → Val
  | .num p _, .num q _ => .of (p * q)
  | x, y => fmul x y

/-- A result of a sum of `terms` terms in FP32, which come to `t` with the magnitudes `m`: within `bound` of exact, unless the terms of
one sign reach the end of the FP32 range, where it may overflow to the infinity of that sign on the way; of both infinities the manual
states no sum (R198, R202). -/
def within (n terms : Nat) (t m exact bound : Rat) : Val :=
  let reach (q : Rat) : Bool := decide (pow2 129 ≤ q * (1 + ((terms : Nat) : Rat) * pow2 (-23)))
  match ofFp32 (Config.free n), reach (m + t), reach (m - t) with
  | v, true, true => v
  | .inf false, true, _ => .inf false
  | .inf true, _, true => .inf true
  | .num _ _, _, _ => bounded n exact bound
  | _, _, _ => toFp32 (.of exact)

/-- An accumulated sum in FP32 within `n × 2⁻²³ × Σ|terms|`, plus `extra` (R202). -/
def accum (dr terms : Nat) (s : Sum) (extra : Rat) : Val := match s with
  | .nan => .nan
  | .inf n => .inf n
  | .open_ => anyVal dr
  | .fin t m => within dr terms t m t (((terms : Nat) : Rat) * pow2 (-23) * m + extra)

/-- A mean in FP32: within the sum's bound divided by `n`, plus half a step (R233). -/
def accumMean (dr terms : Nat) (s : Sum) : Val := match s with
  | .nan => .nan
  | .inf n => .inf n
  | .open_ => anyVal dr
  | .fin t m =>
    let e := t / ((terms : Nat) : Rat)
    within dr terms t m e (pow2 (-23) * m + step32 e / 2)

/-- One K-block of the matrix unit: the exact sum of its products, rounded once to FP32 (R198). -/
def blockSum (n : Nat) (ps : List Val) : Val := match sumVals ps with
  | .nan => .nan
  | .inf b => .inf b
  | .open_ => anyVal n
  | .fin t _ => toFp32 (.of t)

/-- The partial sums of a split of the K-blocks, which the dispatcher chooses: a block begins a new one, or adds to the one before it
(R191, R198). -/
def partials (n : Nat) : List Val → List Val → List Val
  | [], acc => acc
  | b :: bs, [] => partials (n + 1) bs [fadd n (.of 0) b]
  | b :: bs, a :: acc => partials (n + 1) bs (if Config.free n % 2 = 1 then fadd n (.of 0) b :: a :: acc else fadd n a b :: acc)

/-- Partial sums added in the order they arrive (R198). -/
def arrive (n : Nat) : Nat → List Val → Val → Val
  | 0, _, acc => acc
  | _ + 1, [], acc => acc
  | fuel + 1, v :: vs, acc =>
    let i := Config.free n % (vs.length + 1)
    arrive (n + 1) fuel ((v :: vs).eraseIdx i) (fadd n acc (nth (v :: vs) i v))

/-- Draws a dot product over K = `k` may take. -/
def dotDraws (k : Nat) : Nat := 3 * cdiv k 32 + 1

/-- A dot product: in the matrix unit K-block by K-block, and within its bound where the vector unit takes an FP32 operand (R197, R198,
R202). -/
def dot (dr : Nat) (vec : Bool) (a b : List Val) : Val :=
  let ps := (a.zip b).map (fun x => exactMul x.1 x.2)
  if vec then accum dr ps.length (sumVals ps) 0
  else
    let bs := (chunks 32 ps.length ps).mapIdx (fun i c => blockSum (dr + i) c)
    let ts := partials (dr + bs.length) bs []
    arrive (dr + 2 * bs.length) ts.length ts (.of 0)

/-- The square root of an exact number that may be 0. -/
def rootOf (q : Rat) : Rat := if q ≤ 0 then 0 else sqrtR q

end Sys2Proof.Machine
end

