-- ==== Sys2Proof/Machine/Addr.lean ====
section
/-! DEFINITION. Addresses: the device physical address, the interleave, regions, channel-local addresses, and the extent
that holds a line (R32 to R39, R43, R128). -/

namespace Sys2Proof.Machine

/-- The line a DPA names: DPA[42:6]; bit 47 is ignored (R32, R33). -/
def lineOf (dpa : Nat) : Nat := fld dpa 42 6

/-- Whether DPA[46:43] is 0, as a DPA in an extent must be (R32). -/
def dpaOk (dpa : Nat) : Bool := fld dpa 46 43 = 0

/-- Whether a DPA is a flag alias (R32). -/
def isFlagDpa (dpa : Nat) : Bool := bit dpa 47

/-- The channel of a DPA (R37). -/
def chanOf (dpa : Nat) : Nat := fld dpa 12 8 ^^^ fld dpa 20 16 ^^^ fld dpa 28 24

/-- The home Keystone of a DPA: the two low bits of its channel (R37). -/
def homeOf (dpa : Nat) : Nat := chanOf dpa % 4

/-- The channel of a line. -/
def lineChan (ln : Nat) : Nat := chanOf (64 * ln)

/-- The home Keystone of a line. -/
def lineHome (ln : Nat) : Nat := homeOf (64 * ln)

/-- The Keystone through which a transfer between two dies that carries no address is routed (R14). A transfer that carries
an address goes through its line's home Keystone, `lineHome`. -/
def routeKeystone (src dst : Nat) : Nat := (src + dst) % 4

/-- Lines of a 2 MiB region. -/
def regionLines : Nat := 32768

/-- The 2 MiB region of a line: DPA[42:21]. -/
def regionOf (ln : Nat) : Nat := ln / regionLines

/-- The channel-local address of a DPA (R38). -/
def localAddr (dpa : Nat) : Nat := fld dpa 42 13 <<< 8 + fld dpa 7 0

/-- The set of a line in its Keystone's directory (R96). -/
def dirSet (ln : Nat) : Nat :=
  let dpa := 64 * ln
  ((((dpa >>> 10) &&& 0x1FFFF) <<< 2) ||| ((dpa >>> 6) &&& 3)) ^^^ ((dpa >>> 27) &&& 0xFFFF)

/-- C of R128: 7 for x4 devices, 6 for x8 devices. -/
def colBits (d : Dimm) : Nat := if d.x8 then 6 else 7

/-- R of R128: the logarithm of the ranks per channel. -/
def rankBits (d : Dimm) : Nat := Nat.log2 (d.ranks * d.dpc)

/-- The rank of a channel-local address (R128); 0 when there is one rank. -/
def rankOf (d : Dimm) (a : Nat) : Nat :=
  if rankBits d = 0 then 0 else fld a (11 + colBits d + rankBits d) (12 + colBits d)

/-- The row of a channel-local address (R128). -/
def rowOf (d : Dimm) (a : Nat) : Nat := fld a 37 (12 + colBits d + rankBits d)

/-- The subchannel of a channel-local address (R128). -/
def subOf (a : Nat) : Nat := fld a 6 6

/-- The column of a channel-local address, in lines (R128). -/
def columnOf (d : Dimm) (a : Nat) : Nat := fld a (6 + colBits d) 7

/-- The bank group of a channel-local address (R128). -/
def groupOf (d : Dimm) (a : Nat) : Nat := fld a (9 + colBits d) (7 + colBits d)

/-- The bank of a channel-local address within its bank group (R128). -/
def inGroupOf (d : Dimm) (a : Nat) : Nat := fld a (11 + colBits d) (10 + colBits d)

/-- The number of a bank on its channel: the subchannel and the rank above the bank and the bank group (R128). -/
def bankOf (d : Dimm) (a : Nat) : Nat :=
  groupOf d a + 8 * inGroupOf d a + 32 * rankOf d a + 256 * subOf a

/-- The first line of an extent. -/
def Extent.first (e : Extent) : Nat := e.base * regionLines

/-- Whether an extent covers a line. -/
def Extent.covers (e : Extent) (ln : Nat) : Bool := e.base ≤ regionOf ln && regionOf ln < e.base + e.len

namespace State

/-- The extent, not Free, that holds a line, with its ID (R39). -/
def extAt (s : State) (ln : Nat) : Option (Nat × Extent) :=
  s.exts.find? (fun _ (e : Extent) => e.state != .free && e.covers ln)

/-- The composition that owns a line's extent. -/
def compAt (s : State) (ln : Nat) : Option Nat := (s.extAt ln).map (·.2.comp)

/-- Whether a line lies in a retired region (R43). -/
def inHole (s : State) (ln : Nat) : Bool := s.med.retired.has (regionOf ln)

/-- Whether a channel is failed (R140). -/
def chanFailed (s : State) (ch : Nat) : Bool := (s.med.chans.getD ch {}).failed

/-- Retired regions inside a range of regions (R43). -/
def holesIn (s : State) (base len : Nat) : Nat :=
  (s.med.retired.keys.filter (fun r => base ≤ r && r < base + len)).length

/-- Usable length of an extent, in 2 MiB units (R43). -/
def usable (s : State) (e : Extent) : Nat := e.len - s.holesIn e.base e.len

/-- Parity capacity an extent draws, in 2 MiB units (R42). -/
def parityUnits (prot len : Nat) : Nat := if prot = 1 then cdiv len 7 else 0

/-- Extent capacity a composition holds: usable bytes plus parity, Active and Draining (R42, R59). -/
def extHeld (s : State) (c : Nat) : Nat :=
  s.exts.fold (fun n _ e =>
    if e.comp = c && (e.state == .active || e.state == .draining) then n + s.usable e + parityUnits e.prot e.len else n) 0

/-- Whether the extent of a line is software-coherent and Active. -/
def activeAt (s : State) (ln : Nat) : Bool := match s.extAt ln with
  | some (_, e) => e.state == .active
  | none => false

/-- The extent that holds the whole byte range from `a`, in the given states (R152 and its like). -/
def extHolding (s : State) (a len : Nat) (ok : ExtState → Bool) : Option (Nat × Extent) :=
  match s.extAt (lineOf a) with
  | some (i, e) => if ok e.state && decide (a < 2 ^ 43) && decide (a + len ≤ (e.base + e.len) * 2 ^ 21) then some (i, e) else none
  | none => none

/-- Whether a byte range lies inside one Active software-coherent extent of a composition. -/
def inOwnSoft (s : State) (c a len : Nat) : Bool := match s.extHolding a len (· == .active) with
  | some (_, e) => e.comp == c && e.coh == 0
  | none => false

/-- Whether a byte range lies inside one Active software-coherent extent. -/
def inSoft (s : State) (a len : Nat) : Bool := match s.extHolding a len (· == .active) with
  | some (_, e) => e.coh == 0
  | none => false

end State

end Sys2Proof.Machine
end

