-- ==== Sys2Proof/Machine/Ecc.lean ====
section
/-! DEFINITION. The code that protects a line in DRAM: the field, the codeword of a line with its metadata, its places in the burst
of a subchannel, and which errors the decoder corrects (R129, R130, R70, R119). What the DRAM returns is an operand of the command
that reads (Media); `decode` is what the decoder makes of it. -/

namespace Sys2Proof.Machine

/-! ### GF(2^16) (R129) -/

/-- Multiply by α, a root of x^16 + x^12 + x^3 + x + 1. -/
def gfTimesAlpha (a : Nat) : Nat := if a < 0x8000 then 2 * a else (2 * a) ^^^ 0x1100B

/-- The sum of `a`·α^i over the set bits i of `b`, from the top of `n` bits down. -/
def gfMulFrom (a b : Nat) : Nat → Nat
  | 0 => 0
  | n + 1 => gfTimesAlpha (gfMulFrom a (b / 2) n) ^^^ (if b % 2 = 1 then a else 0)

/-- The product of two field elements. -/
def gfMul (a b : Nat) : Nat := gfMulFrom a b 16

/-- α^i. -/
def gfAlpha : Nat → Nat
  | 0 => 1
  | i + 1 => gfTimesAlpha (gfAlpha i)

/-! ### RS(40, 33) (R129) -/

/-- Multiply a polynomial, highest coefficient first, by x − r. -/
def polyTimesRoot (r : Nat) (p : List Nat) : List Nat :=
  List.zipWith (· ^^^ ·) (p ++ [0]) (0 :: p.map (gfMul r))

/-- The generator: the product of x − α^i for i from 0 to 6, highest coefficient first. -/
def eccGenerator : List Nat := (List.range 7).foldl (fun p i => polyTimesRoot (gfAlpha i) p) [1]

/-- Take one more symbol into the remainder of a division by the generator. -/
def eccShift (rem : List Nat) (sym : Nat) : List Nat :=
  let f := sym ^^^ nth rem 0 0
  List.zipWith (fun r g => r ^^^ gfMul f g) (rem.drop 1 ++ [0]) (eccGenerator.drop 1)

/-- The seven check symbols of 33 symbols. The first symbol is the highest coefficient (PRESUMED: the manual does not order
the coefficients). -/
def eccChecks (syms : List Nat) : List Nat := syms.foldl eccShift (List.replicate 7 0)

/-- Symbols 0 to 32 of a line: its data, byte 2s low, and its metadata, bit 0 poison and bit 1 lost. -/
def eccMessage (d : Line) (poison lost : Bool) : List Nat :=
  (List.range 32).map (fun s => fld d.toNat (16 * s + 15) (16 * s)) ++ [b2n poison + 2 * b2n lost]

/-- The codeword of a line: 40 symbols. -/
def eccCodeword (d : Line) (poison lost : Bool) : List Nat :=
  eccMessage d poison lost ++ eccChecks (eccMessage d poison lost)

/-- The value of a word at α^i: 0 for i from 0 to 6 in a codeword. -/
def eccSyndrome (w : List Nat) (i : Nat) : Nat := w.foldl (fun acc s => gfMul acc (gfAlpha i) ^^^ s) 0

/-- Whether a word of 40 symbols is a codeword. -/
def eccIsCodeword (w : List Nat) : Bool := w.length == 40 && (List.range 7).all (fun i => eccSyndrome w i == 0)

/-! ### The burst (R129) -/

/-- The device that carries a symbol. -/
def eccDevice (x8 : Bool) (s : Nat) : Nat := if x8 then s / 8 else s / 4

/-- The beat and the data pin, of 40, that carry bit `b` of a symbol, earliest beat low. -/
def eccPlace (x8 : Bool) (s b : Nat) : Nat × Nat :=
  if x8 then (2 * (s % 8) + b / 8, 8 * (s / 8) + b % 8) else (4 * (s % 4) + b / 4, 4 * (s / 4) + b % 4)

/-- The 640 bits of a burst: pin p of beat t is bit 40·t + p. -/
def eccBurst (x8 : Bool) (w : List Nat) : Nat :=
  (List.range 40).foldl (fun n s => (List.range 16).foldl (fun n b =>
    let p := eccPlace x8 s b
    if bit (nth w s 0) b then n + 2 ^ (40 * p.1 + p.2) else n) n) 0

/-- The symbol a burst carries. -/
def eccSymbol (x8 : Bool) (burst s : Nat) : Nat :=
  (List.range 16).foldl (fun n b =>
    let p := eccPlace x8 s b
    if bit burst (40 * p.1 + p.2) then n + 2 ^ b else n) 0

/-! ### What the decoder corrects (R130) -/

/-- The devices an error touches; `err` is the XOR of the burst read with the burst written. -/
def errorDevices (x8 : Bool) (err : Nat) : List Nat :=
  (((List.range 40).filter (fun s => eccSymbol x8 err s != 0)).map (eccDevice x8)).eraseDups

/-- What the decoder makes of a burst. The device is the one at fault, where a single one is. -/
inductive Decoded where
  | clean
  | corrected (dev : Nat)
  | uncorrectable (dev : Option Nat)
  | wrong (dev : Nat) (d : Line)        -- taken for a corrected line, and is not the line that was written
  deriving DecidableEq, Repr, Inhabited

/-- What a read returns when the burst differs from the one written by `err`: any error inside one x4 device and any error in at most
three symbols is corrected, and anything else is uncorrectable. The device is known when a single one is at fault. -/
def decodeError (x8 : Bool) (err : Nat) : Decoded :=
  let bad := (List.range 40).filter (fun s => eccSymbol x8 err s != 0)
  let devs := errorDevices x8 err
  if bad.isEmpty then .clean
  else if (!x8 && devs.length == 1) || decide (bad.length ≤ 3) then .corrected (nth devs 0 15)
  else .uncorrectable (if devs.length = 1 then devs.head? else none)

/-- What the decoder makes of what the DRAM returns. Only an error of two or more devices, beyond what it corrects, can be taken
for a correctable one. -/
def decodeMedia (x8 : Bool) (m : Media) : Decoded := match m with
  | .clean => .clean
  | .buffered => .clean
  | .error err => decodeError x8 err
  | .miscorrected err d =>
    match decodeError x8 err with
    | .uncorrectable dev => if 1 < (errorDevices x8 err).length then .wrong (nth (errorDevices x8 err) 0 15) d else .uncorrectable dev
    | x => x

namespace State

/-- What the decoder makes of what the DRAM returns, for the population in place. -/
def decode (s : State) (m : Media) : Decoded := decodeMedia ((s.med.dimm.map (·.x8)).getD false) m

/-- The burst DRAM holds for a line (R70, R119, R129). -/
def burstAt (s : State) (ln : Nat) : Nat :=
  eccBurst ((s.med.dimm.map (·.x8)).getD false) (eccCodeword (s.rawLine ln) (s.poison.has ln) (s.lost.has ln))

end State

end Sys2Proof.Machine
end

