-- ==== Sys2Proof/Machine/Remote.lean ====
section
/-! DEFINITION. The controller's own requests to peers and host memory: issue, the order and holds of transmission, and
the counting of writes and flags to each peer (R84, R85, R212, R213, R262, R468). -/

namespace Sys2Proof.Machine

/-- Lines a byte range touches. -/
def linesTouched (a len : Nat) : Nat := if len = 0 then 0 else (a + len - 1) / 64 - a / 64 + 1

/-- Whether a remote request is a plain write or a flag to a peer, which R212 orders behind an outstanding flag. -/
def Remote.ordered (r : Remote) : Bool := !r.host && r.write

/-- The line of a mirror or resync write, or of a read of the partner's copy: they go to the partner one after another (R65, R136,
R137, R139). -/
def Remote.mirLine (r : Remote) : Option Nat := match r.purpose with
  | .mirror _ ln => some ln
  | .mirrorRead ln => some ln
  | .resync _ ln => some ln
  | _ => none

namespace State

/-- What a head's Quoin keeps for a port. -/
def peer (s : State) (port : Nat) : PeerSt := s.eng.peers.getD port {}

/-- Replace what is kept for a port. -/
def setPeer (s : State) (port : Nat) (p : PeerSt) : State := { s with eng := { s.eng with peers := s.eng.peers.set port p } }

/-- Requests in flight on a head (R84). -/
def inFlight (s : State) (h : Nat) : Nat :=
  (s.remotes.vals.filter (fun r => r.head == h && r.sent.isSome)).length

/-- Plain writes to a port that are sent and not completed (R213 step 1). -/
def writesOutTo (s : State) (port : Nat) : Nat :=
  (s.remotes.vals.filter (fun r => r.ordered && r.flag.isNone && r.port == port && r.sent.isSome)).length

/-- Whether an earlier write of the line to the partner, or read of the partner's copy, has not completed (R65, R136). -/
def mirrorBehind (s : State) (id : Nat) (r : Remote) : Bool := match r.mirLine with
  | none => false
  | some ln => s.remotes.any (fun i x => i < id && x.mirLine == some ln)

/-- Whether a write of a line to the partner has not completed (R136). -/
def mirrorOut (s : State) (ln : Nat) : Bool := s.remotes.any (fun _ x => x.write && x.mirLine == some ln)

/-- Transmit one request: it is counted for its peer, and a flag takes its EXPECT and SEQ (R212). -/
def transmit (s : State) (id : Nat) (r : Remote) : State :=
  let p := s.peer r.port
  let r := { r with sent := some s.now }
  if r.host then
    if r.write then { s with remotes := s.remotes.erase id }.emit (.hostWrite id r.head r.addr r.len r.data r.poison)
    else { s with remotes := s.remotes.set id r }.emit (.hostRead id r.head r.addr r.len)
  else match r.flag with
    | some (_, _, act) =>
      let expect := if r.purpose == .peerSync then 0xFFFF_FFFF else p.count
      let r := { r with flag := some (expect, p.next, act) }
      let s := s.setPeer r.port { p with count := 0, next := (p.next + 1) % 65536, flag := some id, flagLine := r.addr / 64 }
      { s with remotes := s.remotes.set id r }.emit (.peerFlag id r.head r.port (r.addr / 64) r.data r.be expect p.next act)
    | none =>
      let s := if r.write then s.setPeer r.port { p with count := p.count + linesTouched r.addr r.len } else s
      { s with remotes := s.remotes.set id r }.emit
        (if r.write then .peerWrite id r.head r.port r.addr r.len r.data r.poison else .peerRead id r.head r.port r.addr r.len)

/-- Transmit a request if its head, its peer's outstanding flag and the order of mirror writes allow it. A resynchronising flag that no
write is ahead of any more, and whose link is down, counts REMOTE_TIMEOUT from now (R84, R213). `held` are the ports behind which an earlier write or flag is still held; the answer adds this one's. -/
def pumpOne (sh : State × List Nat) (id : Nat) : State × List Nat :=
  let (s, held) := sh
  match s.remotes.get? id with
  | none => sh
  | some r =>
    if r.sent.isSome then sh
    else
      let p := s.peer r.port
      let down := !(s.heads.getD r.head {}).up
      let late := down && !r.early && r.purpose == .peerSync && s.writesOutTo r.port = 0
      let s := if late then { s with remotes := s.remotes.set id { r with early := true, issued := s.now } } else s
      let blocked := r.ordered && (held.contains r.port || (p.flag.isSome && r.purpose != .peerSync)
        || (p.resync && r.purpose != .peerSync) || (p.rerouted && r.flag.isSome && r.purpose != .peerSync)
        || (r.purpose == .peerSync && 0 < s.writesOutTo r.port))
      if blocked then (s, r.port :: held)
      else if down || 2048 ≤ s.inFlight r.head || s.mirrorBehind id r then
        (s, if r.ordered then r.port :: held else held)
      else (s.transmit id r, held)

/-- Transmit every request that may leave, in issue order; a resynchronising flag goes ahead of the held writes of its
port (R213). -/
def pump (s : State) : State :=
  let ids := s.remotes.keys
  let sync := ids.filter (fun i => (s.remotes.get? i).any (fun r => r.purpose == .peerSync))
  let s := (sync.foldl pumpOne (s, [])).1
  (ids.foldl pumpOne (s, [])).1

/-- Start the resynchronisation of a port (R213 steps 1 and 2). Without a route the flag fails at once, and is sent again once a
route is committed; the port's writes and flags stay held (R213, R468). -/
def startPeerSync (s : State) (port line : Nat) : State :=
  let s := s.setPeer port { s.peer port with resync := true, rerouted := false, flag := none, flagLine := line }
  match s.route port with
  | none => s
  | some h =>
    { s with remotes := s.remotes.set s.nextId
               { head := h, host := false, port := port, write := true, addr := 64 * line, len := 64, data := 0,
                 flag := some (0, 0, 1), purpose := .peerSync, issued := s.now, limit := s.remoteTimeout }
             nextId := s.nextId + 1 }

/-- Send again the resynchronising flag of every port that waits for a route (R213, R468). -/
def retrySyncs (s : State) : State :=
  s.eng.peers.keys.foldl (fun s port =>
    if (s.peer port).resync && !(s.remotes.any (fun _ r => r.purpose == .peerSync && r.port == port)) then
      s.startPeerSync port (s.peer port).flagLine
    else s) s

/-- When a flag waits behind a change of route, the port resynchronises first, to the line of that flag (R468). -/
def rerouteSync (s : State) (port line : Nat) : State :=
  if (s.peer port).rerouted then s.startPeerSync port line else s

/-- Issue a request of the controller's own. It fails at once when no route covers the port, or when the head's Bus
Master Enable is clear (R262, R468); a posted write to host memory through a head whose link is down is discarded
without notice (R84). Answers the request's id. -/
def issue (s : State) (r : Remote) : Option Nat × State :=
  let r := { r with ring := r.cid.bind (fun c => (s.cmds.get? c).map (fun (x : Cmd) => x.ring)) }
  if r.host then
    let h := s.heads.getD r.head {}
    if !h.bme then (none, s)
    else
      let id := s.nextId
      let s := { s with nextId := id + 1 }
      if r.write && !h.up then (some id, s)
      else
        let r := { r with issued := s.now, limit := s.remoteTimeout, early := !h.up }
        (some id, ({ s with remotes := s.remotes.set id r }).pump)
  else match s.route r.port with
    | none => (none, s)
    | some h =>
      let s := if r.flag.isSome then s.rerouteSync r.port (r.addr / 64) else s
      let id := s.nextId
      let r := { r with head := h, issued := s.now, limit := s.remoteTimeout, early := !(s.heads.getD h {}).up }
      (some id, ({ s with nextId := id + 1, remotes := s.remotes.set id r }).pump)

end State

end Sys2Proof.Machine
end

