-- ==== Sys2Proof/Machine/Reply.lean ====
section
/-! DEFINITION. What leaves the store path: responses to heads, BIConflictAck, lines into Course buffers, and the end of mirroring
when the partner does not answer (R12, R21 step 9, R62, R63, R84, R106, R138). -/

namespace Sys2Proof.Machine

namespace State

/-- The head Hh, with its Quoin. -/
def headAt (s : State) (h : Nat) : Head := s.heads.getD h {}

/-- Whether a host access can reach the controller through a head at all: its link is up (R443). -/
def headUp (s : State) (h : Nat) : Bool := decide (h < 12) && (s.headAt h).up

/-- Send a response to a head; its Quoin transmits nothing while its link is down (R84, R445). -/
def reply (s : State) (h : Nat) (o : Out) : State := if s.headUp h then s.emit o else s

/-- Change a command. -/
def modCmd (s : State) (c : Nat) (f : Cmd → Cmd) : State := { s with cmds := s.cmds.modify c f }

/-- Give a command a failure met at fabric time `at_`: the earliest stands, and of two that share a time stamp the lower (R174). -/
def failWith (at_ st : Nat) (c : Cmd) : Cmd :=
  if c.status ≤ 1 || at_ < c.failAt then { c with status := st, failAt := at_ }
  else if c.failAt = at_ then { c with status := min c.status st }
  else c

/-! ### BIConflict (R106) -/

/-- Whether a request of a host to a line, admitted ahead of the transaction that snoops the host, has not completed
(R106). -/
def owesHost (s : State) (spid ln : Nat) : Bool :=
  let mine (r : LineReq) : Bool := r.src == spid && r.line == ln && !r.atOnce && !r.course
  s.owed.any (fun _ rs => rs.any mine) || s.mirReads.any (fun _ r => mine r) || s.calHeld.any (fun _ l => l.any (fun a => mine a.req))
    || s.uio.any (fun _ u => u.src == spid && u.lines.contains ln)

/-- Send the BIConflictAcks that wait for nothing any more (R106). -/
def ackConflicts (s : State) : State :=
  s.conflicts.foldl (fun s c =>
    if s.owesHost c.spid c.line then s
    else { s with conflicts := s.conflicts.erase c }.reply c.head (.conflictAck c.head c.spid c.line)) s

/-! ### UIO writes (R62) -/

/-- One line of a UIO write has ended; with the last one the completion leaves (R62). `ahead` is a line that landed in its own
turn, which a BIConflictAck for it waits for (R106). -/
def uioLineDone (s : State) (h tag ln : Nat) (ahead : Bool) : State :=
  let key := 65536 * h + tag
  match s.uio.get? key with
  | some u =>
    if u.left ≤ 1 then (({ s with uio := s.uio.erase key }).reply h (.uioCpl h tag)).ackConflicts
    else { s with uio := s.uio.set key { u with left := u.left - 1, lines := if ahead then ln :: u.lines else u.lines } }
  | none => s

/-- Complete a flagged store to its source. Tags from 65,536 on are those of flagged stores that came as UIO writes. -/
def flagCpl (s : State) (h tag : Nat) : State :=
  if 65536 ≤ tag then s.uioLineDone h (tag - 65536) 0 false else s.reply h (.cmp h tag .none)

/-- The grant a completion carries. -/
def grantOf (n : Nat) : Grant := match n with
  | 1 => .s
  | 2 => .e
  | _ => .none

/-! ### Course buffers (R12, R104) -/

/-- The line a Course buffer holds. -/
def bufAt (s : State) (die ln : Nat) : Option BufLine := (s.bufs.getD die Tab.empty).get? ln

/-- Drop a line from a Course buffer. -/
def bufDrop (s : State) (die ln : Nat) : State :=
  { s with bufs := s.bufs.modify die (fun t => t.erase ln) }

/-- Queue a message of a Course die to the home Keystone of its line (R104). -/
def sendUp (s : State) (die : Nat) (m : FromBuf) : State :=
  let key := 4 * die + lineHome m.line
  { s with fromBuf := s.fromBuf.set key (s.fromBuf.getD key [] ++ [m]) }

/-- Graph walkers of a Course die that have queries: a tile of a command runs on them (R351). -/
def walkersBusy (s : State) (die : Nat) : Nat :=
  ((List.range 2).filter (fun u => s.cmds.any (fun _ (c : Cmd) => c.phase == .running && c.busy.has (1344 + 2 * die + u)))).length

/-- Lines of a Course buffer that coherent lines and staged copies may take: its 21 MiB less the 4 MiB working store of each walker
that has queries, and less the dispatcher's partial results (R12, R245, R351). -/
def bufCap (s : State) (die : Nat) : Nat :=
  344064 - 65536 * s.walkersBusy die - cdiv (4 * (s.eng.partials.getD die {}).sums.length) 64

/-- Lines of a Course buffer that coherent lines and staged copies take. -/
def bufUsed (s : State) (die : Nat) : Nat := (s.bufs.getD die Tab.empty).size + (s.eng.staged.getD die Tab.empty).size

/-- One line of a Course buffer gives way: the lowest-numbered clean one; where every line is dirty the lowest-numbered one, with a
WRITEBACK; and where there is none the lowest-numbered staged copy (DESIGN CHOICE, log entry 16). -/
def bufEvict (s : State) (die : Nat) : State :=
  let t := s.bufs.getD die Tab.empty
  let copies := s.eng.staged.getD die Tab.empty
  match t.find? (fun _ (x : BufLine) => !x.dirty), t.rows.head?, copies.rows.head? with
  | some (k, _), _, _ => { s with bufs := s.bufs.set die (t.erase k) }
  | none, some (k, x), _ => { s with bufs := s.bufs.set die (t.erase k) }.sendUp die
      { msg := .fwd, ans := .dirty, line := k, data := x.data, poison := x.poison, kind := .writeback }
  | none, none, some (k, _) => { s with eng := { s.eng with staged := s.eng.staged.set die (copies.erase k) } }
  | none, none, none => s

/-- Make room in a Course buffer for `n` more lines (R12). -/
def bufMake (s : State) (die n : Nat) : State :=
  (List.range (s.bufUsed die + n - s.bufCap die)).foldl (fun s _ => s.bufEvict die) s

/-- Install a line in a Course buffer; in a full one another line gives way (R12). -/
def bufPut (s : State) (die ln : Nat) (b : BufLine) : State :=
  let s := if (s.bufAt die ln).isSome then s else s.bufMake die 1
  { s with bufs := s.bufs.set die ((s.bufs.getD die Tab.empty).set ln b) }

/-- A line arrives at the Course buffer that asked for it: with its data, or with the right to write a line it holds. A die
withdrawn meanwhile takes nothing (R20). -/
def fillBuf (s : State) (die : Nat) (r : LineReq) (data : Line) (pz : Bool) : State :=
  let fresh : BufLine := { data := data, poison := pz, own := decide (r.grant = 2), once := decide (r.grant = 0) }
  if (s.courses.getD die {}).withdrawn then s
  else match s.bufAt die r.line with
    | some b => s.bufPut die r.line (if b.once then fresh else { b with own := b.own || decide (r.grant = 2) })
    | none => s.bufPut die r.line fresh

/-! ### Answers (R21 step 9) -/

/-- Answer a line request: data or a completion to a head, or a line into a Course buffer (R21 step 9). -/
def respond (s : State) (r : LineReq) (data : Line) (pz : Bool) : State :=
  let data := if pz then 0 else data
  match r.kind with
  | .memRd => s.reply r.head (.memData r.head r.tag r.line data pz (grantOf r.grant))
  | .memInv => s.reply r.head (.cmp r.head r.tag (grantOf r.grant))
  | .memWr => s.reply r.head (.cmp r.head r.tag .none)
  | .flag => s.flagCpl r.head r.tag
  | .uioRd => s.reply r.head (.uioData r.head r.tag r.line r.off r.len data pz)
  | .uioWr => s.uioLineDone r.head r.tag r.line (!r.atOnce)
  | .course => s.fillBuf (r.src - 4080) r data pz
  | .signal => if r.cls == .unc then { s with mirCopy := s.mirCopy.set r.line (if pz && !(s.poison.has r.line || s.lost.has r.line) then none else some data) }
    else s
  | .lost => { s with lostWr := (s.lostWr + 1) % 2 ^ 32 }
  | .none => s

/-- Append a request to those that wait at its Keystone. -/
def wait (s : State) (r : LineReq) : State :=
  let k := lineHome r.line
  { s with waitQ := s.waitQ.set k (s.waitQ.getD k [] ++ [r]) }

/-- Whether a channel serves no request now, for a calibration (R26). -/
def chanBusy (s : State) (ch : Nat) : Bool := (s.med.chans.getD ch {}).calBusy

/-! ### Completions that wait for the partner (R136, R138) -/

/-- Let the writes complete that waited for a partner write (R136). -/
def finishOwed (s : State) (id : Nat) : State :=
  ((s.owed.getD id []).foldl (fun (s : State) r => s.respond r 0 false) { s with owed := s.owed.erase id }).ackConflicts

/-- A command no longer waits for one of its writes (R138). -/
def letWriteGo (s : State) (id : Nat) : State :=
  match (s.remotes.get? id).bind (fun (r : Remote) => r.cid) with
  | some c =>
    { s with remotes := s.remotes.modify id (fun r => { r with cid := none })
             cmds := s.cmds.modify c (fun x => { x with writesOut := x.writesOut - 1 }) }
  | none => s

/-- Degrade an extent: regions with unacknowledged writes become dirty, and the withheld completions leave (R138). -/
def degrade (s : State) (i : Nat) : State :=
  let outs := s.remotes.fold (fun (l : List Nat) _ r => match r.purpose with
    | .mirror j ln => if j = i then l ++ [ln] else l
    | .resync j ln => if j = i then l ++ [ln] else l
    | _ => l) []
  let ids := s.remotes.keys.filter (fun id => (s.remotes.get? id).any (fun r => match r.purpose with
    | .mirror j _ => j == i
    | _ => false))
  let s := { s with exts := s.exts.modify i (fun e =>
    { e with mir := .degraded, probeAt := s.now, copied := Tab.empty
             dirty := outs.foldl (fun d ln => d.add (regionOf ln)) e.dirty }) }
  (ids.foldl (fun s id => (s.letWriteGo id).finishOwed id) s).alarm 0 5 i (some true)

end State

end Sys2Proof.Machine
end

