-- ==== Sys2Proof/Machine/Store.lean ====
section
/-! DEFINITION. Reading and landing one line of the store: poison and lost marks, holes, failed channels, ECC outcomes,
channel parity, mirroring, the activations of rows, and the retirement of regions with the copy of one under rebuild (R21, R43,
R64, R68 to R70, R131 to R147, R150, R151). -/

namespace Sys2Proof.Machine

/-! ### Channel parity (R132) -/

/-- The stripe of a data line of a parity extent: its set, its block within the set, and the stripe number. -/
structure Stripe where
  set : Nat
  i : Nat
  j : Nat
  g : Nat
  deriving DecidableEq, Repr, Inhabited

/-- The stripe of the line at DPA `d` in an extent whose first byte is `b` (R132). -/
def stripeOf (b d : Nat) : Stripe :=
  let blk := (d - b) >>> 13
  let i := blk % 7
  let c := chanOf d
  { set := blk / 7, i := i, j := ((c >>> 2) + 16 - i - 1) % 8, g := c % 4 }

/-- The unit, of a given channel, in the 8 KiB block at `blk`, at the byte offset of `d` (R132, R37). -/
def unitAddr (blk ch d : Nat) : Nat :=
  blk + ((ch ^^^ ((blk >>> 16 ^^^ blk >>> 24) &&& 0x1F)) <<< 8) + (d &&& 0xFF)

/-- The parity line of a data line, as a line number (R132). -/
def parityLine (b s0 d : Nat) : Nat :=
  let st := stripeOf b d
  unitAddr (s0 + st.set <<< 13) (st.g + 4 * st.j) d / 64

/-- The other data lines of a stripe, as line numbers; blocks past the end of the extent are absent (R132). -/
def stripeOthers (b len d : Nat) : List Nat :=
  let st := stripeOf b d
  (List.range 7).filterMap (fun i =>
    let off := (7 * st.set + i) <<< 13
    if i = st.i || len ≤ off then none
    else some (unitAddr (b + off) (st.g + 4 * ((st.j + i + 1) % 8)) d / 64))

/-- What a read of one line answers: its bytes, whether it is poisoned, and the status it gives a command (R150). -/
structure LineRead where
  data : Line
  poison : Bool
  status : Nat := 0                     -- 0 OK, 5 MEDIA, 6 POISON
  partner : Bool := false               -- the partner's copy has to be read (R137)
  deriving DecidableEq, Repr, Inhabited

namespace State

/-- First byte of a parity extent's share. -/
def shareBase (e : Extent) : Nat := match e.share with
  | some (b, _) => b * 2 ^ 21
  | none => 0

/-- Whether a line cannot be read: uncorrectable, on a failed channel, or in a hole. -/
def unreadable (s : State) (ln : Nat) : Bool :=
  s.med.ue.has ln || s.chanFailed (lineChan ln) || s.inHole ln

/-- Whether a parity line cannot be used: unreadable, or written with poison (R135). -/
def parityBad (s : State) (ln : Nat) : Bool := s.unreadable ln || s.poison.has ln

/-- The XOR of lines as DRAM holds them. -/
def xorLines (s : State) (ls : List Nat) : Line := ls.foldl (fun a l => a ^^^ s.rawLine l) 0

/-- A data line of a parity extent from the rest of its stripe, when every other member can be read (R135). -/
def reconstruct (s : State) (e : Extent) (ln : Nat) : Option Line :=
  let d := 64 * ln
  let b := e.base * 2 ^ 21
  let par := parityLine b (shareBase e) d
  let others := stripeOthers b (e.len * 2 ^ 21) d
  if s.parityBad par || others.any s.unreadable then none else some (s.rawLine par ^^^ s.xorLines others)

/-- The body of a MEDIA_UE log entry (R416). -/
def mediaBody (s : State) (ln dev : Nat) (recovered : Bool) : Nat :=
  let a := localAddr (64 * ln)
  let rank := match s.med.dimm with | some d => rankOf d a | none => 0
  let (ext, comp, gen) := match s.extAt ln with
    | some (i, e) => (i, e.comp, e.gen)
    | none => (0x3FFF, 0, 0)
  put ln 127 91 + put (lineChan ln) 90 86 + put rank 85 83 + put dev 82 79 + put (subOf a) 78 78
    + put (b2n recovered) 77 77 + put ext 76 63 + put comp 62 55 + put gen 54 47

/-- The Footing die of a channel (R1). -/
def footingDie (ch : Nat) : Nat := 32 + ch / 4

/-- The source number of a channel (R2). -/
def chanSrc (ch : Nat) : Nat := 1212 + ch

/-! ### Retirement (R141 to R144) -/

/-- Whether a region is rebuilt before it is retired: its extent is Active or Draining (R142). -/
def needsSlot (s : State) (rg : Nat) : Bool := match s.extAt (rg * regionLines) with
  | some (_, e) => e.state == .active || e.state == .draining
  | none => false

/-- RESCUE_EMPTY ends once no rebuild waits for a slot (R142, R420). -/
def endSlotWait (s : State) : State :=
  if s.med.rebuilds.any (fun r x => x.slot.isNone && x.asked && s.needsSlot r) then s else s.alarmEnd 0 8

/-- The retirement record of R144. -/
def retireRecord (s : State) (rg : Nat) (b : Rebuild) : Nat :=
  let (ext, comp, gen) := match s.extAt (rg * regionLines) with
    | some (i, e) => (i, e.comp, e.gen)
    | none => (0x3FFF, 0, 0)
  let slot := match b.slot with | some r => r - s.cfgF offMedRescue 21 0 | none => 0
  put s.stamp40 127 88 + put comp 87 80 + put gen 79 72 + put ext 71 58 + put b.cause 57 55
    + put (b2n b.slot.isSome) 54 54 + put slot 53 48 + put rg 43 22 + put (satAt 63 b.bad) 21 16
    + put (satAt 65535 (s.med.ceRegion.getD rg 0)) 15 0

/-- Retire a region whose copy is done, or that needs none (R142 steps 4 and 5). -/
def retireRegion (s : State) (rg : Nat) : State :=
  match s.med.rebuilds.get? rg with
  | none => s
  | some b =>
    if s.needsSlot rg && !(b.slot.isSome && regionLines ≤ b.next) then s
    else
      let rec_ := s.retireRecord rg b
      let used := match b.slot with | some sl => s.med.used.add sl | none => s.med.used
      let s := { s with med := { s.med with retired := s.med.retired.add rg, rebuilds := s.med.rebuilds.erase rg, used := used }
                        lineBuf := s.lineBuf.delRange (rg * regionLines) ((rg + 1) * regionLines) }
      let ch := lineChan (rg * regionLines)
      let s := if b.asked && b.slot.isNone then s.endSlotWait else s
      (s.logAt 0 1425 logRetire 2 rec_).alarm (footingDie ch) 6 rg

/-- A region is to be retired: it is rebuilt first while its extent is Active or Draining, and retired at once otherwise (R141,
R142). A rebuild already under way is left as it is. -/
def startRetire (s : State) (rg cause : Nat) : State :=
  if s.med.retired.has rg || s.med.rebuilds.has rg then s
  else
    let s := { s with med := { s.med with rebuilds := s.med.rebuilds.set rg { slot := none, cause := cause } } }
    if s.needsSlot rg then s else s.retireRegion rg

/-! ### Rows and the line buffer (R11, R21, R147) -/

/-- Count one activation of a row: the 32 most-activated rows of its bank are kept, and a row that finds no place takes that of
the least activated one with its count (R147; PRESUMED, log entry 63). -/
def countRow (rows : List ActRow) (row : Nat) : List ActRow :=
  if rows.any (fun r => r.row == row) then rows.map (fun r => if r.row = row then { r with count := r.count + 1 } else r)
  else if rows.length < 32 then rows ++ [{ row := row, count := 1 }]
  else
    let low := rows.foldl (fun m r => min m r.count) ((nth rows 0 { row := 0, count := 0 }).count)
    let i := rows.findIdx (fun r => r.count == low)
    setNth rows i { row := row, count := low + 1 }

/-- The key of a bank among those the Footings track: its channel and its number there (R128, R147). -/
def bankKey (ch bank : Nat) : Nat := 4096 * ch + bank

/-- What the Footing keeps for a bank (R147). -/
def bankAt (s : State) (ch bank : Nat) : Bank := s.med.banks.getD (bankKey ch bank) {}

/-- Replace what the Footing keeps for a bank. -/
def setBank (s : State) (ch bank : Nat) (b : Bank) : State :=
  { s with med := { s.med with banks := s.med.banks.set (bankKey ch bank) b } }

/-- The DRAM is accessed at a channel-local address: the row is activated unless its bank has it open (R128, R147; DESIGN CHOICE, log
entry 63). -/
def activateAt (s : State) (ch a : Nat) : State :=
  match s.med.dimm with
  | none => s
  | some d =>
    let (bank, row) := (bankOf d a, rowOf d a)
    let b := s.bankAt ch bank
    if b.row = some row then s
    else s.setBank ch bank { raa := b.raa + 1, rows := countRow b.rows row, row := some row }

/-- The DRAM is accessed for a line, read or written: the bytes are counted at its channel (R147, R401). -/
def touch (s : State) (ln : Nat) (wr : Bool) : State :=
  (s.bump ((if wr then cChWr else cChRd) + lineChan ln) 64).activateAt (lineChan ln) (localAddr (64 * ln))

/-- An access waits at its Footing for the calibration of its channel to end (R26). -/
def defer (s : State) (ch : Nat) (x : CalAccess) : State := { s with calAcc := s.calAcc.set ch (s.calAcc.getD ch [] ++ [x]) }

/-- A line reaches its channel, at once or after the calibration that blocks it; a failed channel takes nothing (R21 step 4, R26,
R140). -/
def chanWrite (s : State) (ln : Nat) : State :=
  let ch := lineChan ln
  if s.chanFailed ch then s else if s.chanBusy ch then s.defer ch (.write ln) else s.touch ln true

/-- A scrub writes the lines of a region that lie on a channel: 64 KiB of it, row by row (R38, R128, R147). -/
def zeroOn (s : State) (ch rg : Nat) : State :=
  let s := s.bump (cChWr + ch) 65536
  match s.med.dimm with
  | none => s
  | some d =>
    let row := 2 ^ (7 + colBits d)
    (List.range (65536 / row)).foldl (fun s j => (s.activateAt ch (65536 * rg + row * j)).activateAt ch (65536 * rg + row * j + 64)) s

/-- A scrub's write of a region reaches one channel, at once or after its calibration (R26). -/
def zeroChan (rg : Nat) (s : State) (ch : Nat) : State :=
  if s.chanFailed ch then s else if s.chanBusy ch then s.defer ch (.zero rg) else s.zeroOn ch rg

/-- A scrub's writes of the regions from `a` up to `b` that are not retired reach the channels (R49, R147, R444). -/
def zeroChans (s : State) (a b : Nat) : State :=
  ((List.range (b - a)).map (a + ·)).foldl (fun s rg =>
    if s.med.retired.has rg then s else (List.range 32).foldl (zeroChan rg) s) s

/-- Lines of the search and general region of one Keystone (R11). -/
def generalLines : Nat := 262144

/-- Lines a Keystone's search and general region holds, of either use (R11). -/
def generalUsed (s : State) (k : Nat) : Nat :=
  (s.lineBuf.keys.filter (fun l => lineHome l == k)).length + (s.eng.searchCache.keys.filter (fun l => lineHome l == k)).length

/-- A line that was read or written stays in its Keystone's line buffer. In a full region the buffer's lowest-numbered line
gives way (R11, R21 step 7; DESIGN CHOICE, log entry 64). -/
def keepLine (s : State) (ln : Nat) : State :=
  if s.lineBuf.has ln then s
  else if s.generalUsed (lineHome ln) < generalLines then { s with lineBuf := s.lineBuf.add ln }
  else match s.lineBuf.keys.find? (fun l => lineHome l == lineHome ln) with
    | some x => { s with lineBuf := NSet.add (Tab.erase s.lineBuf x) ln }
    | none => s

/-! ### Reads -/

/-- Count an uncorrectable read at its channel; the line's copy in the line buffer goes (R140, R401, R402). -/
def countUe (s : State) (ln : Nat) : State :=
  let ch := lineChan ln
  let c := s.med.chans.getD ch {}
  let c := { c with ueTimes := s.now :: c.ueTimes.filter (fun t => s.now < t + 1000000) }
  let s := { s with med := { s.med with chans := s.med.chans.set ch c }, lineBuf := Tab.erase s.lineBuf ln }
  let s := s.bump (cChUe + ch) 1
  match s.compAt ln with
  | some k => s.bumpCount k pUe 1
  | none => s

/-- A media log entry for an uncorrectable line (R150, R416). -/
def logUe (s : State) (ln dev : Nat) (recovered : Bool) : State :=
  let ch := lineChan ln
  s.logAt (footingDie ch) (chanSrc ch) logMedia (if recovered then 2 else 3) (s.mediaBody ln dev recovered)

/-- A line that read uncorrectable has been repaired (R141). -/
def noteRepair (s : State) (ln : Nat) : State :=
  { s with med := { s.med with ue := s.med.ue.erase ln, repairedAt := s.med.repairedAt.set ln s.now } }

/-- A line that was repaired within the last 24 h reads uncorrectable again: its region is retired (R141). -/
def repeatUe (s : State) (ln : Nat) : State :=
  if (s.med.repairedAt.get? ln).any (fun t => decide (s.now ≤ t + 86400000000000)) then s.startRetire (regionOf ln) 0 else s

/-- Post a General Media Event on each head the extent's access list names (R151). -/
def postMediaEvent (s : State) (ln : Nat) : State := match s.extAt ln with
  | none => s
  | some (_, e) =>
    ((List.range 12).filter (fun h => e.acl.any (fun a => a.head == h))).foldl (fun s h => s.emit (.mediaEvent h (64 * ln))) s

/-- A corrected read: counted by region, rank and device, its write-back owed, and CE_LIMIT watched (R131, R141). -/
def correctedRead (s : State) (ln dev : Nat) : State :=
  let ch := lineChan ln
  let rg := regionOf ln
  let rank := match s.med.dimm with | some d => rankOf d (localAddr (64 * ln)) | none => 0
  let m := s.med
  let seen := m.ceLines.has ln
  let cell := 8 * rg + ch / 4
  let before := (List.range 8).foldl (fun n f => n + m.ceLimitN.getD (8 * rg + f) 0) 0
  let m := { m with
    repair := m.repair.add ln
    ceRegion := m.ceRegion.set rg (m.ceRegion.getD rg 0 + 1)
    ceRank := m.ceRank.set (8 * ch + rank) (m.ceRank.getD (8 * ch + rank) 0 + 1)
    ceDev := m.ceDev.set (16 * (8 * ch + rank) + dev) (m.ceDev.getD (16 * (8 * ch + rank) + dev) 0 + 1)
    ceLines := m.ceLines.set ln 1
    ceLimitN := m.ceLimitN.set cell (m.ceLimitN.getD cell 0 + (if seen then 0 else 1)) }
  let limit := s.cfgF offMedRetCfg 15 0
  let s := ({ s with med := m }).bump (cChCe + ch) 1
  let s := match s.compAt ln with | some k => s.bumpCount k pCe 1 | none => s
  if !seen && before + 1 = limit then
    match s.extAt ln with
    | some (_, e) => if e.prot = 0 then s.alarm (footingDie ch) 7 rg else s.startRetire rg 1
    | none => s.startRetire rg 1
  else s

/-- RETIRE_ADVISED for a line of an unprotected extent that is found uncorrectable: once for each such line (R141). -/
def adviseRetire (s : State) (ln : Nat) (known : Bool) : State :=
  if known then s else s.alarm (footingDie (lineChan ln)) 7 (regionOf ln)

/-- An uncorrectable line, seen by a read: repaired by parity, left to the partner, or answered with poison. Outside Active and
Draining extents its region is retired, unless its extent is unprotected (R135, R137, R141, R150). `known` is a line that has been
found uncorrectable before. -/
def uncorrectableRead (s : State) (ln dev : Nat) (known : Bool) : LineRead × State :=
  let s := s.countUe ln
  let bad : LineRead := { data := 0, poison := true, status := 5 }
  match s.extAt ln with
  | none => (bad, (s.logUe ln dev false).startRetire (regionOf ln) 2)
  | some (_, e) =>
    let s := if e.prot = 0 then s else s.repeatUe ln
    let outside (s : State) : State := if e.prot = 0 || e.state == .active || e.state == .draining then s else s.startRetire (regionOf ln) 2
    if e.prot = 1 then
      match s.reconstruct e ln with
      | some d =>
        let poisoned := s.poison.has ln || s.lost.has ln
        ({ data := d, poison := poisoned, status := if poisoned then 6 else 0 },
          outside ((((s.putLine ln d).chanWrite ln).logUe ln dev true).noteRepair ln))
      | none => (bad, outside ((s.logUe ln dev false).postMediaEvent ln))
    else if e.prot = 2 && (e.mir == .mirrored || e.mir == .resync) then ({ bad with partner := true }, s)
    else
      let s := (s.logUe ln dev false).postMediaEvent ln
      (bad, outside (if e.prot = 0 then s.adviseRetire ln known else s))

/-- The other lines of a parity extent's stripe: its parity line and its data lines (R132). -/
def stripeLines (s : State) (ln : Nat) : List Nat := match s.extAt ln with
  | some (_, e) => if e.prot = 1 then
      parityLine (e.base * 2 ^ 21) (shareBase e) (64 * ln) :: stripeOthers (e.base * 2 ^ 21) (e.len * 2 ^ 21) (64 * ln) else []
  | none => []

/-- What the DRAM returns for a line of the stripe that is read on another line's behalf (R131, R134, R140). -/
def showMedia (s : State) (x : Nat × Media) : State :=
  if s.inHole x.1 || s.chanFailed (lineChan x.1) then s
  else match s.decode x.2 with
    | .clean => s
    | .corrected dev => s.correctedRead x.1 dev
    | .wrong dev d => (s.putLine x.1 d).correctedRead x.1 dev
    | .uncorrectable dev => ({ s with med := { s.med with ue := s.med.ue.set x.1 (dev.getD 15) } }).countUe x.1

/-- What the DRAM returns for a line. -/
def mediaOf (media : List (Nat × Media)) (ln : Nat) : Media := ((media.find? (fun x => x.1 == ln)).map (·.2)).getD .clean

/-- A line of a stripe is read from its channel on another line's behalf, at once or after the calibration that blocks the channel
(R26, R134, R135). -/
def sideRead (media : List (Nat × Media)) (s : State) (ln : Nat) : State :=
  let ch := lineChan ln
  if s.inHole ln || s.chanFailed ch then s
  else if s.chanBusy ch then s.defer ch (.side ln (mediaOf media ln))
  else (s.touch ln false).showMedia (ln, mediaOf media ln)

/-- The rest of a line's stripe is read. -/
def showStripe (s : State) (ln : Nat) (media : List (Nat × Media)) : State := (s.stripeLines ln).foldl (sideRead media) s

/-- What the DRAM returns for the old value of a line that a write reads; an uncorrectable one has the effects of a read that
finds it so (R135, R141, R150). -/
def showOwn (s : State) (ln : Nat) (m : Media) : State := match s.decode m with
  | .uncorrectable dev =>
    if s.inHole ln || s.chanFailed (lineChan ln) then s
    else (({ s with med := { s.med with ue := s.med.ue.set ln (dev.getD 15) } }).uncorrectableRead ln (dev.getD 15) (s.med.ue.has ln)).2
  | _ => s.showMedia (ln, m)

/-- Whether the line buffer of a line's Keystone answers a read of it: it still holds the line. Which of the two serves a buffered line
is the operand's (R21 step 7; DESIGN CHOICE, log entry 64). -/
def bufferHit (s : State) (ln : Nat) (m : Media) : Bool :=
  m == .buffered && s.lineBuf.has ln && !(s.med.ue.has ln) && !(s.inHole ln) && !(s.chanFailed (lineChan ln))

/-- The old value of a line is read for a write, from the line buffer, or from its channel at once or after the calibration that blocks
the channel (R21 step 7, R26, R68, R134). -/
def oldRead (s : State) (ln : Nat) (m : Media) : State :=
  let ch := lineChan ln
  if s.inHole ln || s.chanFailed ch || s.bufferHit ln m then s
  else if s.chanBusy ch then s.defer ch (.old ln m)
  else (s.touch ln false).showOwn ln m

/-- What a write of a line reads first: the old line, where the write merges or its extent has parity; the parity line; and where one
of the two cannot be read the rest of the stripe (R68, R134, R135). -/
def showOld (s : State) (ln : Nat) (full : Bool) (own : Media) (media : List (Nat × Media)) : State :=
  match s.extAt ln with
  | some (_, e) =>
    if e.prot = 1 then
      let par := parityLine (e.base * 2 ^ 21) (shareBase e) (64 * ln)
      let s := sideRead media (s.oldRead ln own) par
      if s.parityBad par || s.unreadable ln then
        (stripeOthers (e.base * 2 ^ 21) (e.len * 2 ^ 21) (64 * ln)).foldl (sideRead media) s
      else s
    else if full then s else s.oldRead ln own
  | none => if full then s else s.oldRead ln own

/-- Write a parity line (R134, R135). -/
def putParity (s : State) (ln : Nat) (d : Line) : State :=
  let s := s.putLine ln d
  { s with poison := s.poison.erase ln, med := { s.med with ue := s.med.ue.erase ln } }.chanWrite ln

/-- Whether the stripe of a line has a parity line that is uncorrectable or written with poison, and all of its data lines can
be read (R135). -/
def parityHeals (s : State) (ln : Nat) : Bool := match s.extAt ln with
  | some (_, e) =>
    let par := parityLine (e.base * 2 ^ 21) (shareBase e) (64 * ln)
    e.prot = 1 && s.parityBad par && !(s.chanFailed (lineChan par)) && !(s.inHole par) && !(s.unreadable ln)
      && !((stripeOthers (e.base * 2 ^ 21) (e.len * 2 ^ 21) (64 * ln)).any s.unreadable)
  | none => false

/-- The first read or patrol that finds all data lines of a stripe readable recomputes its damaged parity line (R135). -/
def healParity (s : State) (ln : Nat) : State :=
  if s.parityHeals ln then
    match s.extAt ln with
    | some (_, e) => s.putParity (parityLine (e.base * 2 ^ 21) (shareBase e) (64 * ln))
        (s.rawLine ln ^^^ s.xorLines (stripeOthers (e.base * 2 ^ 21) (e.len * 2 ^ 21) (64 * ln)))
    | none => s
  else s

/-- Count a read answered with poison as a hole's is, for a line that nothing can recover (R43, R140). -/
def countPoisonRead (s : State) (ln : Nat) : State := match s.compAt ln with
  | some k => s.bumpMeter k mPoisonRd 1
  | none => s

/-- A line as it stands, with the marks it carries. -/
def lineAsHeld (s : State) (ln : Nat) (d : Line) : LineRead :=
  let marked := s.poison.has ln || s.lost.has ln
  { data := d, poison := marked, status := if marked then 6 else 0 }

/-- Read a line whose channel has failed: from its stripe or its partner, or as a hole (R140). -/
def readFailed (s : State) (ln : Nat) : LineRead × State :=
  let bad : LineRead := { data := 0, poison := true, status := 5 }
  match s.extAt ln with
  | some (_, e) =>
    if e.prot = 1 then
      match s.reconstruct e ln with
      | some d => (s.lineAsHeld ln d, s)
      | none => (bad, s.countPoisonRead ln)
    else if e.prot = 2 && (e.mir == .mirrored || e.mir == .resync) then ({ bad with partner := true }, s)
    else (bad, s.countPoisonRead ln)
  | none => (bad, s)

/-- Whether a read of a line needs the rest of its stripe: to give the line, or to make its parity line good (R135, R140). -/
def readsStripe (s : State) (ln : Nat) (m : Media) : Bool :=
  !(s.bufferHit ln m) && !(s.inHole ln) && (s.unreadable ln || s.parityHeals ln || (match s.decode m with
    | .uncorrectable _ => true
    | _ => false))

/-- Read one line from its channel, with what the DRAM returns for it (R131, R150). -/
def readDram (s : State) (ln : Nat) (m : Media) : LineRead × State :=
  let known := s.med.ue.has ln
  let s := s.touch ln false
  let s := match s.decode m with
    | .uncorrectable dev => { s with med := { s.med with ue := s.med.ue.set ln (dev.getD 15) } }
    | _ => s
  match s.med.ue.get? ln with
  | some dev => s.uncorrectableRead ln dev known
  | none =>
    let s := match s.decode m with
      | .corrected dev => s.correctedRead ln dev
      | .wrong dev d => (s.putLine ln d).correctedRead ln dev
      | _ => s
    (s.lineAsHeld ln (s.rawLine ln), (s.healParity ln).keepLine ln)

/-- Read one line at its home Keystone: from the line buffer where it still holds the line, or from its channel (R21 step 7,
R150). -/
def readLine (s : State) (ln : Nat) (m : Media) : LineRead × State :=
  if s.inHole ln then ({ data := 0, poison := true, status := 5 }, s.countPoisonRead ln)
  else if s.chanFailed (lineChan ln) then s.readFailed ln
  else if s.bufferHit ln m then (s.lineAsHeld ln (s.rawLine ln), s)
  else s.readDram ln m

/-- Read one line, and its stripe where that is needed (R21 step 7, R135, R150). `others` is what the DRAM returns for the stripe. -/
def readHome (s : State) (ln : Nat) (m : Media) (others : List (Nat × Media)) : LineRead × State :=
  (if s.readsStripe ln m then s.showStripe ln others else s).readLine ln m

/-- The channel a read of a line waits for: its own, or one that its stripe needs, while it is under calibration. A hit in the line buffer
and a hole are answered at once (R21 step 7, R26, R43). -/
def waitsFor (s : State) (ln : Nat) (m : Media) : Option Nat :=
  if s.bufferHit ln m || s.inHole ln then none
  else if s.chanBusy (lineChan ln) then some (lineChan ln)
  else if s.readsStripe ln m then ((s.stripeLines ln).map lineChan).find? s.chanBusy
  else none

/-- Whether a read of a line waits for a calibration (R26). -/
def readBlocked (s : State) (ln : Nat) (m : Media) : Bool := (s.waitsFor ln m).isSome

/-- An access that waited for a channel's calibration is made (R26). -/
def chanServe (ch : Nat) (s : State) (x : CalAccess) : State :=
  if s.chanFailed ch then s
  else match x with
    | .write ln => s.touch ln true
    | .old ln m => if s.inHole ln then s else (s.touch ln false).showOwn ln m
    | .side ln m => if s.inHole ln then s else (s.touch ln false).showMedia (ln, m)
    | .zero rg => s.zeroOn ch rg

/-- Make the accesses that waited for a channel's calibration, in their order (R26). -/
def serveChan (s : State) (ch : Nat) : State := (s.calAcc.getD ch []).foldl (chanServe ch) { s with calAcc := s.calAcc.erase ch }

/-! ### Landing a write (R64, R68, R69, R134, R136, R140, R142) -/

/-- Waiting descriptors a Keystone watches (R178). -/
def watchedAt (s : State) (k : Nat) : Nat :=
  (s.cmds.vals.filter (fun (c : Cmd) => c.watched && lineHome c.waitLine == k)).length

/-- A landing on the wait line of a descriptor compares its value with WAIT_THRESH, when the descriptor holds a watch slot of its home
Keystone or takes a free one (R177, R178). -/
def compareWait (ln v st : Nat) (s : State) (cid : Nat) : State :=
  match s.cmds.get? cid with
  | none => s
  | some c =>
    if !(c.phase == .waiting && c.waitLine == ln && c.met.isNone) || (!c.watched && 65536 ≤ s.watchedAt (lineHome ln)) then s
    else if st ≠ 0 then s.modCmd cid (fun c => { c with watched := false, met := some st })
    else if fld c.desc 191 128 ≤ v then s.modCmd cid (fun c => { c with watched := false, met := some 0 })
    else s.modCmd cid (fun c => { c with watched := true })

/-- Everything a landing of `new` does to the rest of the block: it wakes ring fetchers that watch the line, compares waits, and is a service
request, when `kv` allows, or an abort record on the lines that take them (R161, R177, R270, R298). -/
def landed (s : State) (ln : Nat) (be : ByteEn) (new : Line) (kv : Bool) : State :=
  let s := s.cmds.keys.foldl (compareWait ln (fld new.toNat 63 0) (s.lineAsHeld ln new).status) s
  let s := { s with rings := s.rings.mapV (fun _ (r : Ring) =>
    if (r.state == RingState.active || r.state == RingState.zeroing || r.state == RingState.error) && r.doorbell == ln then { r with woken := true } else r) }
  let s := if kv && be &&& 0xFFFF = 0xFFFF then
      match s.comps.find? (fun _ (c : Comp) => c.kv.enable && decide (64 * c.kv.base ≤ ln) && decide (ln < 64 * c.kv.base + 64)) with
      | some (k, c) =>
        if s.poison.has ln then s
        else
          let q : KvReq := { key := 64 * k + (ln - 64 * c.kv.base), bits := fld new.toNat 255 0 }
          { s with eng := { s.eng with kvDue := s.eng.kvDue ++ [q] } }
      | none => s
    else s
  match s.eng.grps.find? (fun _ (g : Grp) => g.state != GrpState.free && g.rx / 64 + 2 == ln) with
  | some (g, _) =>
    if s.poison.has ln then s.bump cAbortIgnored 1
    else { s with eng := { s.eng with abortDue := s.eng.abortDue ++ [(g, fld new.toNat 255 0)] } }
  | none => s

/-- The parity update of a write of `new` to a data line, from the stripe as it stands before the write (R134, R135). Where the old data
and the old parity are both unreadable and the six other data lines read, the new parity is known, and the second bullet of R135
applies, not the third (DEDUCED, log entry 69). -/
def updateParity (s : State) (e : Extent) (ln : Nat) (new : Line) : State :=
  let d := 64 * ln
  let b := e.base * 2 ^ 21
  let par := parityLine b (shareBase e) d
  let others := stripeOthers b (e.len * 2 ^ 21) d
  let othersOk := !(others.any s.unreadable)
  let parOk := !(s.parityBad par)
  let oldOk := !(s.unreadable ln)
  let parWritable := !(s.chanFailed (lineChan par) || s.inHole par)
  if parOk && oldOk then s.putParity par (s.rawLine par ^^^ s.rawLine ln ^^^ new)
  else if othersOk then (if parWritable then s.putParity par (new ^^^ s.xorLines others) else s)
  else if parWritable then
    let s := s.putParity par (s.rawLine par)
    { s with poison := s.poison.add par }.logUe par 15 false
  else s.logUe par 15 false

/-- Send the merged line to the partner, when the extent mirrors; a write while DEGRADED marks its region dirty. Answers
the partner write the completion waits for (R136, R138, R139). -/
def mirrorWrite (s : State) (cid : Option Nat) (i : Nat) (e : Extent) (ln : Nat) (d : Line) (poison : Bool) :
    Option Nat × State :=
  if e.prot ≠ 2 || !(e.state == .active) then (none, s)
  else if e.mir == .degraded then
    (none, { s with exts := s.exts.modify i (fun x => { x with dirty := x.dirty.add (regionOf ln) }) })
  else
    let rq : Remote :=
      { head := 0, host := false, port := e.partner, write := true
        addr := e.pbase * 2 ^ 21 + (64 * ln - e.base * 2 ^ 21), len := 64, data := d.toNat, poison := poison
        purpose := .mirror i ln, cid := cid, issued := 0, limit := 0 }
    let r := s.issue rq
    match r.1 with
    | some id => (some id, r.2)
    | none => (none, { r.2 with exts := r.2.exts.modify i (fun x => { x with dirty := x.dirty.add (regionOf ln) }) }.degrade i)

/-- While a region is rebuilt, a write to a line already copied goes to the slot as well, with the marks the line now has; one that leaves
a poisoned line as it is changes nothing there (R142 step 3). A line that gets poison there counts for BAD (R144). -/
def rescueWrite (s : State) (ln : Nat) (d : Line) (stuck poison : Bool) : State :=
  match s.med.rebuilds.get? (regionOf ln) with
  | some b => match b.slot with
    | some sl =>
      if ln % regionLines < b.next && !stuck then
        let dst := sl * regionLines + ln % regionLines
        let bad := b.bad + b2n (poison && !(s.poison.has dst))
        let s := (s.putLine dst d).chanWrite dst
        { s with poison := s.poison.put dst poison, lost := s.lost.put dst (s.lost.has ln)
                 med := { s.med with rebuilds := s.med.rebuilds.set (regionOf ln) { b with bad := bad } } }
      else s
    | none => s
  | none => s

/-- A write's dropped-write count in its composition's meter (R131). -/
def dropWrite (s : State) (ln : Nat) : State :=
  match s.extAt ln with
  | some (_, e) => s.bumpMeter e.comp mDropWr 1
  | none => s

/-- The protection of the extent a line lies in; 0 outside extents. -/
def protAt (s : State) (ln : Nat) : Nat :=
  match s.extAt ln with
  | some (_, e) => e.prot
  | none => 0

/-- Whether a line that cannot be read here may be read from its partner (R137). -/
def partnerReads (e : Extent) : Bool := e.prot == 2 && e.state == .active && (e.mir == .mirrored || e.mir == .resync)

/-- Whether a line's old value has to come from the partner before a write can merge into it (R137). -/
def needsPartner (s : State) (ln : Nat) : Bool :=
  !(s.mirCopy.has ln) && !(s.inHole ln) && (s.med.ue.has ln || s.chanFailed (lineChan ln))
    && match s.extAt ln with | some (_, e) => partnerReads e | none => false

/-- Whether nothing recovers what cannot be read of a line: no stripe, and no partner (R135, R137, R140). -/
def unprotected (s : State) (ln : Nat) : Bool := match s.extAt ln with
  | some (_, e) =>
    if e.prot = 1 then (s.reconstruct e ln).isNone
    else !(partnerReads e) || s.mirCopy.get? ln == some none
  | none => true

/-- Whether a line is poisoned for another reason than a lost mark (R69). -/
def badLine (s : State) (ln : Nat) : Bool :=
  s.poison.has ln || s.inHole ln || (s.unreadable ln && s.unprotected ln)

/-- Whether a line is poisoned (R69). -/
def poisonedLine (s : State) (ln : Nat) : Bool := s.badLine ln || s.lost.has ln

/-- What a write merges into: the line as it stands, rebuilt from its stripe or taken from the partner where it cannot be read
(R134, R137). -/
def oldLine (s : State) (ln : Nat) : Line :=
  match s.mirCopy.get? ln with
  | some (some d) => d
  | _ => match s.extAt ln with
    | some (_, e) => if e.prot = 1 && s.unreadable ln then (s.reconstruct e ln).getD (s.rawLine ln) else s.rawLine ln
    | none => s.rawLine ln

/-- The parity update of a write, in an extent with PARITY (R134). -/
def writeParity (s : State) (ln : Nat) (new : Line) : State :=
  match s.extAt ln with
  | some (_, e) => if e.prot = 1 then s.updateParity e ln new else s
  | none => s

/-- The marks of a written line: its poison, and whether it is lost or uncorrectable still. -/
def markWritten (s : State) (ln : Nat) (pois keepsLost keepsUe : Bool) : State :=
  { s with
    poison := s.poison.put ln pois
    lost := if keepsLost then s.lost else s.lost.erase ln
    med := { s.med with ue := if keepsUe then s.med.ue else s.med.ue.erase ln } }

/-- Write a merged line to its channel, unless the channel has failed or the write leaves the line as it is. -/
def putWritten (s : State) (ln : Nat) (new : Line) (keeps : Bool) : State :=
  if keeps then s else ((s.putLine ln new).chanWrite ln).keepLine ln

/-- The partner's write of a merged line, where the line's extent mirrors (R136). -/
def mirrorLine (s : State) (cid : Option Nat) (ln : Nat) (new : Line) (pois : Bool) : Option Nat × State :=
  match s.extAt ln with
  | some (i, e) => s.mirrorWrite cid i e ln new pois
  | none => (none, s)

/-- A line takes the value `new`, poisoned or not: its parity, its bytes, its marks, the copy a rebuild keeps and the
partner's copy. `stuck` is a partial write to a poisoned line, which leaves its bytes as they are. -/
def setLine (s : State) (cid : Option Nat) (ln : Nat) (new : Line) (stuck pois full pz : Bool) : Option Nat × State :=
  let s1 := if stuck then s else s.writeParity ln new
  let s2 := s1.putWritten ln new (s.chanFailed (lineChan ln) || stuck)
  let s3 := s2.markWritten ln pois (!full || pz) stuck
  let s4 := if s.mirCopy.has ln && !stuck then { s3 with mirCopy := s3.mirCopy.set ln (some new) } else s3
  (s4.rescueWrite ln new stuck pois).mirrorLine cid ln new (pois || s4.lost.has ln || s4.med.ue.has ln)

/-- Whether a write of a line is dropped: it lies in a hole, or on a failed channel with nothing that holds it (R43, R140). -/
def dropsWrite (s : State) (ln : Nat) : Bool := s.inHole ln || (s.chanFailed (lineChan ln) && s.protAt ln ≠ 1 && s.unprotected ln)

/-- Land the bytes of one write on a line, under its byte enables. `full` is a write of all 64 bytes; `pz` its poison
indication. Answers the partner write its completion waits for. It is counted nowhere here. -/
def landBytes (s : State) (cid : Option Nat) (ln : Nat) (data : Line) (be : ByteEn) (full pz : Bool) : Option Nat × State :=
  if s.dropsWrite ln then (none, s.dropWrite ln)
  else
    let stuck := !full && s.poisonedLine ln
    let old := s.oldLine ln
    let new := if stuck then old else if full then data else mergeLine old data be
    s.setLine cid ln new stuck (if full then pz else pz || s.poison.has ln) full pz

/-- Whether a request to a line waits for the partner's copy; writes to the line that come after it wait as well (R65, R137). -/
def writePends (s : State) (ln : Nat) : Bool := s.mirReads.any (fun _ r => r.line == ln)

/-- Ask the partner for the copy of a line, for a request that waits for it (R137). -/
def fetchCopy (s : State) (r : LineReq) : Option Nat × State :=
  match s.extAt r.line with
  | none => (none, s)
  | some (_, e) =>
    let rq : Remote :=
      { head := 0, host := false, port := e.partner, write := false
        addr := e.pbase * 2 ^ 21 + (64 * r.line - e.base * 2 ^ 21), len := 64
        purpose := .mirrorRead r.line, issued := 0, limit := 0 }
    match s.issue rq with
    | (some id, s) => (some id, { s with mirReads := s.mirReads.set id r })
    | (none, s) => (none, s)

/-- An unrecovered uncorrectable read, of a line that its partner could have given: logged and reported, or counted as a hole's
where its channel has failed (R137, R140, R150, R151). -/
def partnerLost (s : State) (ln : Nat) : State :=
  if s.chanFailed (lineChan ln) then s.countPoisonRead ln
  else (s.logUe ln (s.med.ue.getD ln 15) false).postMediaEvent ln

/-- Land a write: its bytes, then its effects as a landing (R64, R161, R177). -/
def landNow (s : State) (cid : Option Nat) (ln : Nat) (data : Line) (be : ByteEn) (full pz kv : Bool) : Option Nat × State :=
  let new := if full then data else mergeLine (s.oldLine ln) data be
  let r := s.landBytes cid ln data be full pz
  (r.1, r.2.landed ln be new kv)

/-- Land a write; one that has to merge into a line only the partner can give waits for that line, and its place is taken by the
request for it (R64, R68, R137). A line the partner cannot be asked for is treated as unprotected. -/
def landLine (s : State) (cid : Option Nat) (ln : Nat) (data : Line) (be : ByteEn) (full pz : Bool) (kv : Bool := true) :
    Option Nat × State :=
  if s.writePends ln || (!full && s.needsPartner ln) then
    let r := s.fetchCopy { kind := .none, cls := .wr, src := 4096, line := ln, data := data, be := be, full := full, poison := pz
                           action := if kv then 0 else 2, cid := cid }
    match r.1 with
    | some id => (some id, r.2)
    | none =>
      let x := { (r.2.partnerLost ln) with mirCopy := r.2.mirCopy.set ln none }.landNow cid ln data be full pz kv
      (x.1, { x.2 with mirCopy := x.2.mirCopy.erase ln })
  else s.landNow cid ln data be full pz kv

/-- Whether a line's request of the controller's own has to take its turn at the ordering point: the directory holds the line, or
requests for it run or wait there (R65, R105). -/
def lineTaken (s : State) (ln : Nat) : Bool :=
  s.trans.has ln || (s.waitQ.getD (lineHome ln) []).any (fun r => r.line == ln)

/-- A write of the controller's own into the store, inside one line: admitted only while the extent is Active, and refused
otherwise as any write is (R45, R63). It counts for no source. On a line the directory holds it is a write like any other (R105). -/
def ownLine (s : State) (ln : Nat) (data : Line) (be : ByteEn) (full : Bool) (pz : Bool := false) : State :=
  if !(s.activeAt ln) then s.dropWrite ln
  else if s.dir.has ln || s.lineTaken ln then
    (s.wait { kind := .none, cls := .wr, src := 4096, line := ln, data := data, be := be, full := full, poison := pz }).charge 256 1
  else ((s.landLine none ln data be full pz).2).charge 256 1

/-- Write a run of bytes of the controller's own, line by line. -/
def ownWrite (s : State) (a : Nat) (bs : List Nat) (pz : Bool := false) : State :=
  (List.range (linesTouched a bs.length)).foldl (fun s j =>
    let ln := a / 64 + j
    let lo := max a (64 * ln)
    let hi := min (a + bs.length) (64 * ln + 64)
    let piece := (bs.drop (lo - a)).take (hi - lo)
    s.ownLine ln (BitVec.ofNat 512 (ofBytes piece <<< (8 * (lo - 64 * ln)))) (beRange (lo - 64 * ln) (hi - lo)) (hi - lo == 64) pz) s

/-- The status of a read of the controller's own that has to wait: for a calibration, or for the partner's copy, or for the line's turn at
the ordering point (R26, R65, R105, R137). What asked for it does nothing yet. -/
def readWaits : Nat := 15

/-- Whether the newest bytes of a line may lie with a holder: its entry is in E, M or O (R105). -/
def heldElsewhere (s : State) (ln : Nat) : Bool := (s.dir.get? ln).any (fun e => e.st == .e || e.st == .m || e.st == .o)

/-- A read of a line for the controller itself, of what has landed on it: what it answers, the status, and the partner asked where only
it has the line (R26, R137). -/
def landedLine (s : State) (ln : Nat) (m : Media) : (Line × Nat) × State :=
  let x := (s.charge 256 1).readHome ln m []
  if x.1.partner then
    match x.2.fetchCopy { kind := .signal, cls := .unc, src := 4096, line := ln } with
    | (some _, s) => ((0, readWaits), s)
    | (none, s) => ((0, 5), s.partnerLost ln)
  else ((x.1.data, x.1.status), x.2)

/-- A read of a line for the controller itself. `asks`: a holder that may have newer bytes is asked for them; otherwise the line is read
as it has landed (R26, R105, R137). -/
def ownReadLine (s : State) (ln : Nat) (m : Media) (asks : Bool := true) : (Line × Nat) × State :=
  if s.readBlocked ln m || s.mirReads.any (fun _ r => r.line == ln) || s.lineTaken ln then ((0, readWaits), s)
  else match s.mirCopy.get? ln with
    | some c =>
      let s := { s with mirCopy := s.mirCopy.erase ln }
      (match c with | some d => (d, (s.lineAsHeld ln d).status) | none => (0, 5), s)
    | none =>
      if asks && s.heldElsewhere ln then ((0, readWaits), s.wait { kind := .signal, cls := .unc, src := 4096, line := ln })
      else s.landedLine ln m

/-- The lines of a read of the controller's own, in order, up to the first that has to wait. -/
def ownReadLines (s : State) (media : List (Nat × Media)) (a n : Nat) : (Nat × Nat) × State :=
  (List.range (linesTouched a n)).foldl (fun (acc : (Nat × Nat) × State) j =>
    let ((v, st), s) := acc
    let ln := a / 64 + j
    let lo := max a (64 * ln)
    let hi := min (a + n) (64 * ln + 64)
    if st = readWaits then acc
    else if !(s.activeAt ln) then ((v, if st = 0 then 6 else st), s.countPoisonRead ln)
    else
      let m := ((media.find? (fun x => x.1 == ln)).map (·.2)).getD .clean
      let ((d, st'), s) := s.ownReadLine ln m
      let piece := fld d.toNat (8 * (hi - 64 * ln) - 1) (8 * (lo - 64 * ln))
      ((v + piece <<< (8 * (lo - a)), if st = 0 || st' = readWaits then st' else st), s)) ((0, 0), s)

/-- A read of the controller's own: the bytes, and the status they give (R45). Lines outside Active extents read as
refused, with poison (R63). A read that waits keeps the copies it was given so far. -/
def ownRead (s : State) (media : List (Nat × Media)) (a n : Nat) : (Nat × Nat) × State :=
  let x := s.ownReadLines media a n
  if x.1.2 = readWaits then (x.1, { x.2 with mirCopy := s.mirCopy }) else x

end State

end Sys2Proof.Machine
end

