-- ==== Sys2Proof/Machine/Access.lean ====
section
/-! DEFINITION. What every request from outside meets first: whether its head takes it, the check of the extent table and
access list, the counts of a source's writes, and refusal (R21 steps 1 to 3, R45, R63, R74, R439). -/

namespace Sys2Proof.Machine

namespace State

/-- Replace what is kept of a head. -/
def modHead (s : State) (h : Nat) (f : Head → Head) : State := { s with heads := s.heads.set h (f (s.headAt h)) }

/-- Whether a head accepts requests: its link is up and no package fault has stopped it (R20). -/
def headTakes (s : State) (h : Nat) : Bool := s.headUp h && !s.sec.pkgFault

/-- Every line request that has been accepted and not answered. -/
def openReqs (s : State) : List LineReq :=
  s.trans.vals.map (·.req) ++ s.waitQ.vals.flatMap (fun l => l) ++ s.owed.vals.flatMap (fun l => l) ++ s.mirReads.vals
    ++ s.calHeld.vals.flatMap (fun l => l.map (·.req)) ++ s.eng.kvDue.filterMap (fun q => q.owed.map (·.2))

/-- CXL.mem requests from outside that a head holds in flight (R63). -/
def memFlight (s : State) (h : Nat) : Nat :=
  let mine (r : LineReq) : Bool := r.head == h && (r.kind == .memRd || r.kind == .memInv || r.kind == .memWr || (r.kind == .flag && decide (r.tag < 65536)))
  (s.openReqs.filter mine).length
    + (s.flags.vals.flatMap (fun f => f.held.filter (fun x => x.head == h && decide (x.tag < 65536) && !x.revoked))).length

/-- UIO requests from outside that a head holds in flight (R63). -/
def uioFlight (s : State) (h : Nat) : Nat :=
  (s.uio.keys.filter (fun k => k / 65536 == h)).length
    + ((s.openReqs.filter (fun r => r.head == h && r.kind == .uioRd)).map (·.tag)).eraseDups.length

/-- Whether a CXL.mem request can reach a head now: without credit none can be sent (R63). -/
def memTakes (s : State) (h : Nat) : Bool := s.headTakes h && decide (s.memFlight h < 4096)

/-- Whether a UIO request can reach a head now (R63). -/
def uioTakes (s : State) (h : Nat) : Bool := s.headTakes h && decide (s.uioFlight h < 1024)

/-- A BAR0 write of a head has landed: CTL_SETUP_SRC notes the head (R189). -/
def landSetup (s : State) (h : Nat) : State :=
  { s with regs := { s.regs with setupSrc := s.regs.setupSrc ||| 2 ^ h } }

/-- Carry out a BAR0 write of a head, when its link can deliver it (R188, R452). -/
def setupWrite (s : State) (h : Nat) (f : State → State) : State := if s.headUp h then f (s.landSetup h) else s

/-- Whether SEC_POLICY.IDE_REQ refuses the requests of a head: its IDE streams are not both Secure (R439). -/
def ideRefuses (s : State) (h : Nat) : Bool :=
  bit (s.cfg offSecPolicy) (16 + h) && !((s.headAt h).ideMem == .secure && (s.headAt h).ideIo == .secure)

/-- Whether an access list lets a source read, or write (R40). -/
def aclAllows (e : Extent) (spid : Nat) (write : Bool) : Bool :=
  e.acl.any (fun a => a.spid == spid && (a.wr || !write))

/-- Step 3 of R21: the extent is Active, the source is on its access list, and the head's IDE policy is met. A hole is
refused in the same way (R43, R63). -/
def admitted (s : State) (h spid dpa : Nat) (write : Bool) : Bool :=
  dpaOk dpa && !s.ideRefuses h && !s.inHole (lineOf dpa) && match s.extAt (lineOf dpa) with
    | some (_, e) => e.state == .active && aclAllows e spid write
    | none => false

/-- Add to the meter of the composition that owns the extent of a DPA, when it lies in one (R63). -/
def meterAt (s : State) (dpa word : Nat) : State :=
  if dpaOk dpa then (match s.compAt (lineOf dpa) with | some c => s.bumpMeter c word 1 | none => s) else s

/-- Add to the counter page of the composition that owns the extent of a line (R402). -/
def countAt (s : State) (ln word n : Nat) : State :=
  match s.compAt ln with | some c => s.bumpCount c word n | none => s

/-- What is kept for a source of writes. -/
def flagSrc (s : State) (spid : Nat) : FlagSource := s.flags.getD spid {}

/-- Replace what is kept for a source. -/
def setFlagSrc (s : State) (spid : Nat) (f : FlagSource) : State := { s with flags := s.flags.set spid f }

/-- Count `n` plain writes of a source (R74). -/
def countWrites (s : State) (spid n : Nat) : State :=
  s.setFlagSrc spid { s.flagSrc spid with count := (s.flagSrc spid).count + n }

/-- A refused write: dropped, counted in DROP_WR when the DPA lies in an extent, and counted for its source (R63, R74). -/
def refuseWrite (s : State) (spid dpa : Nat) : State := (s.meterAt dpa mDropWr).countWrites spid 1

/-- A refused read: counted in POISON_RD when the DPA lies in an extent (R63). -/
def refuseRead (s : State) (dpa : Nat) : State := s.meterAt dpa mPoisonRd

/-- Whether the dynamic-capacity region that covers a line on a head is of type HDM-DB (R51, R466). -/
def hdmDb (s : State) (h ln : Nat) : Bool :=
  (List.range 8).any (fun r =>
    let w := s.cfg (offHed h + 0x100 + 8 * r)
    bit w 63 && bit w 62 && decide (fld w 21 0 ≤ regionOf ln) && decide (regionOf ln < fld w 21 0 + fld w 54 32))

/-- Answer a read whose bytes only the partner could give, and cannot: it is treated as unprotected (R137). -/
def readLost (s : State) (r : LineReq) : State := (s.partnerLost r.line).respond r 0 true

/-- Read a line for a request and answer it; a line whose copy has to come from the partner waits for it (R137, R150). `was` is the line
as it stood at the request's turn, for one that has waited for a calibration since (R26, R65). -/
def readFor (s : State) (r : LineReq) (was : Option (Line × Bool)) : State :=
  let (x, s) := s.readHome r.line r.env.media r.env.others
  if x.partner then
    match s.fetchCopy r with
    | (some _, s) => s
    | (none, s) => s.readLost r
  else match was with
    | some (d, pz) => if x.status = 5 then s.respond r 0 true else s.respond r d pz
    | none => s.respond r x.data x.poison

/-- Serve a read: at once, or at the end of the calibration that blocks a channel it needs (R21 step 7, R26). -/
def serveHeld (s : State) (a : CalAnswer) : State :=
  match s.waitsFor a.req.line a.req.env.media with
  | some ch => { s with calHeld := s.calHeld.set ch (s.calHeld.getD ch [] ++ [a]) }
  | none => s.readFor a.req (some (a.data, a.poison))

/-- Serve a read whose turn it is (R21 step 7, R26). -/
def serveRead (s : State) (r : LineReq) : State :=
  if s.readBlocked r.line r.env.media then
    s.serveHeld { req := r, data := s.oldLine r.line, poison := (s.lineAsHeld r.line 0).poison }
  else s.readFor r none

/-- A channel's calibration is over: the accesses and reads that waited for it are made (R26). -/
def endCalWait (s : State) (ch : Nat) : State :=
  ((s.calHeld.getD ch []).foldl serveHeld { (s.serveChan ch) with calHeld := s.calHeld.erase ch }).ackConflicts

/-- Complete a write once it has landed, or leave its completion to the partner write it waits for (R64, R136). -/
def completeWrite (s : State) (r : LineReq) (partner : Option Nat) : State := match partner with
  | some id => { s with owed := s.owed.set id (s.owed.getD id [] ++ [r]) }
  | none => s.respond r 0 false

/-- The payload bytes a WRITE or DOORBELL action may change: bytes 0 to 55 (R73). -/
def payloadBe (be : ByteEn) : ByteEn := be &&& beRange 0 56

/-- Carry out a flag action on a line as one request at the ordering point (R73). Only ACTION 0 is a service request on a line
that takes them (R270). Answers the partner write its completion waits for, and whether the line was poisoned. -/
def flagAction (s : State) (cid : Option Nat) (ln action : Nat) (payload : Line) (be : ByteEn) : (Option Nat × Bool) × State :=
  if s.poisonedLine ln then ((none, true), s.landed ln (payloadBe be) 0 false)
  else
    let old := fld (s.oldLine ln).toNat 63 0
    let p := fld payload.toNat 63 0
    let r :=
      if action = 1 then s.landLine cid ln (BitVec.ofNat 512 ((old + p) % 2 ^ 64)) (beRange 0 8) false false false
      else if action = 3 then s.landLine cid ln (BitVec.ofNat 512 (max old p)) (beRange 0 8) false false false
      else s.landLine cid ln payload (payloadBe be) false false (action == 0)
    ((r.1, false), r.2)

/-- Log a flag with a reason of R82; `body` is the record without its reason (R416). `own`: the flag's DPA[46:43] is 0, so that its line
may lie in an extent, whose composition counts it (R32, R402). -/
def logFlag (s : State) (ln body reason : Nat) (own : Bool) : State :=
  let k := lineHome ln
  let s := s.bump (cFlagLog + reason) 1
  let s := if own then s.countAt ln pFlagLog 1 else s
  s.logAt k (1244 + k) logFlagKind (if reason = 8 then 1 else 2) (body + put reason 35 28)

/-- Complete a write that has landed, unless it was a KV service request: its completion then leaves after the result has
been written (R270). `before` is how many requests waited before it landed. -/
def completeLanded (s : State) (before : Nat) (r : LineReq) (partner : Option Nat) : State :=
  if before < s.eng.kvDue.length && r.kind != .signal then
    { s with eng := { s.eng with kvDue := s.eng.kvDue.mapIdx (fun i q =>
        if i + 1 = s.eng.kvDue.length then { q with owed := some (partner, r) } else q) } }
  else s.completeWrite r partner

/-- A host's or peer's line write that lands is counted in the page of its extent's composition (R402). -/
def countLanding (s : State) (r : LineReq) : State :=
  if (r.kind == .memWr || r.kind == .uioWr) && !(s.dropsWrite r.line) then s.countAt r.line pLinesWr 1 else s

/-- Land a write request, or carry out its flag action, and complete it (R64, R73, R105). -/
def landHere (s : State) (r : LineReq) : State :=
  if r.kind == .flag || r.kind == .signal then
    let x := s.flagAction none r.line r.action r.data r.be
    (if x.1.2 then x.2.logFlag r.line r.note 8 true else x.2).completeLanded s.eng.kvDue.length r x.1.1
  else
    let x := (s.countLanding r).landLine none r.line r.data r.be r.full r.poison
    x.2.completeLanded s.eng.kvDue.length r x.1

/-- Land a write request whose line is treated as unprotected, since its partner's copy cannot be had (R137). -/
def landWithout (s : State) (r : LineReq) : State :=
  let s := { (s.partnerLost r.line) with mirCopy := s.mirCopy.set r.line none }.landHere r
  { s with mirCopy := s.mirCopy.erase r.line }

/-- Land a write request. One that has to merge into a line only the partner can give waits for it (R68, R137). -/
def landReq (s : State) (r : LineReq) : State :=
  let s := if r.kind == .flag || r.kind == .signal then s else s.showOld r.line r.full r.env.media r.env.others
  if !r.full && s.needsPartner r.line then
    match s.fetchCopy r with
    | (some _, s) => s
    | (none, s) => s.landWithout r
  else s.landHere r

end State

end Sys2Proof.Machine
end

