-- ==== Sys2Proof/Machine/Coherence.lean ====
section
/-! DEFINITION. The directory and its coherence transactions: entries and pointers, snoops and recalls, the transitions of
R105, allocation and eviction, hosts that go down and the lost-line log (R96 to R123). -/

namespace Sys2Proof.Machine

/-! ### Entries and pointers (R96 to R98, R110) -/

/-- The code of a directory state (R97, R99). -/
def DirState.code : DirState → Nat
  | .i => 0 | .s => 1 | .f => 2 | .e => 3 | .m => 4 | .o => 5

/-- The entry word of R97. A BCAST entry without a pointer reads NPTR and PTR0 as 0 (DESIGN CHOICE, log entry 16). -/
def DirEntry.word (e : DirEntry) : Nat :=
  put e.comp 63 56 + put e.st.code 55 53 + put (b2n e.bcast) 52 52 + put e.own 51 50 + put (e.ptrs.length - 1) 49 48
    + put (nth e.ptrs 3 0) 47 36 + put (nth e.ptrs 2 0) 35 24 + put (nth e.ptrs 1 0) 23 12 + put (nth e.ptrs 0 0) 11 0

/-- Whether a pointer names a Course buffer (R98). -/
def isCourse (p : Nat) : Bool := 4080 ≤ p && p < 4096

/-- The holder in E or M, the owner in O, or the forwarder in F. -/
def DirEntry.lead (e : DirEntry) : Nat := nth e.ptrs e.own 0

/-- The state that follows when the owner or forwarder leaves a shared line (R105, R118). `none` frees the entry. -/
def DirEntry.relead (e : DirEntry) : Option DirEntry :=
  if e.ptrs.isEmpty then (if e.bcast then some { e with st := .s, own := 0 } else none)
  else match firstIdx isCourse e.ptrs with
    | some i => some { e with st := .f, own := i }
    | none => some { e with st := .s, own := 0 }

/-- The entry without a pointer; the pointers above it move down (R98), and the state follows the removal (R105). `none`
frees the entry. BCAST stays, with fewer pointers (DESIGN CHOICE, log entry 16). -/
def DirEntry.without (e : DirEntry) (p : Nat) : Option DirEntry :=
  match firstIdx (· == p) e.ptrs with
  | none => some e
  | some i =>
    let ptrs := e.ptrs.take i ++ e.ptrs.drop (i + 1)
    let e' := { e with ptrs := ptrs }
    match e.st with
    | .e => none
    | .m => none
    | .i => none
    | .s => if ptrs.isEmpty && !e.bcast then none else some e'
    | _ => if i = e.own then e'.relead else some { e' with own := if i < e.own then e.own - 1 else e.own }

/-- The entry with a further sharer, who becomes forwarder when `fwd` (R105, R110). -/
def DirEntry.plus (e : DirEntry) (r : Nat) (fwd : Bool) : DirEntry :=
  if e.ptrs.contains r then (if fwd then { e with st := .f, own := (firstIdx (· == r) e.ptrs).getD 0 } else e)
  else if e.ptrs.length < 4 then
    { e with ptrs := e.ptrs ++ [r], st := if fwd then .f else e.st, own := if fwd then e.ptrs.length else e.own }
  else if fwd then
    let at_ := if e.st == .f then e.own else 3
    { e with bcast := true, st := .f, own := at_, ptrs := setNth e.ptrs at_ r }
  else { e with bcast := true }

namespace State

/-- Entries of a composition at one Keystone, or at all of them (R112). -/
def dirCount (s : State) (c : Nat) : Nat := (s.dir.vals.filter (fun e => e.comp == c)).length

/-- The entry of a composition allocated longest ago at a Keystone, among those with no transaction pending. -/
def dirOldest (s : State) (c k : Nat) : Option Nat :=
  (s.dir.fold (fun (best : Option (Nat × Nat)) ln e =>
    if e.comp == c && lineHome ln == k && !s.trans.has ln then
      (match best with
       | some (_, o) => if e.order < o then some (ln, e.order) else best
       | none => some (ln, e.order))
    else best) none).map (·.1)

/-- Whether a composition holds an entry at a Keystone. -/
def dirHolds (s : State) (c k : Nat) : Bool := s.dir.any (fun ln e => e.comp == c && lineHome ln == k)

/-- The lines that have an entry in the set of a line, at its home (R96). -/
def dirWays (s : State) (ln : Nat) : List Nat :=
  s.dir.keys.filter (fun l => lineHome l == lineHome ln && dirSet l == dirSet ln)

/-- Transactions running at a Keystone (R111). -/
def transAt (s : State) (k : Nat) : Nat := (s.trans.keys.filter (fun l => lineHome l == k)).length

/-- Write an entry, or free it. -/
def setDir (s : State) (ln : Nat) (e : Option DirEntry) : State := match e with
  | some e => { s with dir := s.dir.set ln e }
  | none => { s with dir := s.dir.erase ln }

/-- Allocate an entry for a line with one sharer (R105, R111). -/
def newDir (s : State) (ln : Nat) (st : DirState) (r : Nat) : State :=
  { s with dirOrder := s.dirOrder + 1
           dir := s.dir.set ln { comp := (s.compAt ln).getD 0, st := st, ptrs := [r], order := s.dirOrder } }

/-! ### The lost-line log (R119, R122, R123) -/

/-- Entries of the lost-line log that wait for their turn at the ordering point (R123). -/
def lostWaits (s : State) : Nat := (s.openReqs.filter (fun r => r.kind == .lost)).length

/-- Write one entry of the lost-line log with the controller's own port as source. It advances WR as it is written (R123). -/
def putLost (s : State) (addr : Nat) (entry : Nat) : State :=
  let r : LineReq := { kind := .lost, cls := .wr, src := 4096, line := addr / 64
                       data := BitVec.ofNat 512 (entry <<< (8 * (addr % 64))), be := beRange (addr % 64) 16 }
  (if s.dir.has r.line || s.lineTaken r.line then s.wait r else s.landReq r).charge 256 1

/-- Mark a line lost and write, or count, its log entry. -/
def loseLine (s : State) (ln held cause holder : Nat) : State :=
  let s := { s with lost := s.lost.add ln }
  let cfg := s.cfg offCohLostCfg
  let size := 2 ^ fld cfg 36 32
  let wr := (s.lostWr + s.lostWaits) % 2 ^ 32
  let addr := fld cfg 30 0 * 4096 + 16 * (wr % size)
  let (ext, comp, gen) := match s.extAt ln with
    | some (i, e) => (i, e.comp, e.gen)
    | none => (0, 0, 0)
  let entry := put s.stamp40 127 88 + put comp 87 80 + put gen 79 72 + put ext 71 58 + put held 57 55
    + put cause 54 52 + put holder 51 40 + put ln 36 0
  if bit cfg 40 && s.activeAt (addr / 64) && (wr + 2 ^ 32 - s.lostRd) % 2 ^ 32 < size then s.putLost addr entry
  else { s with lostDrop := (s.lostDrop + 1) % 2 ^ 32 }

/-! ### Snoops, recalls and the end of a transaction (R102, R103, R105 to R110) -/

/-- Queue a message to a Course buffer (R103). -/
def tellBuf (s : State) (die ln : Nat) (m : BufMsg) : State :=
  let key := 4 * die + lineHome ln
  { s with toBuf := s.toBuf.set key (s.toBuf.getD key [] ++ [{ msg := m, line := ln }]) }

/-- Snoops in flight on a head (R102). -/
def snoopsOn (s : State) (h : Nat) : Nat :=
  s.trans.fold (fun n _ t => n + (t.snoops.filter (fun x => x.head == h && x.sentAt.isSome)).length) 0

/-- Send one snoop that waits, if its head's link is up and has a place free (R84, R102). -/
def sendSnoop (h : Nat) (s : State) (q : Nat × Nat) : State :=
  match s.trans.get? q.1 with
  | none => s
  | some t => match t.snoops.find? (fun x => x.spid == q.2 && x.head == h && x.sentAt.isNone) with
    | some x =>
      if s.headUp h && s.snoopsOn h < 1024 then
        let sent (y : Snoop) : Snoop := if y.spid = x.spid then { y with sentAt := some s.now, limit := s.biTimeout } else y
        { s with trans := s.trans.set q.1 { t with snoops := t.snoops.map sent } }.emit (.snoop h x.spid q.1 x.op)
      else s
    | none => s

/-- The snoops that wait for a place on a head: line and host (R102). -/
def snoopsDue (s : State) (h : Nat) : List (Nat × Nat) :=
  s.trans.fold (fun l ln t => l ++ (t.snoops.filter (fun x => x.head == h && x.sentAt.isNone)).map (fun x => (ln, x.spid))) []

/-- Send every snoop that waits for a place on a head, as far as there are places (R102). -/
def pumpSnoops (s : State) (h : Nat) : State := (s.snoopsDue h).foldl (sendSnoop h) s

/-- The agents a broadcast invalidation goes to: every host of the access list that can hold a line, apart from hosts
declared down, and every Course buffer of a die not withdrawn (R101, R110). -/
def broadcastTo (s : State) (ln : Nat) : List Nat × List Nat :=
  let hosts := match s.extAt ln with
    | some (_, e) => (e.acl.map (·.spid)).eraseDups.filter (fun p => p < 4080 && !s.hostDown.has p)
    | none => []
  let dies := (List.range 16).filter (fun c => !(s.courses.getD c {}).withdrawn)
  (hosts, dies)

/-- The agents an invalidation of an entry goes to, apart from `keep` (R105, R110). -/
def invalidees (s : State) (ln : Nat) (e : DirEntry) (keep : Option Nat) : List Nat × List Nat :=
  let (hs, cs) := if e.bcast then s.broadcastTo ln
    else (e.ptrs.filter (fun p => !isCourse p), (e.ptrs.filter isCourse).map (· - 4080))
  (hs.filter (fun p => some p != keep), cs.filter (fun c => some (c + 4080) != keep))


/-- Record a directory line's new single holder or sharers; without an entry a free way of its set is taken (R105). The
answer says whether the line is tracked. -/
def track (s : State) (ln : Nat) (st : DirState) (ptrs : List Nat) (own : Nat) : Bool × State :=
  match s.dir.get? ln with
  | some e => (true, s.setDir ln (some { e with st := st, ptrs := ptrs, own := own, bcast := false }))
  | none =>
    if (s.dirWays ln).length < 12 then
      let s := s.newDir ln st 0
      (true, { s with dir := s.dir.modify ln (fun e => { e with ptrs := ptrs, own := own }) })
    else (false, s)

/-- A source that takes no entry: a host declared down, a source beyond the pointers, or a withdrawn die (R20, R101, R120). -/
def takesNone (s : State) (r : LineReq) : Bool :=
  if r.course then (s.courses.getD (r.src - 4080) {}).withdrawn else s.hostDown.has r.src || decide (4080 ≤ r.src)

/-- Whether an entry names a request's source. A source beyond the pointers is never named (R101). -/
def names (e : DirEntry) (r : LineReq) : Bool := e.ptrs.contains r.src && (r.course || decide (r.src < 4080))

/-- Answer a request with a state granted: with the data a buffer sent, or from the line buffer or DRAM. A request for
ownership alone carries no data (R100, R105). A lost line grants nothing (R119), and neither does a source that takes no entry. -/
def grantReq (s : State) (r : LineReq) (g : Nat) (data : Option (Line × Bool)) : State :=
  let g := if s.takesNone r then 0 else g
  if r.kind == .memInv then s.respond { r with grant := g } 0 false
  else match data with
    | some (d, pz) => s.respond { r with grant := g } d pz
    | none => s.serveRead { r with grant := g }

/-- Answer a caching request that is granted no state: data or poison for a read, Cmp alone for ownership (R112, R119,
R120). -/
def uncachedAnswer (s : State) (r : LineReq) : State :=
  if r.kind == .memInv then s.respond { r with grant := 0 } 0 false else s.serveRead { r with grant := 0 }

/-- The requester becomes the single holder, in E or M (R105). -/
def soleHolder (s : State) (r : LineReq) (st : DirState) (data : Option (Line × Bool)) : State :=
  if s.lost.has r.line then s.uncachedAnswer r
  else
    let (ok, s) := s.track r.line st [r.src] 0
    if ok then s.grantReq r 2 data else s.uncachedAnswer r

/-- A read for sharing of a line no one holds: S for a host, E for a Course buffer (R105). -/
def readFromI (s : State) (r : LineReq) : State :=
  if s.lost.has r.line then s.uncachedAnswer r
  else if r.course then s.soleHolder r .e none
  else
    let (ok, s) := s.track r.line .s [r.src] 0
    if ok then s.grantReq r 1 none else s.uncachedAnswer r

/-- A read for sharing joins the sharers that remain; a Course requester becomes forwarder unless an owner holds the
line (R105, R110). -/
def joinSharers (s : State) (r : LineReq) (data : Option (Line × Bool)) : State :=
  if s.lost.has r.line then s.uncachedAnswer r
  else match s.dir.get? r.line with
    | none => s.readFromI r
    | some e => (s.setDir r.line (some (e.plus r.src (r.course && !(e.st == .o))))).grantReq r 1 data

/-- End a read for sharing whose line was held in E or M, from what the holder answered (R105). -/
def endShareRead (s : State) (r : LineReq) (x : Nat) (a : Answer) (data : Option (Line × Bool)) : State :=
  if s.lost.has r.line then s.uncachedAnswer r
  else
    let shared (s : State) (st : DirState) (ptrs : List Nat) (own : Nat) (d : Option (Line × Bool)) : State :=
      let (ok, s) := s.track r.line st ptrs own
      if ok then s.grantReq r 1 d else s.uncachedAnswer r
    match a with
    | .hostS => shared s (if r.course then .f else .s) [x, r.src] (if r.course then 1 else 0) none
    | .hostE => shared s (if r.course then .f else .s) [x, r.src] (if r.course then 1 else 0) none
    | .hostI => shared s (if r.course then .f else .s) [r.src] 0 none
    | .clean => shared s .f [x, r.src] (if r.course then 1 else 0) data
    | .dirty => shared s .o [x, r.src] 0 data
    | .miss => ({ s with dir := s.dir.erase r.line }).readFromI r

/-- What an agent answered in a transaction. -/
def answerOf (t : Trans) (p : Nat) : Option Answer := (t.answers.find? (fun a => a.1 == p)).map (·.2)

/-- The request of a transaction proceeds against the line's state, every answer being in and dirty data landed (R105 to R109). -/
def settleReq (s : State) (ln : Nat) (t : Trans) : State :=
  let r := t.req
  let data := t.data.map (fun d => (d, t.poison))
  match r.cls with
  | .evict => { s with dir := s.dir.erase ln }
  | .wr => ({ s with dir := s.dir.erase ln }).landReq r
  | .drop => s.respond { r with grant := 0 } 0 false
  | .rdE => s.soleHolder r .e none
  | .own => s.soleHolder r .m none
  | .rdS =>
    match s.dir.get? ln with
    | none => s.readFromI r
    | some e =>
      match answerOf t e.lead with
      | none => s.joinSharers r none
      | some a =>
        if e.st == .e || e.st == .m then s.endShareRead r e.lead a data
        else match a with
          | .miss =>
            match e.without e.lead with
            | some e' => (s.setDir ln (some e')).joinSharers r none
            | none => if r.course && e.st == .f then
                (s.setDir ln (some { e with ptrs := [r.src], own := 0, bcast := false })).grantReq r 1 none
              else ({ s with dir := s.dir.erase ln }).readFromI r
          | _ => s.joinSharers r data
  | .unc =>
    let s := match s.dir.get? ln with
      | none => s
      | some e => match answerOf t e.lead with
        | some .hostI => s.setDir ln (e.without e.lead)
        | some .miss => s.setDir ln (e.without e.lead)
        | _ => s
    match data with
    | some (d, pz) => s.respond { r with grant := 0 } d pz
    | none => s.serveRead { r with grant := 0 }

/-- End a transaction. A requester that went down or was withdrawn meanwhile is not recorded (R20, R120). -/
def settle (s : State) (ln : Nat) (t : Trans) : State :=
  let s := ({ s with trans := s.trans.erase ln }).settleReq ln t
  if s.takesNone t.req then (match s.dir.get? ln with
    | some e => if names e t.req then s.setDir ln (e.without t.req.src) else s
    | none => s)
  else s

/-- Whether the extent of a line is being scrubbed: dirty data of its lines is discarded (R49). -/
def inScrub (s : State) (ln : Nat) : Bool := (s.extAt ln).any (fun x => x.2.state == .scrubbing)

/-- Record an agent's answer in a line's transaction, and end the transaction with the last one. Dirty data a recall
returns lands before the request, unless the scrub discards it; data sent for a requester travels with it (R105, R49). -/
def answered (s : State) (ln p : Nat) (a : Answer) (msg : Option BufMsg) (data : Line) (pz : Bool) : State :=
  match s.trans.get? ln with
  | none => s
  | some t =>
    let lands := a == .dirty && msg == some .recallInv
    let carries := !lands && (a == .dirty || a == .clean)
    let t' : Trans :=
      { t with snoops := t.snoops.filter (fun x => x.spid != p), recalls := t.recalls.filter (fun x => x.1 + 4080 != p)
               answers := t.answers ++ [(p, a)], data := if carries && msg != some .recallInv then some data else t.data
               poison := if carries && msg != some .recallInv then pz else t.poison }
    let s := { s with trans := s.trans.set ln t' }
    let s := if lands && !t.req.discard && !(s.inScrub ln) then (s.landLine none ln data beAll true pz).2 else s
    if t'.snoops.isEmpty && t'.recalls.isEmpty then s.settle ln t' else s

/-! ### Hosts that go down (R116 to R119) -/

/-- The walk of one entry for a host declared down (R118). The answer counts lost lines. -/
def walkEntry (spid cause : Nat) (acc : State × Nat) (ln : Nat) : State × Nat :=
  let (s, n) := acc
  match s.dir.get? ln with
  | none => acc
  | some e =>
    if !(e.ptrs.contains spid) then acc
    else if e.st == .e || e.st == .m then
      (({ s with dir := s.dir.erase ln }).loseLine ln e.st.code cause spid, n + 1)
    else (s.setDir ln (e.without spid), n)

/-- Declare a host down: its lines in E and M become lost, its pointers go, and transactions that wait on it end as if it
had answered BIRspI without data (R116, R118). The trigger is the cause of R122: 0 BI_TIMEOUT, 1 LINK_DOWN, 2 HOST_DOWN. -/
def declareDown (s : State) (spid trigger : Nat) : State :=
  if 4080 ≤ spid || s.hostDown.has spid then s
  else
    let s := { s with hostDown := s.hostDown.add spid }
    let (s, n) := s.dir.keys.foldl (walkEntry spid trigger) (s, 0)
    let s := s.alarm 0 10 (put spid 11 0 + put trigger 13 12 + (satAt 0x3FFFF n) <<< 14)
    let s := s.trans.keys.foldl (fun s ln => match s.trans.get? ln with
      | some t => if t.snoops.any (fun x => x.spid == spid) then s.answered ln spid .hostI none 0 false else s
      | none => s) s
    (List.range 12).foldl pumpSnoops s

/-! ### Admission (R65, R100, R105, R111 to R113) -/

/-- Start a transaction: snoop the hosts and recall from the buffers named (R102, R103, R106). -/
def startTrans (s : State) (r : LineReq) (op : SnoopOp) (msg : BufMsg) (hosts dies : List Nat) : State :=
  let ln := r.line
  let mk (p : Nat) : Snoop := { spid := p, op := op, head := (s.route p).getD 0, sentAt := none, limit := s.biTimeout }
  let t : Trans := { req := r, snoops := hosts.map mk, recalls := dies.map (fun d => (d, msg)) }
  if hosts.isEmpty && dies.isEmpty then s.settle ln t
  else
    let s := { s with trans := s.trans.set ln t }
    let s := dies.foldl (fun s d => s.tellBuf d ln msg) s
    (hosts.map (fun p => (s.route p).getD 0)).eraseDups.foldl pumpSnoops s

/-- Declare down every host of a list that no route reaches (R468). -/
def dropUnrouted (s : State) (hosts : List Nat) : State :=
  hosts.foldl (fun s p => if (s.route p).isNone then s.declareDown p 0 else s) s

/-- Start the invalidation of a line's entry, which is freed at its end (R58, R111, R112). -/
def evictLine (s : State) (ln : Nat) (discard : Bool) : State :=
  match s.dir.get? ln with
  | none => s
  | some e =>
    if s.trans.has ln then s
    else
      let s := s.dropUnrouted (s.invalidees ln e none).1
      match s.dir.get? ln with
      | none => s
      | some e =>
        let (hs, cs) := s.invalidees ln e none
        s.startTrans { kind := .none, cls := .evict, src := 4096, line := ln, discard := discard } .inv .recallInv hs cs

/-- Invalidate a line by broadcast, whatever its entry claims (R113). -/
def evictBroadcast (s : State) (ln : Nat) : State :=
  let s := s.dropUnrouted (s.broadcastTo ln).1
  let (hs, cs) := s.broadcastTo ln
  s.startTrans { kind := .none, cls := .evict, src := 4096, line := ln } .inv .recallInv hs cs

/-- What admission does beside the line: a write counts for its source, reads of hosts and peers count in the composition's page, and
each request of a host or peer bears its share of the energy (R74, R393, R402). -/
def countAdmitted (s : State) (r : LineReq) : State := match r.kind with
  | .memWr => (s.countWrites r.src 1).charge ((s.compAt r.line).getD 256) 1
  | .uioWr => (s.countWrites r.src 1).charge ((s.compAt r.line).getD 256) 1
  | .memInv => s.charge ((s.compAt r.line).getD 256) 1
  | .flag => s.charge ((s.compAt r.line).getD 256) 1
  | .memRd => (s.countAt r.line pLinesRd 1).charge ((s.compAt r.line).getD 256) 1
  | .uioRd => (s.countAt r.line pLinesRd 1).charge ((s.compAt r.line).getD 256) 1
  | _ => s

/-- A write-back from the recorded holder: full, from a host in E or M, with MetaValue I or S (R100). -/
def isWriteback (e : DirEntry) (r : LineReq) : Bool :=
  r.kind == .memWr && decide (r.src < 4080) && r.full && r.grant < 2 && (e.st == .e || e.st == .m) && e.lead == r.src

/-- A partial write from the recorded holder in E or M, whose writer is kept as x (R100). -/
def isHolderPartial (e : DirEntry) (r : LineReq) : Bool :=
  r.kind == .memWr && decide (r.src < 4080) && !r.full && (e.st == .e || e.st == .m) && e.lead == r.src

/-- Whether a request takes a directory entry when its line has none. -/
def wantsEntry (r : LineReq) : Bool := r.cls == .rdS || r.cls == .rdE || r.cls == .own

/-- Whether the composition of a line holds fewer directory entries than its quota (R112). -/
def withinDirQuota (s : State) (ln : Nat) : Bool :=
  let c := (s.compAt ln).getD 0
  decide (s.dirCount c < nth (s.comps.getD c {}).quota 1 0)

/-- Whether the set of a line has a way that holds no entry (R111). -/
def wayFree (s : State) (ln : Nat) : Bool := decide ((s.dirWays ln).length < 12)

/-- The way of a line's set allocated longest ago among those with no transaction pending (R111). -/
def wayOldest (s : State) (ln : Nat) : Option Nat :=
  let ord (l : Nat) : Nat := ((s.dir.get? l).map (·.order)).getD 0
  match (s.dirWays ln).filter (fun l => !s.trans.has l) with
  | [] => none
  | l :: ls => some (ls.foldl (fun b x => if ord x < ord b then x else b) l)

/-- Recall the line whose entry makes room for a request, which waits until it is freed; nothing is recalled while no line
can be, or while the Keystone runs all its transactions (R111). -/
def recallFor (s : State) (r : LineReq) (victim : Option Nat) : LineReq × State := match victim with
  | some v => if s.transAt (lineHome r.line) < 4096 then ({ r with room := some v }, s.evictLine v false)
    else ({ r with starved := true }, s)
  | none => (r, s)

/-- Make room for a new entry of a request's line: one recall for its composition's quota, then a way of the set. The answer
is `some true` when an entry may be taken, `some false` when the request is served uncached, and `none` when it waits
(R111, R112). -/
def makeRoom (s : State) (r : LineReq) : Option Bool × LineReq × State :=
  let k := lineHome r.line
  let c := (s.compAt r.line).getD 0
  if r.room.any s.trans.has then (none, r, s)
  else if r.room.isSome || s.withinDirQuota r.line then
    if s.wayFree r.line then (some true, r, s) else (none, s.recallFor r (s.wayOldest r.line))
  else if s.dirHolds c k then (none, s.recallFor r (s.dirOldest c k))
  else (some false, r, s)

/-- Handle a request against a line that no one holds (R105). Answers whether it was admitted, and the request as it waits
otherwise. -/
def admitI (s : State) (r : LineReq) : Bool × LineReq × State := match r.cls with
  | .unc => (true, r, (s.countAdmitted r).serveRead { r with grant := 0 })
  | .wr => (true, r, (s.countAdmitted r).landReq r)
  | .drop => (true, r, s.respond { r with grant := 0 } 0 false)
  | .evict => (true, r, s)
  | _ => match s.makeRoom r with
    | (none, r, s) => (false, r, s)
    | (some false, r, s) => (true, r, (s.countAdmitted r).uncachedAnswer r)
    | (some true, r, s) =>
      let s := s.countAdmitted r
      (true, r, if r.cls == .rdS then s.readFromI r else s.soleHolder r (if r.cls == .rdE then .e else .m) none)

/-- Handle a request against an entry, once its own pointer has been dealt with (R105). -/
def admitHeld (s : State) (r : LineReq) (e : DirEntry) : Bool × State :=
  let ln := r.line
  let direct := (r.cls == .rdS && (e.st == .s || (e.st == .f && !r.course))) || (r.cls == .unc && (e.st == .s || e.st == .f))
  if direct then
    let s := s.countAdmitted r
    (true, if r.cls == .unc then s.serveRead { r with grant := 0 } else s.joinSharers r none)
  else if 4096 ≤ s.transAt (lineHome ln) then (false, s)
  else
    let s := s.countAdmitted r
    let inv (s : State) : State :=
      let keep := if r.cls == .wr then none else some r.src
      let (hs, cs) := s.invalidees ln e keep
      s.startTrans r .inv .recallInv hs cs
    (true, match r.cls with
      | .rdS =>
        if isCourse e.lead then
          s.startTrans r .data (if e.st == .e || e.st == .m then .recallShare else .fwd) [] [e.lead - 4080]
        else s.startTrans r .data .fwd [e.lead] []
      | .unc => if isCourse e.lead then s.startTrans r .cur .fwd [] [e.lead - 4080] else s.startTrans r .cur .fwd [e.lead] []
      | _ => inv s)

/-- Hosts a request would have to snoop. -/
def snoopsFor (s : State) (r : LineReq) (e : DirEntry) : List Nat :=
  if r.cls == .wr || r.cls == .rdE || r.cls == .own then
    (s.invalidees r.line e (if r.cls == .wr then none else some r.src)).1
  else if (e.st == .e || e.st == .m) && !(isCourse e.lead) then [e.lead] else []

/-- Admit a request whose own pointer has been dealt with, by the entry as it now stands (R105, R120). -/
def admitRest (s : State) (r : LineReq) : Bool × LineReq × State :=
  if s.lost.has r.line && wantsEntry r then (true, r, (s.countAdmitted r).uncachedAnswer r)
  else match s.dir.get? r.line with
    | none => s.admitI r
    | some e => let x := s.admitHeld r e; (x.1, { r with starved := !x.1 }, x.2)

/-- Hosts without a route that a request would snoop are declared down first (R468). -/
def dropSnooped (s : State) (r : LineReq) : State :=
  match s.dir.get? r.line with
  | some e => s.dropUnrouted (s.snoopsFor r e)
  | none => s

/-- The recorded holder writes its line back: the entry goes, or becomes S (R100). -/
def takeWriteback (s : State) (r : LineReq) (e : DirEntry) : State :=
  ((s.countAdmitted r).setDir r.line
    (if r.grant = 1 then some { e with st := .s, own := 0, bcast := false } else none)).landReq r

/-- The requester's own pointer leaves the entry, unless its request keeps it; a Course buffer's that misses on a line it is named
for leaves alike (R100, R105; DESIGN CHOICE, log entry 16). -/
def leaveOwn (s : State) (r : LineReq) (e : DirEntry) : State :=
  let keepOwn := (r.course && r.cls == .own && !(e.st == .e || e.st == .m)) || isHolderPartial e r
  if names e r && !keepOwn then s.setDir r.line (e.without r.src) else s

/-- A host gives up its copy: its pointer goes, and the state follows (R100). -/
def giveUp (s : State) (r : LineReq) : State :=
  (match s.dir.get? r.line with
    | some e => (s.countAdmitted r).leaveOwn r e
    | none => s.countAdmitted r).respond { r with grant := 0 } 0 false

/-- Admit a request whose entry reads without an uncorrectable error. -/
def admitEntry (s : State) (r0 : LineReq) : Bool × LineReq × State :=
  if r0.cls == .drop then (true, r0, s.giveUp r0)
  else if s.lost.has r0.line && wantsEntry r0 then (true, r0, (s.countAdmitted r0).uncachedAnswer r0)
  else if s.takesNone r0 && r0.cls == .own then (true, r0, (s.countAdmitted r0).uncachedAnswer r0)
  else
    let r := if s.takesNone r0 && (r0.cls == .rdS || r0.cls == .rdE) then { r0 with cls := .unc, grant := 0 } else r0
    match s.dir.get? r.line with
    | none => s.admitI r
    | some e =>
      if isWriteback e r then (true, r, s.takeWriteback r e)
      else ((s.leaveOwn r e).dropSnooped r).admitRest r

/-- An entry read with a corrected error is counted (R113). -/
def countDirFix (s : State) (r : LineReq) : State :=
  if r.env.dir == .single && s.dir.has r.line then { s with dirFix := s.dirFix + 1 } else s

/-- A request whose reading of the directory entry has been taken account of. -/
def readDone (r : LineReq) : LineReq := { r with env := { r.env with dir := .none } }

/-- Serve a request to a software-coherent line: nothing is recorded, and a caching request has the state asked for (R91). -/
def serveSoft (s : State) (r : LineReq) : State :=
  let s := s.countAdmitted r
  match r.cls with
  | .wr => s.landReq r
  | .unc => s.serveRead { r with grant := 0 }
  | .own => if r.kind == .memInv then s.respond r 0 false else s.serveRead r
  | .drop => s.respond { r with grant := 0 } 0 false
  | _ => s.serveRead r

/-- Whether a request to a line waits for the partner's copy of it: later requests to the line wait as well (R65, R137). -/
def lineBusy (s : State) (ln : Nat) : Bool := s.mirReads.any (fun _ r => r.line == ln)

/-- The coherence mode of a line's extent (R40). -/
def cohOf (s : State) (ln : Nat) : Nat := match s.extAt ln with | some (_, e) => e.coh | none => 0

/-- Refuse a request that waited for a transaction, and so was not admitted, when step 3 of R21 no longer admits it (R45, R63,
R111). A command whose local signal or flag is refused ends with REVOKED (R179, R240), a flag is logged (R80), and an entry of the
lost-line log is not written (R123). -/
def refuseLate (s : State) (r : LineReq) : State := match r.kind with
  | .memRd => (s.refuseRead (64 * r.line)).respond { r with grant := 0 } 0 true
  | .uioRd => (s.refuseRead (64 * r.line)).respond r 0 true
  | .memWr => (s.refuseWrite r.src (64 * r.line)).respond r 0 false
  | .uioWr => (s.refuseWrite r.src (64 * r.line)).respond r 0 false
  | .flag => ((s.dropWrite r.line).logFlag r.line r.note 10 true).respond r 0 false
  | .signal => (s.dropWrite r.line).modCmd r.tag (failWith s.stamp 4)
  | .lost => { s.dropWrite r.line with lostDrop := (s.lostDrop + 1) % 2 ^ 32 }
  | .none => s.dropWrite r.line
  | _ => s.respond { r with grant := 0 } 0 false

/-- Whether a kind of request comes from outside, and is decided by an access list (R21 step 3). -/
def outsideKind : ReqKind → Bool
  | .memRd | .memInv | .memWr | .uioRd | .uioWr | .flag => true
  | _ => false

/-- Whether step 3 of R21 now refuses a request that waited for a transaction: one from outside by its access list, a write of the
controller's own by the state of the extent (R45, R111). -/
def lateRefused (s : State) (r : LineReq) : Bool :=
  r.starved && (if outsideKind r.kind then !(s.admitted r.head r.src (64 * r.line) (r.cls == .wr))
    else r.kind != .course && r.cls == .wr && !(s.activeAt r.line))

/-- Admit a request that has no earlier request to its line waiting, when its line has no transaction and waits for no copy.
Answers whether it was admitted, and the request as it waits otherwise (R65, R100, R101, R105, R111 to R113, R119, R120). -/
def tryAdmit (s : State) (r : LineReq) : Bool × LineReq × State :=
  let ln := r.line
  let late := s.lateRefused r
  let r := { r with starved := false }
  if late then (true, r, s.refuseLate r)
  else if s.trans.has ln || s.lineBusy ln then (false, r, s)
  else if s.cohOf ln = 0 then (true, r, s.serveSoft r)
  else if s.dir.has ln && r.env.dir == .double then
    if 4096 ≤ s.transAt (lineHome ln) then (false, { r with starved := true }, s)
    else (false, readDone r, (s.alarm (lineHome ln) 9 (lineHome ln)).evictBroadcast ln)
  else (s.countDirFix r).admitEntry (readDone r)

/-- Whether a pending snoop or recall of a line addresses a source (R106). -/
def addressed (s : State) (ln src : Nat) : Bool := match s.trans.get? ln with
  | some t => t.snoops.any (fun x => x.spid == src)
  | none => false

/-- A write from a host that a pending snoop addresses lands at once, as that host's write-back (R106). -/
def landAddressed (s : State) (r : LineReq) : State :=
  let mark (t : Trans) : Trans := { t with snoops := t.snoops.map (fun x => if x.spid = r.src then { x with wrote := true } else x) }
  ({ s with trans := s.trans.modify r.line mark }.countAdmitted r).landReq { r with atOnce := true }

/-- Whether admitting a request has taken a transaction of its Keystone, ahead of requests that wait for one (R111). -/
def overtakes (s t : State) (q : List LineReq) (k : Nat) : Bool := q.any (·.starved) && decide (s.transAt k < t.transAt k)

/-- Whether a request takes a way of its line's set when its line has no entry: software-coherent lines take none (R91, R111). -/
def wantsWay (s : State) (r : LineReq) : Bool := wantsEntry r && s.cohOf r.line != 0

/-- Hand a line request to its home Keystone. A buffer's request to a hole is granted nothing (R63). A request waits in admission
order behind its line's transaction, an earlier request to the line or to a full set, or for a free transaction (R65, R91, R106,
R111). -/
def submit (s : State) (r : LineReq) : State :=
  let ln := r.line
  let k := lineHome ln
  if r.course && s.inHole ln then (s.countAdmitted r).uncachedAnswer r
  else if r.cls == .wr && !r.course && s.addressed ln r.src then s.landAddressed r
  else
    let q := s.waitQ.getD k []
    let behind := q.any (fun x => x.line == ln || (s.wantsWay r && s.wantsWay x && dirSet x.line == dirSet ln))
    if behind then s.wait r
    else
      let (ok, r', s') := s.tryAdmit r
      if s.overtakes s' q k then s.wait { r with starved := true }
      else if ok then s' else s'.wait r'

/-- The requests a Keystone keeps waiting, with those that joined the queue while its first `n` were tried. -/
def keepWaiting (s : State) (k n : Nat) (kept : List LineReq) : State :=
  { s with waitQ := s.waitQ.set k (kept ++ (s.waitQ.getD k []).drop n) }

/-- Try the waiting requests of a Keystone in order, and admit the first that may proceed (R106, R111). -/
def admitWaiting (s : State) (k : Nat) : List LineReq → List LineReq → State
  | [], kept => s.keepWaiting k kept.length kept
  | r :: rest, kept =>
    if kept.any (fun x => x.line == r.line) then s.admitWaiting k rest (kept ++ [r])
    else
      let (ok, r', s') := s.tryAdmit r
      if s.overtakes s' kept k then s.admitWaiting k rest (kept ++ [r])
      else if ok then s'.keepWaiting k (kept.length + rest.length + 1) (kept ++ rest)
      else s'.admitWaiting k rest (kept ++ [r'])

end State

end Sys2Proof.Machine
end

