-- ==== Sys2Proof/Machine/Flags.lean ====
section
/-! DEFINITION. Flagged stores: the trailer and its checks, holding, application, expiry, discard and resynchronisation
(R71 to R82). -/

namespace Sys2Proof.Machine

/-- The trailer of a flagged store: bytes 56 to 63 of the line, little-endian (R71). -/
def trailerOf (d : Line) : Nat := fld d.toNat 511 448

/-- EXPECT of a trailer. -/
def trExpect (t : Nat) : Nat := fld t 31 0

/-- SEQ of a trailer. -/
def trSeq (t : Nat) : Nat := fld t 47 32

/-- ACTION of a trailer. -/
def trAction (t : Nat) : Nat := fld t 55 48

/-- CRC of a trailer. -/
def trCrc (t : Nat) : Nat := fld t 63 56

/-- Whether a flagged store is malformed (R72). -/
def malformedFlag (d : Line) (be : ByteEn) : Bool :=
  let t := trailerOf d
  !(allOnes 8 (be.toNat >>> 56)) || trCrc t != crc8 (bytesOf 7 t) || 3 < trAction t
    || ((trAction t = 1 || trAction t = 3) && !(allOnes 8 be.toNat))

/-- The distance of a sequence from the next expected one (R77). -/
def flagDist (n seq : Nat) : Nat := (seq + 65536 - n) % 65536

/-- A held flag with the lowest distance from N (R77). -/
def heldNext (f : FlagSource) : Option HeldFlag := f.held.find? (fun h => h.seq == f.next)

/-- N after a source's held flags are discarded: one more than the last of them in sequence order (R78). -/
def nextAfter (n : Nat) (seqs : List Nat) : Nat :=
  (n + seqs.foldl (fun m q => max m (flagDist n q + 1)) 0) % 65536

namespace State

/-- The flag-log body of a flag, without its reason (R416). -/
def flagBody (s : State) (spid expect seq ln : Nat) : Nat :=
  put expect 127 96 + put (s.flagSrc spid).count 95 64 + put seq 63 48 + put spid 47 36 + put (lineHome ln) 27 26

/-- Log and complete one discarded flag. A flag already completed by R79 is discarded silently. -/
def dropHeld (s : State) (spid : Nat) (h : HeldFlag) (reason : Nat) : State :=
  if h.revoked then s else (s.logFlag h.line (s.flagBody spid h.expect h.seq h.line) reason h.dpaOk).flagCpl h.head h.tag

/-- Advance N past flags that a revocation ended, each subtracting its EXPECT down to 0 at most (R79). -/
def skipRevoked (spid : Nat) : Nat → State → State
  | 0, s => s
  | n + 1, s =>
    let f := s.flagSrc spid
    match heldNext f with
    | some h =>
      if h.revoked then
        skipRevoked spid n (s.setFlagSrc spid { f with count := f.count - h.expect, next := (f.next + 1) % 65536
                                                       held := f.held.filter (fun x => x.seq != h.seq) })
      else s
    | none => s

/-- Discard every held flag of a source: the flag of sequence `first` with one reason, the others with another, in
sequence order; then the count returns to 0 and N becomes `next` (R78, R79, R81). -/
def discardAll (s : State) (spid : Nat) (reason : HeldFlag → Nat) (next : FlagSource → Nat) : State :=
  let f := s.flagSrc spid
  let s := f.held.foldl (fun s h => s.dropHeld spid h (reason h)) s
  s.setFlagSrc spid { count := 0, next := next f, held := [] }

/-- Flags held at one Keystone; those ended by a revocation do not count (R78, R79). -/
def heldAt (s : State) (k : Nat) : Nat :=
  s.flags.fold (fun n _ f => n + (f.held.filter (fun h => !h.revoked && lineHome h.line == k)).length) 0

/-- Apply a flag's action to its line as one request at the ordering point (R73). -/
def applyFlag (s : State) (spid : Nat) (h : HeldFlag) (dir : DirErr) : State :=
  let s := (s.bump cFlagApplied 1).countAt h.line pFlagApplied 1
  s.submit { kind := .flag, cls := .wr, src := spid, head := h.head, tag := h.tag, line := h.line
             data := h.payload, be := h.be, action := h.action, note := s.flagBody spid h.expect h.seq h.line, env := { dir := dir } }

/-- A refused flag taken in its turn: no byte changes; it is logged, and counted in DROP_WR when its DPA lies in an extent (R32,
R80). -/
def takeRefused (s : State) (spid : Nat) (h : HeldFlag) : State :=
  ((if h.dpaOk then s.meterAt (64 * h.line) mDropWr else s).logFlag h.line (s.flagBody spid h.expect h.seq h.line) 10 h.dpaOk).flagCpl h.head h.tag

/-- A resynchronising flag: the held flags go, its action is carried out, and then the count and the sequence start anew (R81). -/
def resyncFlag (s : State) (spid : Nat) (h : HeldFlag) (dir : DirErr) : State :=
  let f := s.flagSrc spid
  let s := (f.held.foldl (fun s x => s.dropHeld spid x 7) s).setFlagSrc spid { f with held := [] }
  let s := if h.refused then s.takeRefused spid h else s.applyFlag spid h dir
  s.setFlagSrc spid { count := 0, next := (h.seq + 1) % 65536, held := [] }

/-- A flagged store arrives at its home Keystone (R71 to R81). -/
def flagArrives (s : State) (h tag spid dpa : Nat) (d : Line) (be : ByteEn) (dir : DirErr) : State :=
  let ln := lineOf dpa
  let t := trailerOf d
  let f := s.flagSrc spid
  let k := lineHome ln
  if malformedFlag d be then (s.logFlag ln (s.flagBody spid (trExpect t) (trSeq t) ln) 3 (dpaOk dpa)).flagCpl h tag
  else
    let hf : HeldFlag :=
      { seq := trSeq t, expect := trExpect t, action := trAction t, payload := d, be := be, line := ln, head := h, tag := tag
        landedAt := s.now, limit := s.flagWait
        refused := !(s.admitted h spid (dpa % 2 ^ 47) true), dpaOk := dpaOk dpa }
    if trExpect t = 0xFFFF_FFFF then s.resyncFlag spid hf dir
    else if 32768 ≤ flagDist f.next hf.seq || f.held.any (fun x => x.seq == hf.seq) then
      (s.logFlag ln (s.flagBody spid hf.expect hf.seq ln) 2 (dpaOk dpa)).flagCpl h tag
    else if 64 ≤ (f.held.filter (fun x => !x.revoked)).length || 16384 ≤ s.heldAt k then
      let s := s.dropHeld spid hf 1
      s.discardAll spid (fun _ => 9) (fun f => nextAfter f.next (hf.seq :: f.held.map (·.seq)))
    else s.setFlagSrc spid { f with held := f.held ++ [hf] }

/-- Whether a line can take a source's flag now: its snoop addresses the source, or no transaction runs on it, none of its requests
waits, and a transaction is free if it needs one (R106). A flag whose turn has come stays held until then, and its FLAG_WAIT goes on
(DESIGN CHOICE, log entry 68). -/
def flagReady (s : State) (spid ln : Nat) : Bool :=
  s.addressed ln spid || !s.trans.has ln && !s.lineBusy ln && !((s.waitQ.getD (lineHome ln) []).any (fun r => r.line == ln)) &&
    (!(s.dir.has ln) || s.transAt (lineHome ln) < 4096)

/-- Apply the flag whose turn it is, when its source's count allows; a refused one needs nothing of its line (R75, R80). -/
def flagTurn (s : State) (spid : Nat) (dir : DirErr) : State :=
  let f := s.flagSrc spid
  match heldNext f with
  | none => s
  | some h =>
    if h.revoked then skipRevoked spid f.held.length s
    else if f.count < h.expect || !(h.refused || s.flagReady spid h.line) then s
    else
      let s := if h.refused then s.takeRefused spid h else s.applyFlag spid h dir
      let f := s.flagSrc spid
      let s := s.setFlagSrc spid { f with count := f.count - h.expect, next := (h.seq + 1) % 65536
                                          held := f.held.filter (fun x => x.seq != h.seq) }
      skipRevoked spid f.held.length s

/-- A held flag that has waited its limit expires with every other held flag of its source (R78). -/
def flagExpires (s : State) (spid seq : Nat) : State :=
  let f := s.flagSrc spid
  match f.held.find? (fun h => h.seq == seq && !h.revoked) with
  | none => s
  | some h =>
    if s.now < h.landedAt + h.limit then s
    else
      let s := s.dropHeld spid h 0
      let s := (f.held.filter (fun x => x.seq != seq)).foldl (fun s x => s.dropHeld spid x 9) s
      s.setFlagSrc spid { count := 0, next := nextAfter f.next (f.held.map (·.seq)), held := [] }

/-- Discard the held flags of a source and reset its count and sequence (R79). -/
def resetFlags (s : State) (spid reason : Nat) : State := s.discardAll spid (fun _ => reason) (fun _ => 0)

/-- The reset or long outage of a head: every source with a held flag that arrived on it (R79, R445). -/
def headDropsFlags (s : State) (h : Nat) : State :=
  s.flags.keys.foldl (fun s p => if (s.flagSrc p).held.any (fun x => x.head == h) then s.resetFlags p 5 else s) s

/-- An extent enters Draining: the flags held for its lines end their wait and keep their place (R79). -/
def revokeFlags (s : State) (e : Extent) : State :=
  s.flags.keys.foldl (fun s p =>
    let f := s.flagSrc p
    let hit (x : HeldFlag) : Bool := !x.revoked && !x.refused && e.covers x.line
    let s := (f.held.filter hit).foldl (fun s h => s.dropHeld p h 4) s
    let s := s.setFlagSrc p { s.flagSrc p with held := f.held.map (fun x => if hit x then { x with revoked := true } else x) }
    skipRevoked p f.held.length s) s

end State

end Sys2Proof.Machine
end

