-- ==== Sys2Proof/Machine/Records.lean ====
section
/-! DEFINITION. What the controller writes into the store to report: the event ring, the log ring with its backlog and gap
records, and the alarm table with its ring (R183 to R185, R415 to R421). -/

namespace Sys2Proof.Machine

/-- The PHASE bit of record `n` of a ring of `m` records (R172). -/
def phaseOf (n m : Nat) : Nat := if m = 0 then 0 else (n / m + 1) % 2

/-- A difference of two record counts, modulo 2^32. -/
def sub32 (a b : Nat) : Nat := (a + 2 ^ 32 - b % 2 ^ 32) % 2 ^ 32

/-- Fields of a record-ring configuration (R183, R417, R421): in use, interrupting, vector, records, first byte. -/
def ringOn (w : Nat) : Bool := bit w 52
def ringInt (w : Nat) : Bool := bit w 51
def ringVec (w : Nat) : Nat := fld w 50 40
def ringSize (w : Nat) : Nat := 2 ^ fld w 36 32
def ringBase (w : Nat) : Nat := fld w 30 0 * 4096

namespace State

/-- A vector on the control head, when the ring interrupts (R187). -/
def ringMsix (s : State) (w : Nat) : State := if ringInt w then s.sendMsix s.ctrlHead (ringVec w) else s

/-! ### Events (R183 to R185) -/

/-- An event record (R171, R184). Its ENERGY is 0 (DESIGN CHOICE, log entry 74). -/
def eventBytes (e : EventRec) (n m : Nat) : Nat :=
  put e.r1 255 224 + put e.r0 223 192 + put e.time 159 120 + put e.time 119 80 + put n 47 24 + put (phaseOf n m) 23 23
    + put e.kind 15 8 + put e.status 7 0

/-- Write the events that wait, while the ring has room (R185). -/
def flushEvents (s : State) : Nat → State
  | 0 => s
  | n + 1 =>
    let w := s.cfg offRngEvtCfg
    let ev := s.events
    match ev.backlog with
    | e :: rest =>
      if ringOn w && !ev.zeroing && sub32 ev.wr ev.rd < ringSize w then
        let s := s.ownWrite (ringBase w + 32 * (ev.wr % ringSize w)) (bytesOf 32 (eventBytes e ev.wr (ringSize w)))
        let s := { s with events := { s.events with wr := (ev.wr + 1) % 2 ^ 32, backlog := rest } }
        flushEvents (s.ringMsix w) n
      else s
    | [] => s

/-- Raise an event (R184, R185). -/
def raiseEvent (s : State) (kind status r0 r1 : Nat) : State :=
  let w := s.cfg offRngEvtCfg
  if !(ringOn w) then { s with events := { s.events with drop := (s.events.drop + 1) % 2 ^ 32 } }
  else if s.events.backlog.length ≥ 256 then
    { s with events := { s.events with drop := (s.events.drop + 1) % 2 ^ 32 } }.alarm 0 12 0
  else
    let e : EventRec := { kind := kind, status := status, r0 := r0, r1 := r1, time := s.stamp40 }
    { s with events := { s.events with backlog := s.events.backlog ++ [e] } }.flushEvents 257

/-! ### The log ring (R415 to R418) -/

/-- A log entry as written (R415). -/
def logBytes (e : LogEntry) (seq n m : Nat) : Nat :=
  put e.time 255 192 + put seq 191 160 + put e.src 159 148 + put e.kind 147 140 + put e.sev 139 137
    + put (phaseOf n m) 136 136 + put e.body 127 0

/-- A gap record as a log entry (R416): its severity is the highest dropped. -/
def gapEntry (g : Gap) : LogEntry :=
  { time := g.last, src := g.src, kind := logGap, sev := g.maxSev
    body := put g.count 127 96 + put g.first 95 56 + put g.last 55 16 + put g.minSev 15 13 + put g.maxSev 12 10 }

/-- Write one entry into the log ring. -/
def logWrite (s : State) (e : LogEntry) : State :=
  let w := s.cfg offLogCfg
  let r := s.obs.log
  let s := s.ownWrite (ringBase w + 32 * (r.wr % ringSize w)) (bytesOf 32 (logBytes e s.obs.logSeq r.wr (ringSize w)))
  let s := { s with obs := { s.obs with log := { s.obs.log with wr := (r.wr + 1) % 2 ^ 32 }
                                        logSeq := (s.obs.logSeq + 1) % 2 ^ 32 } }
  (s.bump cLogWritten 1).ringMsix w

/-- Write what waits in the backlog, gap record in its place, while the ring has room (R418). -/
def flushLog (s : State) : Nat → State
  | 0 => s
  | n + 1 =>
    let w := s.cfg offLogCfg
    let r := s.obs.log
    if !(ringOn w) || r.zeroing || ringSize w ≤ sub32 r.wr r.rd then s
    else
      let q := s.obs.backlog
      match q.gap.filter (fun g => g.pos = 0), q.entries with
      | some g, _ =>
        let s := { s with obs := { s.obs with backlog := { q with gap := none } } }
        flushLog ((s.logWrite (gapEntry g)).alarm 0 13 g.count) n
      | none, e :: rest =>
        let q : LogQ := { entries := rest, gap := q.gap.map (fun (g : Gap) => { g with pos := g.pos - 1 }) }
        flushLog ({ s with obs := { s.obs with backlog := q } }.logWrite e) n
      | none, [] => s

/-- An entry reaches the backlog of K0 (R418). -/
def backlogPush (s : State) (e : LogEntry) : State :=
  let r := s.obs.backlog.push 1024 e
  let s := { s with obs := { s.obs with backlog := r.1 } }
  if r.2 then s.bump cLogDropped 1 else s

/-- A die's queue sends its front entry, for which the backlog must have a slot, or the gap record that stands before it, to K0, which writes
what it can (R418). -/
def logDeliver (s : State) (die : Nat) : State :=
  let q := s.obs.logQ.getD die {}
  let s := match q.gap.filter (fun g => g.pos = 0), q.entries with
    | some g, _ =>
      let b := s.obs.backlog
      let g := { g with pos := b.entries.length }
      let gap := match b.gap with | some x => Gap.merge x g | none => g
      { s with obs := { s.obs with logQ := s.obs.logQ.set die { q with gap := none }, backlog := { b with gap := some gap } } }
    | none, e :: rest =>
      if 1024 ≤ s.obs.backlog.entries.length then s
      else
        let q : LogQ := { entries := rest, gap := q.gap.map (fun (g : Gap) => { g with pos := g.pos - 1 }) }
        { s with obs := { s.obs with logQ := s.obs.logQ.set die q } }.backlogPush e
    | none, [] => s
  s.flushLog 1026

/-! ### Alarms (R419 to R421) -/

/-- An alarm-table entry as its 32 bytes (R419). -/
def alarmBytes (a : Alarm) (kind phase : Nat) : Nat :=
  put a.last 255 192 + put a.first 191 128 + put a.detail 127 96 + put a.count 95 64 + put kind 63 56 + put phase 2 2
    + put (b2n a.active) 1 1 + put (b2n a.pend) 0 0

/-- Whether the mask of ALERT_N, which also selects freezing alarms, names a kind (R409, R421). -/
def alertMasked (s : State) (kind : Nat) : Bool := bit (s.cfg (offAlertMask + 8 * (kind / 64))) (kind % 64)

/-- ALERT_N follows the pending kinds; after a failed boot it stays asserted (R421, R429). -/
def updateAlert (s : State) : State :=
  { s with obs := { s.obs with alert := s.sec.boot == 2 || s.obs.alarms.any (fun k a => a.pend && s.alertMasked k) } }

/-- Write the alarm records that wait, while the ring has room (R421). -/
def flushAlarms (s : State) : Nat → State
  | 0 => s
  | n + 1 =>
    let w := s.cfg offAlmCfg
    let r := s.obs.alarm
    match s.obs.alarmDue.keys with
    | k :: _ =>
      if ringOn w && !r.zeroing && sub32 r.wr r.rd < ringSize w then
        let a := s.obs.alarms.getD k {}
        let s := s.ownWrite (ringBase w + 32 * (r.wr % ringSize w)) (bytesOf 32 (alarmBytes a k (phaseOf r.wr (ringSize w))))
        let s := { s with obs := { s.obs with alarm := { s.obs.alarm with wr := (r.wr + 1) % 2 ^ 32 }
                                              alarmDue := s.obs.alarmDue.erase k, alarmSent := s.obs.alarmSent.add k } }
        flushAlarms (s.ringMsix w) n
      else s
    | [] => s

/-- A freezing alarm starts the count of marks each buffer still accepts (R409). -/
def freezeTrigger (s : State) : State :=
  let w := s.cfg offTraceCfg
  if bit w 36 && fld w 33 32 = 2 then
    let post := 4096 * fld w 47 40
    { s with obs := { s.obs with trace := s.obs.trace.map (fun t =>
        if t.frozen || t.post.isSome then t else if post = 0 then { t with frozen := true } else { t with post := some post }) } }
  else s

/-- K0 merges a die's accumulator into the alarm table: the latest occurrence gives LAST and DETAIL, the first FIRST, whichever die delivers
first (R419, R421). -/
def alarmDeliver (s : State) (die kind : Nat) : State :=
  let key := 256 * die + kind
  match s.obs.acc.get? key with
  | none => s
  | some x =>
    let t := s.obs.alarms.getD kind {}
    let occurs := decide (0 < x.a.count)
    let active := x.setsActive.getD t.active
    let later := !t.pend || decide (t.last % 2 ^ 63 ≤ x.a.last % 2 ^ 63)
    let t' : Alarm := if occurs then
        { last := if later then x.a.last else t.last, detail := if later then x.a.detail else t.detail
          first := if t.pend && decide (t.first % 2 ^ 63 ≤ x.a.first % 2 ^ 63) then t.first else x.a.first
          count := min ((if t.pend then t.count else 0) + x.a.count) 0xFFFF_FFFF, active := active, pend := true }
      else { t with active := active }
    let newly := occurs && !t.pend
    let again := occurs && !(s.obs.alarmSent.has kind)
    let due := newly || again || active != t.active
    let s := { s with obs := { s.obs with acc := s.obs.acc.erase key, alarms := s.obs.alarms.set kind t'
                                          alarmDue := if due then s.obs.alarmDue.add kind else s.obs.alarmDue } }
    let s := if occurs then s.mark 1244 0x30 0 true (put kind 143 136 + put t'.detail 135 104 + put t'.count 103 72) else s
    let s := if newly && s.alertMasked kind then s.freezeTrigger else s
    (s.flushAlarms 257).updateAlert

/-- OBS_ALARM_ACK: clear PENDING of the kinds of one 64-bit word (R421, R460). -/
def alarmAck (s : State) (word : Nat) (v : Nat) : State :=
  let s := { s with obs := { s.obs with alarms := s.obs.alarms.mapV (fun k a =>
    if k / 64 = word && bit v (k % 64) then { a with pend := false } else a) } }
  s.updateAlert

/-- Zero a record ring and its pointers (R183, R417). -/
def zeroRing (s : State) (w : Nat) : State :=
  (List.range (ringSize w / 2)).foldl (fun s j => s.ownLine (ringBase w / 64 + j) 0 beAll true) s

end State

/-- LOG_ENTRY. -/
def execLogEntry (die : Nat) (s : State) : Host.Outcome State Fault Refusal := .next (s.logDeliver die)

/-- ALARM_OCCURRENCE. -/
def execAlarmOccurrence (die kind : Nat) (s : State) : Host.Outcome State Fault Refusal := .next (s.alarmDeliver die kind)

/-- OBS_ALARM_ACK. -/
def execObsAlarmAck (head word : Nat) (value : Word) (s : State) : Host.Outcome State Fault Refusal :=
  .next (s.setupWrite head (fun s => s.alarmAck word value.toNat))

/-- EVENT_RING_ZEROED: the event ring is zeroed, its pointers return to 0, and the backlog begins to be written (R183). -/
def execEventRingZeroed (s : State) : Host.Outcome State Fault Refusal :=
  .next (if s.events.zeroing then
      ({ s.zeroRing (s.cfg offRngEvtCfg) with events := { s.events with wr := 0, rd := 0, zeroing := false } }).flushEvents 257
    else s)

/-- LOG_RING_ZEROED: the log ring, or the alarm ring, is zeroed and its pointers return to 0 (R417, R421). -/
def execLogRingZeroed (alarm : Bool) (s : State) : Host.Outcome State Fault Refusal :=
  .next (if alarm then
      (if s.obs.alarm.zeroing then
        let s := s.zeroRing (s.cfg offAlmCfg)
        { s with obs := { s.obs with alarm := {} } }.flushAlarms 257
      else s)
    else if s.obs.log.zeroing then
      let s := s.zeroRing (s.cfg offLogCfg)
      { s with obs := { s.obs with log := {} } }.flushLog 1026
    else s)

end Sys2Proof.Machine
end

