-- ==== Sys2Proof/Machine/Sched.lean ====
section
/-! DEFINITION. Fabric time as bond periods, slots and estimation intervals, the schedule table and the quiet windows
(R362, R373, R374, R376). -/

namespace Sys2Proof.Machine

/-- Counter value to ns (R362). -/
def nsOf (t : Nat) : Nat := t / 4

/-- Bond period of a counter value (R362). -/
def bondOf (t : Nat) : Nat := nsOf t / 2 ^ 24

/-- Slot of a counter value (R362). -/
def slotOf (t : Nat) : Nat := nsOf t / 2 ^ 18 % 64

/-- Power-estimation interval of a counter value (R362). -/
def pestOf (t : Nat) : Nat := nsOf t / 2 ^ 11

/-- Activities of the schedule table (R374). -/
def actPatrol : Nat := 1
def actCalibration : Nat := 2
def actAudit : Nat := 3
def actResync : Nat := 4
def actLane : Nat := 5
def actTelemetry : Nat := 6

/-- Whether one quiet window, with low word START and high word LEN and REPEAT, is open at counter value `t` (R376). -/
def windowOpen (lo hi t : Nat) : Bool :=
  let start := lo % 2 ^ 63
  let len := fld hi 31 0 * 4000
  let rep := fld hi 63 48
  if len = 0 || t < start then false
  else if rep = 0 then t < start + len
  else (t - start) % (rep * 2 ^ 26) < len || rep * 2 ^ 26 ≤ len

/-- Whether one schedule entry permits activity `act` on unit `unit` in slot `s` of bond period `n` (R373, R374). -/
def entryPermits (lo hi act unit n s : Nat) : Bool :=
  decide (fld hi 3 0 = act) && (act == actTelemetry || bit (fld hi 47 32) unit) && bit lo s &&
    decide (fld hi 55 48 ≠ 0) && decide (n % fld hi 55 48 = fld hi 63 56)

namespace State

/-- The elapsed time at which an estimation interval that begins at elapsed time `t`, no later than now, ends: when the counter next
reaches a multiple of 2,048 ns (R362). -/
def edgeAfter (s : State) (t : Nat) : Nat := t + 2048 - (nsOf s.time.counter % 2048 + 2048 - (s.time.elapsed - t) % 2048) % 2048

/-- Set the fabric-time counter. Crossing one or more boundaries forward leaves one boundary event due; a step back leaves
none until the counter next reaches a boundary (R371). -/
def moveCounter (s : State) (v : Nat) : State :=
  let v := v % 2 ^ 63
  let old := s.time.counter
  let s := { s with time := { s.time with counter := v } }
  if bondOf old < bondOf v then { s with time := { s.time with boundaryDue := true, boundaryAt := s.stamp } } else s

/-- Whether a quiet window is open now (R376). -/
def quietNow (s : State) : Bool :=
  (List.range 16).any (fun w => windowOpen (s.cfg (offTimQw + 16 * w)) (s.cfg (offTimQw + 16 * w + 8)) s.time.counter)

/-- Whether an activity may issue work on a unit now (R374). -/
def permitted (s : State) (act unit : Nat) : Bool :=
  (act == actTelemetry || !s.quietNow) &&
    (List.range 256).any (fun i => entryPermits (s.cfg (offTimSched + 16 * i)) (s.cfg (offTimSched + 16 * i + 8)) act unit
      (bondOf s.time.counter) (slotOf s.time.counter))

end State

end Sys2Proof.Machine
end

