-- ==== Sys2Proof/Machine/StoreReq.lean ====
section
/-! DEFINITION. The commands of the store path: loads and stores of hosts and peers, flagged stores, and the messages of
coherence (chapters 4 and 5 of the manual; R61 to R83, R98 to R124). -/

namespace Sys2Proof.Machine

open Host (Outcome)

/-- The MetaValue of a request as the code of the state asked for. -/
def MetaVal.code : MetaVal → Nat
  | .i => 0 | .s => 1 | .a => 2

namespace State

/-- The state a software extent's caching request is granted without a record: the one asked for, in an HDM-DB region
(R91). -/
def softGrant (s : State) (h ln : Nat) (mv : MetaVal) : Nat := if s.hdmDb h ln then mv.code else 0

/-- A host's line read (R21, R63, R100). -/
def hostRead (s : State) (h tag spid dpa : Nat) (mv : MetaVal) (env : LineEnv) : State :=
  let ln := lineOf dpa
  if !(s.memTakes h) then s
  else if !(s.admitted h spid dpa false) then (s.refuseRead dpa).emit (.memData h tag ln 0 true .none)
  else s.submit { kind := .memRd, cls := match mv with | .i => .unc | .s => .rdS | .a => .rdE
                  src := spid, head := h, tag := tag, line := ln, env := env, grant := s.softGrant h ln mv }

/-- A host's full or partial line write (R64, R68). The poison indication of a flagged store has no effect: its payload is applied
unpoisoned (DESIGN CHOICE, log entry 68). -/
def hostWrite (s : State) (h tag spid dpa : Nat) (d : Line) (be : ByteEn) (full pz : Bool) (mv : MetaVal) (env : LineEnv) : State :=
  if !(s.memTakes h) then s
  else if isFlagDpa dpa then s.flagArrives h tag spid dpa d be env.dir
  else if !(s.admitted h spid dpa true) then (s.refuseWrite spid dpa).emit (.cmp h tag .none)
  else s.submit { kind := .memWr, cls := .wr, src := spid, head := h, tag := tag, line := lineOf dpa, data := d, be := be
                  full := full, poison := pz, env := env, grant := mv.code }

/-- A host's MemInv: MetaValue A asks for ownership; I and S give up the host's copy (R63, R100). -/
def hostInv (s : State) (h tag spid dpa : Nat) (mv : MetaVal) (dir : DirErr) : State :=
  let ln := lineOf dpa
  if !(s.memTakes h) then s
  else if !(s.admitted h spid dpa false) then s.emit (.cmp h tag .none)
  else s.submit { kind := .memInv, cls := if mv == .a then .own else .drop, src := spid, head := h, tag := tag, line := ln
                  grant := if mv == .a then s.softGrant h ln .a else 0, env := { dir := dir } }

/-- Whether a UIO request is one the heads accept: at most 4,096 bytes, inside one 4 KiB block (R61). -/
def uioOk (dpa len lo : Nat) : Bool := decide (lo ≤ len) && decide (len ≤ 4096) && decide (dpa % 4096 + len ≤ 4096)

/-- What the code of a line's directory entry finds. -/
def dirErrOf (dirs : List (Nat × DirErr)) (ln : Nat) : DirErr := ((dirs.find? (fun x => x.1 == ln)).map (·.2)).getD .none

/-- One line of a UIO read (R62). -/
def uioReadLine (h tag spid dpa len : Nat) (media : List (Nat × Media)) (dirs : List (Nat × DirErr)) (s : State) (j : Nat) : State :=
  let a := (dpa / 64 + j) * 64
  let lo := max dpa a
  let hi := min (dpa + len) (a + 64)
  let ln := lineOf a
  if !(s.admitted h spid a false) then (s.refuseRead a).emit (.uioData h tag ln (lo - a) (hi - lo) 0 true)
  else s.submit { kind := .uioRd, cls := .unc, src := spid, head := h, tag := tag, line := ln, off := lo - a, len := hi - lo
                  env := { media := mediaOf media ln, dir := dirErrOf dirs ln, others := media } }

/-- One line of a UIO write (R62, R72). The bytes covered are the byte enables. -/
def uioWriteLine (h tag spid dpa len data : Nat) (pz : Bool) (media : List (Nat × Media)) (dirs : List (Nat × DirErr)) (s : State)
    (j : Nat) : State :=
  let a := (dpa / 64 + j) * 64
  let lo := max dpa a
  let hi := min (dpa + len) (a + 64)
  let ln := lineOf a
  let d : Line := BitVec.ofNat 512 (fld data (8 * (hi - dpa) - 1) (8 * (lo - dpa)) <<< (8 * (lo - a)))
  if !(s.admitted h spid a true) then (s.refuseWrite spid a).uioLineDone h tag ln false
  else s.submit { kind := .uioWr, cls := .wr, src := spid, head := h, tag := tag, line := ln, data := d
                  be := beRange (lo - a) (hi - lo), full := hi - lo == 64, poison := pz
                  env := { media := mediaOf media ln, dir := dirErrOf dirs ln, others := media } }

/-- A UIO read (R61, R62). -/
def uioRead (s : State) (h tag spid dpa len : Nat) (media : List (Nat × Media)) (dirs : List (Nat × DirErr)) : State :=
  if !(s.uioTakes h) then s
  else if !(uioOk dpa len 0) then s.emit (.unsupported h tag)
  else if len = 0 then s.emit (.uioCpl h tag)
  else (List.range (linesTouched dpa len)).foldl (uioReadLine h tag spid dpa len media dirs) s

/-- A UIO write (R61, R62, R72). One to an alias that is not one whole line brings no trailer, and is logged once with SEQ and EXPECT 0
(DESIGN CHOICE, log entry 12). -/
def uioWrite (s : State) (h tag spid dpa len data : Nat) (pz : Bool) (media : List (Nat × Media)) (dirs : List (Nat × DirErr)) : State :=
  if !(s.uioTakes h) then s
  else if !(uioOk dpa len 1) then s.emit (.unsupported h tag)
  else
    let n := linesTouched dpa len
    if isFlagDpa dpa then
      let s := { s with uio := s.uio.set (65536 * h + tag) { left := 1, src := spid } }
      if len = 64 && dpa % 64 = 0 then s.flagArrives h (65536 + tag) spid dpa (BitVec.ofNat 512 data) beAll (dirErrOf dirs (lineOf dpa))
      else (s.logFlag (lineOf dpa) (s.flagBody spid 0 0 (lineOf dpa)) 3 (dpaOk dpa)).flagCpl h (65536 + tag)
    else
      let s := { s with uio := s.uio.set (65536 * h + tag) { left := n, src := spid } }
      (List.range n).foldl (uioWriteLine h tag spid dpa len data pz media dirs) s

/-! ### The host's side of coherence (R102, R106, R116) -/

/-- What a response may keep at most after a snoop (R102). -/
def keepsTooMuch (op : SnoopOp) (r : BiRsp) : Bool := match op, r with
  | .inv, .i => false
  | .inv, _ => true
  | .data, .e => true
  | .data, _ => false
  | .cur, _ => false

/-- The code of a response's state in the log (R416). -/
def rspCode : BiRsp → Nat
  | .i => 0 | .s => 1 | .e => 2

/-- The code of a snoop in the log (R416). -/
def snoopCode : SnoopOp → Nat
  | .inv => 0 | .data => 1 | .cur => 2

/-- Log a back-invalidate response (R102, R416). -/
def logRsp (s : State) (ln spid snoop kept : Nat) : State :=
  s.logAt (lineHome ln) (1244 + lineHome ln) logBiRsp 2 (put ln 127 91 + put spid 90 79 + put snoop 78 75 + put kept 74 71)

/-- A host's back-invalidate response (R102, R105, R108). -/
def biRsp (s : State) (h spid ln : Nat) (r : BiRsp) : State :=
  if !(s.headTakes h) then s
  else match (s.trans.get? ln).bind (fun t => t.snoops.find? (fun x => x.spid == spid && x.sentAt.isSome)) with
    | none => s.logRsp ln spid 3 (rspCode r)
    | some x =>
      let bad := keepsTooMuch x.op r
      let s := if bad then s.logRsp ln spid (snoopCode x.op) (rspCode r) else s
      let r := if bad then .i else r
      let s := if r == .i && !x.wrote then s.bump cSnoopNeedless 1 else s
      (s.answered ln spid (match r with | .i => .hostI | .s => .hostS | .e => .hostE) none 0 false).pumpSnoops x.head

/-- A BIConflict of a host that a snoop of the line addresses: the Ack is sent once every request of the host to the line that was
admitted ahead of the transaction has completed (R106). -/
def biConflictAt (s : State) (h spid ln : Nat) : State :=
  if s.headTakes h && s.addressed ln spid then
    { s with conflicts := s.conflicts ++ [({ head := h, spid := spid, line := ln } : Conflict)] }.ackConflicts
  else s

/-- A snoop unanswered for BI_TIMEOUT declares its host down (R116). -/
def biExpires (s : State) (spid ln : Nat) : State :=
  match (s.trans.get? ln).bind (fun t => t.snoops.find? (fun x => x.spid == spid)) with
  | none => s
  | some x => match x.sentAt with
    | some t => if t + x.limit ≤ s.now then s.declareDown spid 0 else s
    | none => s

/-- The hosts a head routes: those that an access list or a directory entry names and that HED routing reaches through
it (R116, R468). -/
def hostsOf (s : State) (h : Nat) : List Nat :=
  let acl := s.exts.fold (fun l _ e => l ++ e.acl.map (·.spid)) []
  let ptr := s.dir.fold (fun l _ e => l ++ e.ptrs) []
  ((acl ++ ptr).eraseDups.filter (fun p => p < 4080)).filter (fun p => s.route p == some h)

/-- HEAD_DOWN_GRACE has passed with a head's link down: the hosts it routes are declared down, once each for the outage (R79,
R116). -/
def graceExpires (s : State) (h : Nat) : State :=
  let hd := s.headAt h
  if hd.up || !hd.wasDown || s.now < hd.downAt + hd.graceMs * 1000000 then s
  else
    let hosts := (s.hostsOf h).filter (fun p => !(hd.gone.has p))
    let s := s.modHead h (fun x => { x with gone := hosts.foldl NSet.add x.gone })
    (hosts.foldl (fun s p => s.declareDown p 1) s).headDropsFlags h

/-- COH_HOST_DOWN (R116, R120). -/
def cohHostDown (s : State) (v : Nat) : State :=
  let spid := fld v 11 0
  if 4080 ≤ spid then s
  else match fld v 31 30 with
    | 1 => s.declareDown spid 2
    | 2 => { s with hostDown := s.hostDown.erase spid }
    | _ => s

/-- COH_PROBE: look up a line; the result is valid 200 ns later (R98). -/
def probe (s : State) (v : Nat) : State :=
  let ln := fld v 36 0
  let r := match s.dir.get? ln with
    | some e => e.word + 2 ^ 64
    | none => 0
  let r := r + put (b2n (s.trans.has ln)) 65 65 + put (b2n (s.lost.has ln)) 66 66
  { s with regs := { s.regs with probeLine := ln, probeResult := r, probeAt := s.now + 200
                                 imm := s.regs.imm.set offCohProbe (BitVec.ofNat 64 v) } }

/-- COH_LINE_ACCEPT: clear the lost mark of a range of lines (R124). -/
def lineAccept (s : State) (v : Nat) : State :=
  let a := fld v 36 0
  let n := fld v 63 48
  let go (ln : Nat) : Bool := decide (a ≤ ln) && decide (ln < a + n) && s.activeAt ln && !s.badLine ln
  { s with lost := s.lost.filter (fun ln _ => !(go ln)) }

/-! ### The Course buffers' side (R103 to R105, R208) -/

/-- Messages that wait on a Course die's link to the home Keystone of a line (R104). -/
def linkQueue (s : State) (die ln : Nat) : List FromBuf := s.fromBuf.getD (4 * die + lineHome ln) []

/-- Whether a request of a Course buffer for a line already waits or runs. -/
def courseAsked (s : State) (die ln : Nat) : Bool :=
  let mine (r : LineReq) : Bool := r.line == ln && r.course && r.src == 4080 + die
  (s.trans.get? ln).any (fun t => mine t.req) || (s.waitQ.getD (lineHome ln) []).any mine || s.mirReads.any (fun _ r => mine r)
    || (s.linkQueue die ln).any (fun x => x.req.any mine) || s.calHeld.any (fun _ l => l.any (fun a => mine a.req))

/-- Whether a Course die may ask for a directory line: its extent is Active or Draining (R45). -/
def courseMay (s : State) (die ln : Nat) : Bool :=
  decide (die < 16) && !(s.courses.getD die {}).withdrawn && match s.extAt ln with
    | some (_, e) => e.coh == 1 && (e.state == .active || e.state == .draining)
    | none => false

/-- A Course buffer's request for a line (R100); it follows what its die sent before (R104). -/
def courseAsks (s : State) (die ln : Nat) (cls : ReqClass) (env : LineEnv) : State :=
  let has := (s.bufAt die ln).any (fun b => !b.once && (cls == .rdS || cls == .unc || b.own))
  if !(s.courseMay die ln) || s.courseAsked die ln || has then s
  else
    let r : LineReq := { kind := .course, cls := cls, src := 4080 + die, course := true, line := ln, env := env }
    if (s.linkQueue die ln).isEmpty then s.submit r
    else s.sendUp die { msg := .fwd, ans := .miss, line := ln, data := 0, poison := false, kind := .request, req := some r }

/-- A buffer's report of a first write reaches the Keystone (R105). -/
def takeUpgrade (s : State) (die ln : Nat) : State :=
  match s.dir.get? ln with
  | some e => if e.st == .e && e.lead == 4080 + die then s.setDir ln (some { e with st := .m }) else s
  | none => s

/-- A Course buffer's report of its first write to a line held in E (R104, R105). -/
def upgradeLine (s : State) (die ln : Nat) : State :=
  if (s.bufAt die ln).any (fun b => b.own) then
    if (s.linkQueue die ln).isEmpty then s.takeUpgrade die ln
    else s.sendUp die { msg := .fwd, ans := .clean, line := ln, data := 0, poison := false, kind := .upgrade }
  else s

/-- A buffer's dirty eviction reaches the Keystone: it lands, unless the extent has left Draining, and the owner's pointer goes
(R45, R49, R105, R106). -/
def takeDirty (s : State) (die ln : Nat) (d : Line) (pz : Bool) : State :=
  let live : Bool := match s.extAt ln with | some (_, e) => e.state == .active || e.state == .draining | none => false
  let s := if live then (s.landLine none ln d beAll true pz).2 else s.dropWrite ln
  match s.dir.get? ln with
  | some e => if e.lead == 4080 + die && !s.trans.has ln then s.setDir ln (e.without (4080 + die)) else s
  | none => s

/-- A Course buffer's dirty eviction (R104 to R106). -/
def writebackLine (s : State) (die ln : Nat) : State :=
  match s.bufAt die ln with
  | none => s
  | some b =>
    if !b.dirty then s
    else if (s.linkQueue die ln).isEmpty then (s.bufDrop die ln).takeDirty die ln b.data b.poison
    else (s.bufDrop die ln).sendUp die { msg := .fwd, ans := .dirty, line := ln, data := b.data, poison := b.poison, kind := .writeback }

/-- Take the message at the front of a link to a buffer, when it is of the kind given (R104). -/
def takeMsg (s : State) (die k : Nat) (m : BufMsg) : Option (Nat × State) :=
  match s.toBuf.getD (4 * die + k) [] with
  | x :: rest => if x.msg == m then some (x.line, { s with toBuf := s.toBuf.set (4 * die + k) rest }) else none
  | [] => none

/-- Queue a buffer's answer (R103, R104). -/
def answerMsg (s : State) (die : Nat) (m : BufMsg) (a : BufAns) (ln : Nat) (d : Line) (pz : Bool) : State :=
  s.sendUp die { msg := m, ans := a, line := ln, data := d, poison := pz }

/-- A Course buffer handles the message at the front of a link (R103). -/
def bufHandles (s : State) (die k : Nat) (m : BufMsg) : State :=
  match s.takeMsg die k m with
  | none => s
  | some (ln, s) => match (s.bufAt die ln).filter (fun b => !b.once) with
    | none => s.answerMsg die m .miss ln 0 false
    | some b =>
      let a : BufAns := if b.dirty then .dirty else .clean
      let s := match m with
        | .recallInv => s.bufDrop die ln
        | .recallShare => s.bufPut die ln { b with own := false }
        | _ => s
      s.answerMsg die m a ln b.data b.poison

/-- A buffer's answer reaches its Keystone (R103, R105, R114). A PRESENCE answered MISS while a transaction runs on the line is ignored,
and the pointer stays; otherwise the pointer goes, whatever was granted or has run on the line since the query (DESIGN CHOICE, log
entry 16). -/
def takeAnswer (s : State) (die : Nat) (x : FromBuf) : State :=
  let s := if x.ans == .miss && x.msg != .presence then s.bump cSnoopNeedless 1 else s
  if x.msg == .presence then
    match s.dir.get? x.line with
    | some e => if x.ans == .miss && !s.trans.has x.line then s.setDir x.line (e.without (4080 + die)) else s
    | none => s
  else if (s.trans.get? x.line).any (fun t => t.recalls.any (fun y => y.1 == die)) then
    s.answered x.line (4080 + die) (match x.ans with | .miss => .miss | .clean => .clean | .dirty => .dirty)
      (some x.msg) x.data x.poison
  else s

/-- A message of a Course die reaches its Keystone (R103). -/
def takeUp (s : State) (die : Nat) (x : FromBuf) : State := match x.kind with
  | .answer => s.takeAnswer die x
  | .upgrade => s.takeUpgrade die x.line
  | .writeback => s.takeDirty die x.line x.data x.poison
  | .request => match x.req with
    | some r => s.submit r
    | none => s

/-- Take the message at the front of a link off its queue, and give it to its Keystone. -/
def takeFront (s : State) (die k : Nat) (x : FromBuf) : State :=
  let key := 4 * die + k
  { s with fromBuf := s.fromBuf.set key ((s.fromBuf.getD key []).drop 1) }.takeUp die x

/-- Deliver the messages that follow on a link, up to the next answer (R104). -/
def runLink (s : State) (die k : Nat) : List FromBuf → State
  | [] => s
  | x :: rest => if x.kind == .answer then s else (s.takeFront die k x).runLink die k rest

/-- A buffer's answer reaches its Keystone, and what its die sent behind it, up to the next answer (R103, R104). -/
def bufAnswers (s : State) (die k : Nat) : State :=
  match s.fromBuf.getD (4 * die + k) [] with
  | [] => s
  | x :: rest => (s.takeFront die k x).runLink die k rest

end State

/-! ### The commands -/

/-- MEM_RD. -/
def execMemRd (head tag spid dpa : Nat) (mv : MetaVal) (env : LineEnv) (s : State) : Outcome State Fault Refusal :=
  .next (s.hostRead head tag spid dpa mv env)

/-- MEM_SPEC_RD: a hint; the controller may ignore it, and the model does (R61). -/
def execMemSpecRd (_head _spid _dpa : Nat) (s : State) : Outcome State Fault Refusal := .next s

/-- MEM_WR. -/
def execMemWr (head tag spid dpa : Nat) (data : Line) (poison : Bool) (mv : MetaVal) (env : LineEnv) (s : State) :
    Outcome State Fault Refusal :=
  .next (s.hostWrite head tag spid dpa data beAll true poison mv env)

/-- MEM_WR_PTL. -/
def execMemWrPtl (head tag spid dpa : Nat) (data : Line) (be : ByteEn) (poison : Bool) (env : LineEnv) (s : State) :
    Outcome State Fault Refusal :=
  .next (s.hostWrite head tag spid dpa data be false poison .i env)

/-- MEM_INV. -/
def execMemInv (head tag spid dpa : Nat) (mv : MetaVal) (dir : DirErr) (s : State) : Outcome State Fault Refusal :=
  .next (s.hostInv head tag spid dpa mv dir)

/-- UNSUPPORTED_MEM_REQUEST. -/
def execUnsupportedMemRequest (head tag _op : Nat) (s : State) : Outcome State Fault Refusal :=
  .next (if s.memTakes head then s.emit (.unsupported head tag) else s)

/-- MEM_RD_FWD: accepted when step 3 admits it, with no effect the manual gives; otherwise completed as a refused request
that carries no data (R61, R63). -/
def execMemRdFwd (head tag spid dpa : Nat) (s : State) : Outcome State Fault Refusal :=
  .next (if !(s.memTakes head) then s
    else if s.admitted head spid dpa false then s.emit (.fwdAccepted head tag) else s.emit (.cmp head tag .none))

/-- MEM_WR_FWD: as MEM_RD_FWD (R61, R63). -/
def execMemWrFwd (head tag spid dpa : Nat) (s : State) : Outcome State Fault Refusal :=
  .next (if !(s.memTakes head) then s
    else if s.admitted head spid dpa true then s.emit (.fwdAccepted head tag) else s.emit (.cmp head tag .none))

/-- UIO_MEMORY_READ. -/
def execUioMemoryRead (head tag spid dpa len : Nat) (media : List (Nat × Media)) (dirs : List (Nat × DirErr)) (s : State) :
    Outcome State Fault Refusal :=
  .next (s.uioRead head tag spid dpa len media dirs)

/-- UIO_MEMORY_WRITE. -/
def execUioMemoryWrite (head tag spid dpa len data : Nat) (poison : Bool) (media : List (Nat × Media)) (dirs : List (Nat × DirErr))
    (s : State) : Outcome State Fault Refusal :=
  .next (s.uioWrite head tag spid dpa len data poison media dirs)

/-- GLOBAL_PERSISTENT_FLUSH: answered at once, without flushing anything (R67). -/
def execGlobalPersistentFlush (head phase : Nat) (s : State) : Outcome State Fault Refusal :=
  .next (if s.headUp head then s.emit (.gpf head phase) else s)

/-- FLAGGED_STORE. -/
def execFlaggedStore (head tag spid dpa : Nat) (data : Line) (be : ByteEn) (dir : DirErr) (s : State) : Outcome State Fault Refusal :=
  .next (if s.memTakes head then s.flagArrives head tag spid dpa data be dir else s)

/-- FLAG_APPLY. -/
def execFlagApply (spid : Nat) (dir : DirErr) (s : State) : Outcome State Fault Refusal := .next (s.flagTurn spid dir)

/-- FLAG_WAIT_EXPIRY. -/
def execFlagWaitExpiry (spid seq : Nat) (s : State) : Outcome State Fault Refusal := .next (s.flagExpires spid seq)

/-- CTL_FLAG_RESET: one source, or every source (R79, R83). -/
def execCtlFlagReset (head : Nat) (value : BitVec 32) (s : State) : Outcome State Fault Refusal :=
  .next (s.setupWrite head (fun s =>
    if bit value.toNat 31 then s.flags.keys.foldl (fun s p => s.resetFlags p 6) s else s.resetFlags (fld value.toNat 11 0) 6))

/-- BI_RESPONSE. -/
def execBiResponse (head spid line : Nat) (rsp : BiRsp) (s : State) : Outcome State Fault Refusal :=
  .next (s.biRsp head spid line rsp)

/-- BI_CONFLICT. -/
def execBiConflict (head spid line : Nat) (s : State) : Outcome State Fault Refusal := .next (s.biConflictAt head spid line)

/-- TRANSACTION_ADMIT. -/
def execTransactionAdmit (k : Nat) (s : State) : Outcome State Fault Refusal := .next (s.admitWaiting k (s.waitQ.getD k []) [])

/-- COURSE_READ_MISS. -/
def execCourseReadMiss (die line : Nat) (env : LineEnv) (s : State) : Outcome State Fault Refusal :=
  .next (s.courseAsks die line .rdS env)

/-- COURSE_OWN. -/
def execCourseOwn (die line : Nat) (env : LineEnv) (s : State) : Outcome State Fault Refusal :=
  .next (s.courseAsks die line .own env)

/-- UPGRADE. -/
def execUpgrade (die line : Nat) (s : State) : Outcome State Fault Refusal := .next (s.upgradeLine die line)

/-- WRITEBACK. -/
def execWriteback (die line : Nat) (s : State) : Outcome State Fault Refusal := .next (s.writebackLine die line)

/-- BUFFER_ANSWER. -/
def execBufferAnswer (die k : Nat) (s : State) : Outcome State Fault Refusal := .next (s.bufAnswers die k)

/-- FWD. -/
def execFwd (die k : Nat) (s : State) : Outcome State Fault Refusal := .next (s.bufHandles die k .fwd)

/-- RECALL_SHARE. -/
def execRecallShare (die k : Nat) (s : State) : Outcome State Fault Refusal := .next (s.bufHandles die k .recallShare)

/-- RECALL_INV. -/
def execRecallInv (die k : Nat) (s : State) : Outcome State Fault Refusal := .next (s.bufHandles die k .recallInv)

/-- PRESENCE. -/
def execPresence (die k : Nat) (s : State) : Outcome State Fault Refusal := .next (s.bufHandles die k .presence)

/-- BI_TIMEOUT. -/
def execBiTimeout (spid line : Nat) (s : State) : Outcome State Fault Refusal := .next (s.biExpires spid line)

/-- HEAD_DOWN_GRACE. -/
def execHeadDownGrace (head : Nat) (s : State) : Outcome State Fault Refusal := .next (s.graceExpires head)

/-- HOST_DOWN_DECLARE: a write to COH_HOST_DOWN with OP 1 (R116, R118). -/
def execHostDownDeclare (head : Nat) (value : BitVec 32) (s : State) : Outcome State Fault Refusal :=
  .next (s.setupWrite head (fun s => s.cohHostDown value.toNat))

/-- HOST_READMIT: a write to COH_HOST_DOWN with OP 2 (R120). -/
def execHostReadmit (head : Nat) (value : BitVec 32) (s : State) : Outcome State Fault Refusal :=
  .next (s.setupWrite head (fun s => s.cohHostDown value.toNat))

/-- COH_PROBE. -/
def execCohProbe (head : Nat) (value : Word) (s : State) : Outcome State Fault Refusal :=
  .next (s.setupWrite head (fun s => s.probe value.toNat))

/-- COH_LINE_ACCEPT. -/
def execCohLineAccept (head : Nat) (value : Word) (s : State) : Outcome State Fault Refusal :=
  .next (s.setupWrite head (fun s => s.lineAccept value.toNat))

end Sys2Proof.Machine
end

