-- ==== Sys2Proof/Machine/Media.lean ====
section
/-! DEFINITION. Media protection in the background: repair, channel failure, rebuild and retirement, the rescue pool,
refresh and disturbance, patrol, calibration, training and the start-up scrub, and the directory audit (R114, R125 to
R149, R377, R378, R444). -/

namespace Sys2Proof.Machine

open Host (Outcome)

namespace State

/-- What is kept for a channel. -/
def chanAt (s : State) (ch : Nat) : Chan := s.med.chans.getD ch {}

/-- Replace what is kept for a channel. -/
def modChan (s : State) (ch : Nat) (f : Chan → Chan) : State :=
  { s with med := { s.med with chans := s.med.chans.set ch (f (s.chanAt ch)) } }

/-- The owed write-back of a corrected line: it restores what the line holds and is a landing for no purpose; it waits for a calibration
of the channel (R26, R131). -/
def repairLine (s : State) (ln : Nat) : State :=
  if s.med.repair.has ln && !s.chanBusy (lineChan ln) then
    { s with med := { s.med with repair := s.med.repair.erase ln } }.chanWrite ln
  else s

/-- Declare a channel failed, when the cause given holds. Its calibration is over, and nothing of it is served any more (R140). -/
def failChannel (s : State) (ch : Nat) (cause : ChanCause) : State :=
  let c := s.chanAt ch
  let holds := match cause with
    | .calibration => decide (3 ≤ c.calFails)
    | .errors => decide (1024 < (c.ueTimes.filter (fun t => s.now < t + 1000000)).length)
    | .parityLock => true
  if !holds || c.failed || 32 ≤ ch then s
  else
    let s := s.modChan ch (fun c => { c with failed := true, calBusy := false })
    (({ s with lineBuf := Tab.filter s.lineBuf (fun ln _ => lineChan ln != ch) }).endCalWait ch).alarm (footingDie ch) 4 ch (some true)

/-! ### Rebuild and retirement (R141 to R145) -/

/-- Whether a region lies in the committed rescue pool (R143). -/
def inPool (s : State) (rg : Nat) : Bool :=
  let b := s.cfgF offMedRescue 21 0
  decide (b ≤ rg) && decide (rg < b + s.cfgF offMedRescue 28 22) && !s.med.released.has rg

/-- Whether a region lies in the parity reserve in force (R133). -/
def inReserve (s : State) (rg : Nat) : Bool :=
  let w := s.cfg offMedPar
  bit w 63 && decide (fld w 21 0 ≤ rg) && decide (rg < fld w 21 0 + fld w 54 32)

/-- The lowest free slot of the rescue pool (R142 step 1); a retired slot is not free. -/
def freeSlot (s : State) : Option Nat :=
  ((List.range (s.cfgF offMedRescue 28 22)).map (· + s.cfgF offMedRescue 21 0)).find? (fun rg =>
    s.inPool rg && !s.med.used.has rg && !s.med.retired.has rg && !s.med.rebuilds.any (fun _ b => b.slot == some rg))

/-- Write one line of a rebuild into its slot and go on to the next; a line that carries the poison mark, or that nothing recovers,
is written with poison (R142 step 2, R144). -/
def rebuildPut (s : State) (rg ln : Nat) (d : Line) (pz : Bool) : State :=
  match s.med.rebuilds.get? rg with
  | some b => match b.slot with
    | some sl =>
      if rg * regionLines + b.next = ln then
        let dst := sl * regionLines + b.next
        let pz := pz || s.poison.has ln
        let s := (s.putLine dst d).chanWrite dst
        let s := { s with poison := s.poison.put dst pz, lost := s.lost.put dst (s.lost.has ln) }
        { s with med := { s.med with rebuilds := s.med.rebuilds.set rg { b with next := b.next + 1, bad := b.bad + b2n pz } } }
      else s
    | none => s
  | none => s

/-- Ask the partner for a line that the patrol could not read here, to repair it (R137, R148). The answer says whether it could be
asked. -/
def askPartner (s : State) (ln : Nat) : Bool × State :=
  if s.mirReads.any (fun _ r => r.line == ln && r.kind == .none && r.cls == .unc) then (true, s)
  else match s.fetchCopy { kind := .none, cls := .unc, src := 4096, line := ln } with
    | (some _, s) => (true, s)
    | (none, s) => (false, s)

/-- One step of a rebuild: claim the slot, or copy the next line, which is read through the ordering point (R142). -/
def rebuildStep (s : State) (rg : Nat) (m : Media) : State :=
  match s.med.rebuilds.get? rg with
  | none => s
  | some b =>
    if !s.needsSlot rg then s
    else match b.slot with
      | none => match s.freeSlot with
        | some sl =>
          let s := { s with med := { s.med with rebuilds := s.med.rebuilds.set rg { b with slot := some sl } } }
          if b.asked then s.endSlotWait else s
        | none =>
          if b.asked then s
          else ({ s with med := { s.med with rebuilds := s.med.rebuilds.set rg { b with asked := true } } }).alarm 0 8 rg (some true)
      | some _ =>
        let ln := rg * regionLines + b.next
        if regionLines ≤ b.next then s
        else
          let ((d, st), s) := s.ownReadLine ln m
          if st = readWaits then s else s.rebuildPut rg ln d (st = 5)

/-- Log a MED_RETIRE that changes nothing (R145, R416). Its source number is Plinth's (DESIGN CHOICE, log entry 68). -/
def retireIgnored (s : State) (rg cause : Nat) : State := s.logAt 0 1425 logRetireIgnored 1 (put rg 127 106 + put cause 105 104)

/-- MED_RETIRE (R145). -/
def medRetireWrite (s : State) (v : Nat) : State :=
  let rg := fld v 21 0
  if s.med.p ≤ rg * 2 ^ 21 then s.retireIgnored rg 0
  else if s.med.retired.has rg then s.retireIgnored rg 1
  else if s.inReserve rg || s.inPool rg then s.retireIgnored rg 2
  else s.startRetire rg 3

/-- MED_RESCUE_RELEASE (R143). -/
def rescueRelease (s : State) (v : Nat) : State :=
  let rg := s.cfgF offMedRescue 21 0 + fld v 5 0
  if s.med.used.has rg && s.inPool rg then
    { s with med := { s.med with used := s.med.used.erase rg, released := s.med.released.add rg } }
  else s

/-! ### Mirrors (R137 to R139) -/

/-- MIRROR_DEGRADED is active while any mirrored extent is DEGRADED or RESYNC (R420). -/
def mirrorAlarmEnd (s : State) (i : Nat) : State :=
  if s.exts.any (fun j e => j != i && (e.mir == .degraded || e.mir == .resync)) then s else s.alarmEnd 0 5

/-- Enter RESYNC from DEGRADED (R138). -/
def enterResync (s : State) (i : Nat) : State :=
  let s := { s with exts := s.exts.modify i (fun (e : Extent) => if e.mir == MirState.degraded then { e with mir := .resync, copied := Tab.empty } else e) }
  match s.exts.get? i with
  | some e => if e.mir == MirState.resync && e.dirty.size = 0 then
      { s with exts := s.exts.modify i (fun e => { e with mir := .mirrored }) }.mirrorAlarmEnd i
    else s
  | none => s

/-- A resync line has been acknowledged: its region's dirty bit clears with the last, and the extent is MIRRORED with the
last region (R139). -/
def resyncAcked (s : State) (i ln : Nat) : State :=
  match s.exts.get? i with
  | none => s
  | some e =>
    let rg := regionOf ln
    let left := s.remotes.any (fun _ r => match r.purpose with
        | .resync j l => j == i && regionOf l == rg
        | _ => false)
    if e.mir == .resync && !left && regionLines ≤ e.copied.getD rg 0 then
      let e := { e with dirty := e.dirty.erase rg, copied := e.copied.erase rg }
      if e.dirty.size = 0 then ({ s with exts := s.exts.set i { e with mir := .mirrored } }).mirrorAlarmEnd i
      else { s with exts := s.exts.set i e }
    else s

/-- Copy the next line of the first dirty region a Keystone keeps, as it has landed. A line that only the partner can give is brought back
from it first; where that fails the copy of the line fails (R137 to R139). -/
def resyncStep (s : State) (i k : Nat) (m : Media) : State :=
  match s.exts.get? i with
  | none => s
  | some e =>
    if !(e.mir == .resync && e.state == .active && s.permitted actResync k) then s
    else match e.dirty.keys.find? (fun rg => lineHome (rg * regionLines) == k && decide (e.copied.getD rg 0 < regionLines)) with
      | none => s
      | some rg =>
        let n := e.copied.getD rg 0
        let ln := rg * regionLines + n
        let ((d, st), s) := s.ownReadLine ln m false
        if st = readWaits then s
        else if st = 5 && s.needsPartner ln then s.degrade i
        else
          let rq : Remote :=
            { head := 0, host := false, port := e.partner, write := true
              addr := e.pbase * 2 ^ 21 + (64 * ln - e.base * 2 ^ 21), len := 64, data := d.toNat, poison := st != 0
              purpose := .resync i ln, issued := 0, limit := 0 }
          let s := { s with exts := s.exts.modify i (fun e => { e with copied := e.copied.set rg (n + 1) }) }
          match s.issue rq with
          | (some _, s) => s
          | (none, s) => s.degrade i

/-- A probe of a degraded extent's partner (R138). -/
def probeMirror (s : State) (i : Nat) : State :=
  match s.exts.get? i with
  | none => s
  | some e =>
    if e.mir == .degraded && e.state == .active && bit (s.cfg offMedMirCfg) 16
        && decide (e.probeAt + s.cfgF offMedMirCfg 13 0 * 1000000 ≤ s.now) then
      let s := { s with exts := s.exts.modify i (fun e => { e with probeAt := s.now }) }
      let rq : Remote :=
        { head := 0, host := false, port := e.partner, write := false, addr := e.pbase * 2 ^ 21, len := 64
          purpose := .probe i, issued := 0, limit := 0 }
      (s.issue rq).2
    else s

/-- MED_MIR_CTL (R139). -/
def mirCtl (s : State) (v : Nat) : State :=
  let i := fld v 13 0
  match s.exts.get? i with
  | none => s
  | some e =>
    if e.state == .active then
      match fld v 31 30 with
      | 1 => if e.mir == .degraded then s.enterResync i else s
      | 2 => if e.mir == .mirrored || e.mir == .resync then s.degrade i else s
      | _ => s
    else s

/-! ### Patrol, audit and calibration (R114, R148, R149, R377, R378) -/

/-- The line a Footing's patrol reads `n`-th in its pass: the 16 lines of each 8 KiB block that its channels hold. -/
def patrolLine (f n : Nat) : Nat := unitAddr (n / 16 * 8192) (4 * f + n / 4 % 4) (64 * (n % 4)) / 64

/-- Lines of one Footing's pass. -/
def patrolTotal (s : State) : Nat := s.med.p / 8 / 64

/-- What the patrol finds in a line of a retired region: it is counted, and the region stays as it is (R148). -/
def patrolHole (s : State) (ln : Nat) (m : Media) : State :=
  let s := s.touch ln false
  match s.decode m with
  | .corrected dev => s.correctedRead ln dev
  | .uncorrectable dev => (s.countUe ln).logUe ln (dev.getD 15) false
  | _ => s

/-- One line of the patrol, read at its Footing; a failed channel serves nothing (R140, R148). -/
def patrolRead (media : List (Nat × Media)) (s : State) (ln : Nat) : State :=
  if s.chanFailed (lineChan ln) then s
  else if s.inHole ln then (s.charge 256 1).patrolHole ln (mediaOf media ln)
  else
    let m := mediaOf media ln
    let s := s.charge 256 1
    let (x, s) := (if s.readsStripe ln m then s.showStripe ln media else s).readDram ln m
    if x.partner then
      let (ok, s) := s.askPartner ln
      if ok then s else s.partnerLost ln
    else s

/-- The pass time in force, in ns (R148). -/
def passTime (s : State) : Nat := s.cfgF offMedScrub 5 0 * 3600000000000

/-- Whether a Footing's patrol may read a batch of `n` lines now: the slot is permitted, the pass is not ahead of its pace, and the last
batch lies as far back as four times the nominal rate has it (R148, R378). -/
def patrolMay (s : State) (f n : Nat) : Bool :=
  let p := s.med.patrol.getD f {}
  s.sec.scrubbed && decide (f < 8) && s.permitted actPatrol f && decide (p.next * s.passTime ≤ s.patrolTotal * (s.now - p.start))
    && p.readAt.all (fun t => decide (n * s.passTime ≤ 4 * s.patrolTotal * (s.now - t)))

/-- A batch of up to 64 lines of the patrol, and the end of its pass (R148, R374, R378). It waits while a calibration blocks a channel it
needs (R26). -/
def patrolBatch (s : State) (f : Nat) (media : List (Nat × Media)) : State :=
  let p := s.med.patrol.getD f {}
  let n := min 64 (s.patrolTotal - p.next)
  let lines := (List.range n).map (fun j => patrolLine f (p.next + j))
  if !(s.patrolMay f n) || n = 0 || (List.range 4).any (fun j => s.chanBusy (4 * f + j))
      || lines.any (fun ln => s.readBlocked ln (mediaOf media ln)) then s
  else
    let s := lines.foldl (patrolRead media) s
    if p.next + n < s.patrolTotal then
      { s with med := { s.med with patrol := s.med.patrol.set f { p with next := p.next + n, readAt := some s.now } } }
    else
      let halve (k v : Nat) : Nat := if k % 8 = f then v / 2 else v
      let s := { s with med := { s.med with
        patrol := s.med.patrol.set f { next := 0, start := s.now, covered := true, readAt := some s.now }
        ceLimitN := s.med.ceLimitN.mapV halve
        ceLines := s.med.ceLines.filter (fun ln _ => lineChan ln / 4 != f) } }
      if s.med.patrol.all (fun _ x => x.covered) && !p.covered then s.alarmEnd (32 + f) 17 else s

/-- A pass that has run 48 h raises SCRUB_COVERAGE (R378). -/
def coverageExpires (s : State) (f : Nat) : State :=
  let p := s.med.patrol.getD f {}
  if s.sec.scrubbed && decide (f < 8) && p.covered && decide (p.start + 172800000000000 ≤ s.now) then
    ({ s with med := { s.med with patrol := s.med.patrol.set f { p with covered := false } } }).alarm (32 + f) 17 f (some true)
  else s

/-- When a channel's calibration fell due (R377). -/
def calDue (s : State) (ch : Nat) : Nat :=
  let c := s.chanAt ch
  if c.calAgain then c.calSince else c.calSince + s.cfgF offTimCfg 31 16 * 1000000

/-- Whether a channel is the one its Footing calibrates next: due earliest, ties to the lower number, none busy (R377). -/
def calNext (s : State) (ch : Nat) : Bool :=
  let f := ch / 4
  decide (ch < 32) && s.sec.trained && !(s.chanAt ch).failed && decide (s.calDue ch ≤ s.now) &&
    (List.range 4).all (fun j =>
      let o := 4 * f + j
      !(s.chanAt o).calBusy && (o == ch || (s.chanAt o).failed || decide (s.calDue ch < s.calDue o)
        || (decide (s.calDue ch = s.calDue o) && decide (ch < o))))

/-- Start a channel's calibration, which blocks the channel (R26, R149). -/
def calStartNow (s : State) (ch : Nat) : State :=
  (s.modChan ch (fun c => { c with calBusy := true, calStart := s.now })).emit (.calibrate ch)

/-- A due calibration in a permitted slot (R377). -/
def calibrate (s : State) (ch : Nat) : State :=
  if s.calNext ch && s.permitted actCalibration (ch / 4) then s.calStartNow ch else s

/-- A calibration due for 128 ms is forced, counted and recorded (R377). -/
def calibrateForced (s : State) (ch : Nat) : State :=
  if s.calNext ch && decide (s.calDue ch + 128000000 ≤ s.now) then
    (s.logAt (footingDie ch) (chanSrc ch) logCalForced 1
      (put ch 127 123 + put ((s.now - s.calDue ch) / 1000) 122 91)).calStartNow ch |>.modChan ch (fun c => { c with forced := c.forced + 1 })
  else s

/-- A calibration ends; a failure is counted and falls due again at once, and what waited for the channel is served (R26, R149,
R377). -/
def calibrateEnds (s : State) (ch : Nat) (ok : Bool) : State :=
  if (s.chanAt ch).calBusy then
    (s.modChan ch (fun c => { c with calBusy := false, calSince := s.now, calAgain := !ok, calFails := if ok then 0 else c.calFails + 1 })).endCalWait ch
  else s

/-- The audit of one entry: a PRESENCE query for each Course pointer; an entry that reads with an error is corrected, or invalidated
by broadcast (R113, R114). -/
def auditEntry (s : State) (k ln : Nat) (dir : DirErr) : State :=
  match s.dir.get? ln with
  | some e =>
    if lineHome ln == k && !s.trans.has ln && s.permitted actAudit k then
      if dir == .double then (if s.transAt k < 4096 then (s.alarm k 9 k).evictBroadcast ln else s)
      else
        let s := if dir == .single then { s with dirFix := s.dirFix + 1 } else s
        (e.ptrs.filter isCourse).foldl (fun s p => s.tellBuf (p - 4080) ln .presence) s
    else s
  | none => s

/-! ### Training and the start-up scrub (R125 to R127, R443, R444) -/

/-- Whether the controller supports a channel's DIMMs (R125). -/
def dimmSupported (d : Dimm) : Bool :=
  let caps := if d.mr then [64, 128, 256] else if d.dpc = 1 then [16, 32, 64, 128, 256] else [16, 32, 64, 128]
  (d.kind == .rdimm || d.kind == .mrdimm) && d.density != 24 && decide (d.stack ≤ 2) && caps.contains d.capGiB && (d.dpc == 1 || (d.dpc == 2 && !d.mr)) && [1, 2, 4].contains d.ranks
    && decide (d.ranks * d.dpc ≤ 8)

/-- Whether a channel's DIMMs agree with CH0's (R126). -/
def dimmAgrees (a b : Dimm) : Bool :=
  a.kind == b.kind && a.capGiB == b.capGiB && a.x8 == b.x8 && a.density == b.density && a.ranks == b.ranks && a.dpc == b.dpc

/-- MED_POP.REASON of one channel: 0 accepted (R126, R149). -/
def popReasonOf (first : Option Dimm) (d : Option Dimm) : Nat := match d with
  | none => 1
  | some d =>
    if !d.trained then 2
    else if (match first with | some f => !dimmAgrees f d | none => true) then 3
    else if !dimmSupported d then 4 else 0

/-- The data rate, as the code of MED_SPEED_CAP: the minimum of what bounds it, for MRDIMMs too (R127; DESIGN CHOICE, log entry 11). -/
def rateOf (s : State) (ds : List (Option Dimm)) (d : Dimm) : Nat :=
  let spd := ds.foldl (fun n x => match x with | some d => min n d.spdRate | none => n) 4
  let cap := if d.mr then 4 else if d.dpc = 1 then 2 else 1
  min spd (min cap (s.cfgF offMedSpeed 3 0))

/-- Memory training, once after a reset: when it has failed, what follows it is skipped (R126, R443 step 8). -/
def train (s : State) (ds : List (Option Dimm)) : State :=
  if !s.sec.fw || s.sec.trained || s.med.popReason ≠ 0 then s
  else
    let ds := (List.range 32).map (fun c => nth ds c none)
    let first := nth ds 0 none
    match firstIdx (fun d => popReasonOf first d != 0) ds, first with
    | none, some d =>
      let s := { s with med := { s.med with dimm := some d, popReason := 0, popChannel := 0, rate := s.rateOf ds d
                                            p := 32 * d.capGiB * d.dpc * 2 ^ 30, front := 0
                                            chans := (List.range 32).foldl (fun t c => t.set c { calSince := s.now }) Tab.empty }
                        sec := { s.sec with trained := true, active := true } }
      s.emit .memActive
    | some c, _ =>
      let reason := popReasonOf first (nth ds c none)
      ({ s with med := { s.med with p := 0, popReason := reason, popChannel := c, rate := 7 } }).alarm 0 3 (put reason 12 5 + put c 4 0)
    | none, none => s

/-- The start-up scrub zeroes the next regions in ascending DPA; regions that meet an uncorrectable error are retired
(R443 step 9, R444). -/
def startScrub (s : State) (n : Nat) (bad : List Nat) : State :=
  if !s.sec.trained || s.sec.scrubbed then s
  else
    let a := s.med.front / 2 ^ 21
    let b := min (a + n) (s.med.p / 2 ^ 21)
    let s := { s with mem := zeroMem s.mem (a * 2 ^ 21) (b * 2 ^ 21)
                      poison := s.poison.delRange (a * regionLines) (b * regionLines)
                      lost := s.lost.delRange (a * regionLines) (b * regionLines)
                      med := { s.med with ue := Tab.filter s.med.ue (fun ln _ => !(a * regionLines ≤ ln && ln < b * regionLines))
                                          front := b * 2 ^ 21 } }
    let s := (bad.filter (fun rg => a ≤ rg && rg < b)).foldl (fun s rg => s.startRetire rg 2) (s.zeroChans a b)
    if b * 2 ^ 21 = s.med.p then
      { s with sec := { s.sec with scrubbed := true }
               med := { s.med with patrol := (List.range 8).foldl (fun t f => t.set f { start := s.now }) Tab.empty } }
    else s

/-- A mitigation command leaves for a bank: DRFM for a row, or RFM without one (R147). -/
def mitigate (s : State) (ch bank : Nat) (row : Option Nat) : State :=
  (s.modChan ch (fun c => { c with mitigations := c.mitigations + 1 })).emit (.mitigate ch bank row)

/-- What a refresh does to a bank's counts: its row closes, its rolling count falls by the activations RFM stands for, and its row
counts start again with a new refresh window (R147; PRESUMED, log entry 63). -/
def refreshBank (raaimt : Nat) (newWindow : Bool) (b : Bank) : Bank :=
  { raa := b.raa - raaimt, rows := if newWindow then [] else b.rows, row := none }

/-- A refresh of all banks of a channel, or of one bank in each bank group, with the temperature read from mode register 4. A bank's
refresh window ends with each 8,192nd of its own refreshes (R146, R147; PRESUMED, log entry 63). -/
def refresh (s : State) (ch : Nat) (bank : Option Nat) (mr4 : Nat) : State :=
  let hit (b : Nat) : Bool := bank.all (fun x => x == b)
  let s := s.modChan ch (fun c => { c with refreshes := c.refreshes.mapIdx (fun b n => if hit b then n + 1 else n), mr4 := mr4 })
  let raaimt := (s.med.dimm.map (·.raaimt)).getD 0
  let new (b : Nat) : Bool := decide (nth (s.chanAt ch).refreshes b 0 % 8192 = 0)
  let step (k : Nat) (x : Bank) : Bank := if k / 4096 == ch && hit (k % 32 / 8) then refreshBank raaimt (new (k % 32 / 8)) x else x
  { s with med := { s.med with banks := s.med.banks.mapV step } }.emit (.refresh ch bank)

/-- The threshold of refresh management has been reached in a bank (R147). -/
def rfmDue (s : State) (ch bank : Nat) : State :=
  match s.med.dimm with
  | some d =>
    let b := s.bankAt ch bank
    if d.rfm && decide (d.raaimt ≤ b.raa) && decide (ch < 32) then (s.setBank ch bank { b with raa := b.raa - d.raaimt }).mitigate ch bank none else s
  | none => s

/-- A row has reached ACT_LIMIT activations in its refresh window: DRFM for it, or RFM where the DIMM has no DRFM, and its count
starts again (R147). -/
def rowLimit (s : State) (ch bank row : Nat) : State :=
  match s.med.dimm with
  | some d =>
    let b := s.bankAt ch bank
    if decide (ch < 32) && b.rows.any (fun r => r.row == row && decide (s.cfgF offMedDist 15 0 ≤ r.count)) then
      (s.setBank ch bank { b with rows := b.rows.map (fun r => if r.row = row then { r with count := 0 } else r) }).mitigate ch bank
        (if d.drfm then some row else none)
    else s
  | none => s

end State

/-! ### The commands -/

/-- ECC_REPAIR_WRITEBACK. -/
def execEccRepairWriteback (line : Nat) (s : State) : Outcome State Fault Refusal := .next (s.repairLine line)

/-- CHANNEL_FAILED. -/
def execChannelFailed (ch : Nat) (cause : ChanCause) (s : State) : Outcome State Fault Refusal := .next (s.failChannel ch cause)

/-- REGION_REBUILD. -/
def execRegionRebuild (region : Nat) (media : Media) (s : State) : Outcome State Fault Refusal :=
  .next (s.rebuildStep region media)

/-- REGION_RETIRED. -/
def execRegionRetired (region : Nat) (s : State) : Outcome State Fault Refusal := .next (s.retireRegion region)

/-- MED_RETIRE. -/
def execMedRetire (head : Nat) (value : BitVec 32) (s : State) : Outcome State Fault Refusal :=
  .next (s.setupWrite head (fun s => s.medRetireWrite value.toNat))

/-- MED_RESCUE_RELEASE. -/
def execMedRescueRelease (head : Nat) (value : BitVec 32) (s : State) : Outcome State Fault Refusal :=
  .next (s.setupWrite head (fun s => s.rescueRelease value.toNat))

/-- MIRROR_PROBE. -/
def execMirrorProbe (ext : Nat) (s : State) : Outcome State Fault Refusal := .next (s.probeMirror ext)

/-- MIRROR_RESYNC. -/
def execMirrorResync (ext k : Nat) (media : Media) (s : State) : Outcome State Fault Refusal := .next (s.resyncStep ext k media)

/-- MIR_RESYNC: MED_MIR_CTL with OP RESYNC (R139). -/
def execMirResync (head : Nat) (value : BitVec 32) (s : State) : Outcome State Fault Refusal :=
  .next (s.setupWrite head (fun s => s.mirCtl value.toNat))

/-- MIR_DEGRADE: MED_MIR_CTL with OP DEGRADE (R139). -/
def execMirDegrade (head : Nat) (value : BitVec 32) (s : State) : Outcome State Fault Refusal :=
  .next (s.setupWrite head (fun s => s.mirCtl value.toNat))

/-- REFRESH. -/
def execRefresh (ch : Nat) (bank : Option Nat) (mr4 : Nat) (s : State) : Outcome State Fault Refusal :=
  .next (if s.sec.trained && ch < 32 then s.refresh ch bank mr4 else s)

/-- RFM: refresh management, where the DIMM's mode registers require it (R147). -/
def execRfm (ch bank : Nat) (s : State) : Outcome State Fault Refusal := .next (s.rfmDue ch bank)

/-- ACT_LIMIT: a row that has reached ACT_LIMIT activations is mitigated, and its count resets (R147). -/
def execActLimit (ch bank row : Nat) (s : State) : Outcome State Fault Refusal := .next (s.rowLimit ch bank row)

/-- PATROL_SCRUB. -/
def execPatrolScrub (footing : Nat) (media : List (Nat × Media)) (s : State) : Outcome State Fault Refusal :=
  .next (s.patrolBatch footing media)

/-- SCRUB_COVERAGE. -/
def execScrubCoverage (footing : Nat) (s : State) : Outcome State Fault Refusal := .next (s.coverageExpires footing)

/-- CALIBRATION. -/
def execCalibration (ch : Nat) (s : State) : Outcome State Fault Refusal := .next (s.calibrate ch)

/-- CALIBRATION_FORCED. -/
def execCalibrationForced (ch : Nat) (s : State) : Outcome State Fault Refusal := .next (s.calibrateForced ch)

/-- CALIBRATION_END. -/
def execCalibrationEnd (ch : Nat) (ok : Bool) (s : State) : Outcome State Fault Refusal := .next (s.calibrateEnds ch ok)

/-- MEMORY_TRAINING. -/
def execMemoryTraining (dimms : List (Option Dimm)) (s : State) : Outcome State Fault Refusal := .next (s.train dimms)

/-- START_UP_SCRUB. -/
def execStartUpScrub (regions : Nat) (bad : List Nat) (s : State) : Outcome State Fault Refusal := .next (s.startScrub regions bad)

/-- DIR_AUDIT. -/
def execDirAudit (k line : Nat) (dir : DirErr) (s : State) : Outcome State Fault Refusal := .next (s.auditEntry k line dir)

end Sys2Proof.Machine
end

