-- ==== Sys2Proof/Machine/Commit.lean ====
section
/-! DEFINITION. Commit domains, the frame a commit captures, the one commit engine, and how an outcome is reported
(R453 to R459, R495). -/

namespace Sys2Proof.Machine

open Host (Outcome)

/-- First offset of a domain's registers, and the offset after its last (R454, R462, R466). -/
def Dom.span : Dom → Nat × Nat
  | .ctl => (0x010000, 0x018000)
  | .adr => (0x020000, 0x028000)
  | .cmp => (0x040000, 0x048000)
  | .coh => (0x060000, 0x068000)
  | .med => (0x070000, 0x078000)
  | .rng => (0x080000, 0x088000)
  | .eng => (0x090000, 0x092000)
  | .grp => (0x092000, 0x093000)
  | .idx => (0x093000, 0x094000)
  | .tim => (0x0A0000, 0x0A8000)
  | .pwr => (0x0B0000, 0x0B8000)
  | .obs => (0x0C0000, 0x0C8000)
  | .sec => (0x0D0000, 0x0D8000)
  | .hed h => (0x0E0000 + h * 0x1000, 0x0E0800 + h * 0x1000)

/-- Offset of a domain's block, from which WHERE counts (R458). -/
def Dom.block : Dom → Nat
  | .hed h => 0x0E0000 + h * 0x1000
  | d => d.span.1 / 0x10000 * 0x10000

/-- The commit register of a domain (R454). -/
def Dom.commitOff (d : Dom) : Nat := d.span.1

/-- The domain whose commit register lies at an offset (R454). -/
def domOf (off : Nat) : Option Dom :=
  ([Dom.ctl, .adr, .cmp, .coh, .med, .rng, .eng, .grp, .idx, .tim, .pwr, .obs, .sec] ++ (List.range 12).map Dom.hed).find?
    (fun d => d.commitOff == off)

/-- The selector of a domain, if its window has one (R457). -/
def Dom.selOff : Dom → Option Nat
  | .adr => some offAdrSel
  | .cmp => some offCmpSel
  | .rng => some offRngSel
  | .eng => some offCtxSel
  | .grp => some offGrpSel
  | .idx => some offIdxSel
  | _ => none

/-- Bits of a selector that name an object. -/
def selBits (off : Nat) : Nat :=
  if off = offAdrSel then 14 else if off = offCmpSel then 8 else if off = offRngSel then 12
  else if off = offCtxSel then 12 else if off = offTblSel then 12 else if off = offGrpSel then 8
  else if off = offIdxSel then 10 else 0

/-- The code of a reason (R459). -/
def Reason.code : Reason → Nat
  | .accepted => 0 | .zero => 1 | .encoding => 2 | .range => 3 | .overlap => 4 | .state => 5 | .composition => 6
  | .quota => 7 | .acl => 8 | .parity => 9 | .dcap => 10 | .version => 11 | .busy => 12

/-- The place of a reason in the precedence of R495. -/
def Reason.rank : Reason → Nat
  | .busy => 1 | .zero => 2 | .encoding => 3 | .composition => 4 | .range => 5 | .overlap => 6 | .state => 7 | .acl => 8
  | .quota => 9 | .parity => 10 | .dcap => 11 | .version => 12 | .accepted => 13

/-- A check of a commit: the reason it reports, the register it finds at fault, and whether it fails. -/
structure Check where
  reason : Reason
  at_ : Nat
  fails : Bool
  deriving DecidableEq, Repr

/-- The check a commit reports: of those that fail, the first of the highest precedence (R495). -/
def faultOf (cs : List Check) : Option Check :=
  (cs.filter (·.fails)).foldl (fun (b : Option Check) c => match b with
    | some x => if c.reason.rank < x.reason.rank then some c else b
    | none => some c) none

namespace State

/-- The value of a selector. -/
def selAt (s : State) (off : Nat) : Nat := s.immAt off % 2 ^ selBits off

/-- Report a commit's outcome in its domain's status (R458). -/
def report (s : State) (d : Dom) (r : Reason) (at_ : Nat) : State :=
  let st := s.regs.status.getD d.commitOff {}
  let st' : DomStatus := { done := (st.done + 1) % 2 ^ 32, whereOff := at_, reason := r }
  { s with regs := { s.regs with status := s.regs.status.set d.commitOff st' } }

/-- A commit lands: its staged frame is captured and waits for the engine, or BUSY is reported (R455). -/
def commitLands (s : State) (d : Dom) : State :=
  if 16 ≤ s.regs.queue.length then s.report d .busy 0
  else
    let (a, b) := d.span
    let f : Frame := { dom := d, sel := match d.selOff with | some o => s.selAt o | none => 0
                       words := Tab.filter s.regs.staged (fun o _ => a ≤ o && o < b) }
    { s with regs := { s.regs with queue := s.regs.queue ++ [f] } }

/-- The engine takes the frame at the front of its queue, when it is of the domain given and satisfies `p` (R455). -/
def takeFrame (s : State) (d : Dom) (p : Frame → Bool) : Option (Frame × State) :=
  match s.regs.queue with
  | f :: rest => if f.dom = d && p f then some (f, { s with regs := { s.regs with queue := rest } }) else none
  | [] => none

/-- Apply a commit: rejected with the reason of its first failing check, or accepted with `eff` (R456, R495). -/
def decide_ (s : State) (d : Dom) (cs : List Check) (eff : State → State) : State :=
  match faultOf cs with
  | some c => s.report d c.reason (c.at_ - d.block)
  | none => (eff s).report d .accepted 0

/-- Take over a frame's words into the committed copies, for the offsets given (R453). -/
def adopt (s : State) (f : Frame) (offs : List Nat) : State :=
  let inn (o : Nat) : Bool := offs.contains o
  let kept := s.regs.committed.filter (fun o _ => !(inn o))
  let new := Tab.filter f.words (fun o _ => inn o)
  { s with regs := { s.regs with committed := new.fold (fun t o w => Tab.set t o w) kept } }

/-- Whether a frame's word differs from the committed copy (R456). -/
def changes (s : State) (f : Frame) (off : Nat) : Bool := f.word off != s.cfg off

/-- Population in 2 MiB units. -/
def pUnits (s : State) : Nat := s.med.p / 2 ^ 21

/-- Whether the start-up scrub has passed every region of a range (R444). -/
def scrubPassed (s : State) (base len : Nat) : Bool := decide ((base + len) * 2 ^ 21 ≤ s.med.front) || len == 0

/-- Whether two ranges of units meet. -/
def meets (a la b lb : Nat) : Bool := decide (a < b + lb) && decide (b < a + la)

/-- Whether a range meets an extent that is not Free. -/
def meetsExtent (s : State) (base len : Nat) : Bool := s.exts.any (fun _ e => e.state != ExtState.free && meets base len e.base e.len)

/-- Whether a range meets a slot of the rescue pool still in the pool (R143). -/
def meetsPool (s : State) (base len : Nat) : Bool :=
  let b := s.cfgF offMedRescue 21 0
  (List.range (s.cfgF offMedRescue 28 22)).any (fun i => s.inPool (b + i) && decide (base ≤ b + i) && decide (b + i < base + len))

/-- Whether a range meets the parity reserve in force (R133). -/
def meetsReserve (s : State) (base len : Nat) : Bool :=
  let w := s.cfg offMedPar
  bit w 63 && meets base len (fld w 21 0) (fld w 54 32)

end State

/-- COMMIT_WRITE: GO captures the domain's frame; any other write is ignored (R454, R455). -/
def execCommitWrite (head off : Nat) (value : BitVec 32) (s : State) : Outcome State Fault Refusal :=
  .next (s.setupWrite head (fun s => match domOf off with
    | some d => if bit value.toNat 0 then s.commitLands d else s
    | none => s))

end Sys2Proof.Machine
end

