-- ==== Sys2Proof/Machine/Rings.lean ====
section
/-! DEFINITION. Ring pairs: their regions and states, the doorbell and status lines, fetching, errors, creation and
destruction, and the commit of the RNG block (R152 to R164, R183). -/

namespace Sys2Proof.Machine

open Host (Outcome)

/-! ### The common header and synchronisation block (R165) -/

def hdrOpcode (d : Nat) : Nat := fld d 7 0
def hdrVersion (d : Nat) : Nat := fld d 11 8
def hdrSpan (d : Nat) : Nat := fld d 13 12
def hdrAcquire (d : Nat) : Bool := bit d 16
def hdrRelease (d : Nat) : Bool := bit d 17
def hdrSignal (d : Nat) : Bool := bit d 18
def hdrInterrupt (d : Nat) : Bool := bit d 19
def hdrChain (d : Nat) : Bool := bit d 20
def hdrTag (d : Nat) : Nat := fld d 63 32
def hdrStep (d : Nat) : Nat := fld d 95 64
def hdrWaitCtr (d : Nat) : Nat := fld d 111 96
def hdrSigCtr (d : Nat) : Nat := fld d 127 112
def hdrThresh (d : Nat) : Nat := fld d 191 128
def hdrSigAdd (d : Nat) : Nat := fld d 255 192

/-- Slots of a SPAN value; the reserved value counts as one slot (R168 step 2). -/
def spanSlots (n : Nat) : Nat := match n with
  | 1 => 2
  | 2 => 4
  | _ => 1

/-- The code of a ring's state (R154). -/
def RingState.code : RingState → Nat
  | .free => 0 | .zeroing => 1 | .active => 2 | .error => 3 | .destroying => 4

/-- The status of a RING_ERROR event (R184). -/
def ringErrStatus (reason : Nat) : Nat := match reason with
  | 3 => 4
  | 4 => 5
  | _ => 2

/-- The regions of a ring as byte ranges: SQ, CQ, doorbell, status, counter map (R152). -/
def Ring.regions (r : Ring) : List (Nat × Nat) :=
  [(r.sqBase * 4096, 64 * r.sqEntries), (r.cqBase * 4096, 32 * r.cqEntries), (64 * r.doorbell, 64), (64 * r.status, 64)]
    ++ (if r.ctrCount = 0 then [] else [(r.ctrBase * 4096, 8 * r.ctrCount)])

/-- The owning Keystone of a ring: the home of its doorbell line (R23). -/
def Ring.owner (r : Ring) : Nat := lineHome r.doorbell

namespace State

/-- A ring pair. -/
def ringAt (s : State) (i : Nat) : Ring := s.rings.getD i {}

/-- Change a ring pair. -/
def modRing (s : State) (i : Nat) (f : Ring → Ring) : State := { s with rings := s.rings.set i (f (s.ringAt i)) }

/-- Commands of a ring fetched and not yet completed (R154). -/
def inflight (s : State) (i : Nat) : Nat := (s.cmds.vals.filter (fun c => c.ring == i)).length

/-- Write a ring's status line as one full-line write; REASON shows in ERROR alone (R159, R162). -/
def writeStatus (s : State) (i : Nat) : State :=
  let r := s.ringAt i
  let v := put r.sqHead 31 0 + put r.cqTail 63 32 + put r.state.code 71 64 + put (if r.state == .error then r.reason else 0) 79 72
  s.ownLine r.status (BitVec.ofNat 512 v) beAll true

/-- A command ends: its record waits only for its release, its signal and its outstanding writes (R170, R211). -/
def endCmd (s : State) (c : Nat) (st : Nat) : State :=
  s.modCmd c (fun x => { failWith s.stamp st x with phase := .ended, ended := s.stamp40 })

/-- A command completes at a stage of R168 without running. -/
def refuseCmd (s : State) (c : Nat) (st r0 : Nat) : State :=
  s.modCmd c (fun x => { x with phase := .ended, status := st, r0 := r0, start := s.stamp40, ended := s.stamp40, watched := false })

/-- A descriptor leaves the dispatcher: what the next one has to know of its chain (R169). -/
def passOn (s : State) (i cid : Nat) (chain : Bool) : State :=
  s.modRing i (fun r => { r with chainHead := chain, chainFail := false, chainWait := if chain then some cid else none })

/-- A descriptor completes at a stage without running. -/
def refuse (s : State) (i cid st r0 : Nat) : State :=
  match s.cmds.get? cid with
  | none => s
  | some c => (s.passOn i cid (hdrChain c.desc && !c.firstFail)).refuseCmd cid st r0

/-- Commands of a ring that are fetched and not dispatched, in slot order. -/
def undispatched (s : State) (i : Nat) : List Nat :=
  s.cmds.keys.filter (fun c => (s.cmds.get? c).any (fun x => x.ring == i && (x.phase == .fetched || x.phase == .waiting || x.phase == .share)))

/-- A ring enters ERROR: it stops fetching, its status line follows and a RING_ERROR event is raised; for REVOKED its
fetched commands that are not dispatched complete with REVOKED (R157, R159). -/
def ringError (s : State) (i reason : Nat) : State :=
  let r := s.ringAt i
  if !(r.state == .active || (r.state == .zeroing && reason == 3)) then s
  else
    let s := s.modRing i (fun r => { r with state := .error, reason := reason, woken := false })
    let s := s.raiseEvent 0xF1 (ringErrStatus reason) i reason
    let s := if reason = 3 then (s.undispatched i).foldl (fun s c => s.refuseCmd c 4 0) s else s
    s.writeStatus i

/-! ### Fetching (R161, R163) -/

/-- Read one slot of a descriptor: its 512 bits and the status the read gives. -/
def readSlot (s : State) (r : Ring) (n : Nat) (media : List (Nat × Media)) : (Nat × Nat) × State :=
  s.ownRead media (r.sqBase * 4096 + 64 * (n % r.sqEntries)) 64

/-- Slot `j + 1` of a span, put above the slots before it. -/
def addSlot (j : Nat) (acc x : Nat × Nat) : Nat × Nat :=
  (acc.1 + x.1 <<< (512 * (j + 1)), if acc.2 = 0 || x.2 = readWaits then x.2 else acc.2)

/-- Read the slots of a span after its first: the bits above the first slot, and the first failing status. -/
def readSpan (s : State) (r : Ring) (n slots : Nat) (media : List (Nat × Media)) : (Nat × Nat) × State :=
  (List.range (slots - 1)).foldl (fun (acc : (Nat × Nat) × State) j =>
    let x := acc.2.readSlot r (n + j + 1) media
    (addSlot j acc.1 x.1, x.2)) ((0, 0), s)

/-- The group a ring is attached to, plus 1. -/
def grpOfRing (s : State) (ring : Nat) : Nat :=
  match s.eng.grps.find? (fun _ (g : Grp) => g.state != GrpState.free && g.rings.has ring) with
  | some (i, _) => i + 1
  | none => 0

/-- The table an opcode binds, by its descriptor (R305, R311, R317). -/
def tableNamed (d : Nat) : Option Nat := match hdrOpcode d with
  | 0x28 => some (fld d 591 576)
  | 0x29 => some (fld d 431 416)
  | _ => none

/-- Bind the current version of the table a fetched command names (R305): what the command keeps, 0 when it binds
nothing. -/
def bindTable (s : State) (ring d : Nat) : Nat × State :=
  match tableNamed d with
  | none => (0, s)
  | some t =>
    match s.eng.tbls.get? t with
    | none => (0, s)
    | some x =>
      if x.comp != (s.ringAt ring).comp then (0, s)
      else match x.vers.find? (fun v => v.state == 1) with
        | none => (0, s)
        | some v =>
          let x' : Tbl := { x with vers := x.vers.map (fun y => if y.ver = v.ver then { y with bound := y.bound + 1 } else y) }
          (1 + t * 2 ^ 32 + v.ver, { s with eng := { s.eng with tbls := s.eng.tbls.set t x' } })

/-- Whether the ring and the controller have room for one more command (R163). -/
def fetchRoom (s : State) (i : Nat) : Bool :=
  let r := s.ringAt i
  !(sub32 r.sqTail r.sqHead == 0 || r.sqEntries == 0 || r.publishHold.isSome) &&
    !(decide (r.cqEntries ≤ sub32 r.cqTail r.cqHead + s.inflight i) || decide (1024 ≤ s.inflight i) ||
      decide (65536 ≤ s.cmds.size))

/-- Take a fetched command in: it binds its table, and SQ_HEAD moves past its slots. `st` and `st2` are the statuses of
its first and later slots' reads. -/
def takeFetched (s : State) (i desc slots st st2 : Nat) : State :=
  let b := if st = 0 && st2 = 0 then s.bindTable i desc else (0, s)
  let cmd : Cmd :=
    { ring := i, seq := (s.ringAt i).sqHead, desc := desc, slots := slots, readFail := if st = 0 then st2 else st
      firstFail := st != 0, bound := b.1, group := b.2.grpOfRing i }
  let hold := if st = 0 && hdrOpcode desc == 0x2A then some b.2.nextCid else none
  let s' := { b.2 with cmds := b.2.cmds.set b.2.nextCid cmd, nextCid := b.2.nextCid + 1 }
  s'.modRing i (fun r => { r with sqHead := (r.sqHead + slots) % 2 ^ 32, publishHold := hold })

/-- The slots a descriptor takes, by its first slot; 1 where that cannot be read (R159, R172). -/
def slotsOf (d st : Nat) : Nat := if st = 0 then spanSlots (hdrSpan d) else 1

/-- Fetch the next descriptor, when it meets the conditions of R163 and takes no more than the slots left of the turn. Answers the
slots it took, 0 when it waits. -/
def fetchOne (s : State) (i room : Nat) (media : List (Nat × Media)) : Nat × State :=
  let r := s.ringAt i
  if !(s.fetchRoom i) then (0, s)
  else
    let a := s.readSlot r r.sqHead media
    let slots := slotsOf a.1.1 a.1.2
    let b := a.2.readSpan r r.sqHead slots media
    if a.1.2 = readWaits then (0, a.2)
    else if sub32 r.sqTail r.sqHead < slots || room < slots then (0, s)
    else if b.1.2 = readWaits then (0, b.2)
    else
      (slots, b.2.takeFetched i (a.1.1 + b.1.1) slots a.1.2 b.1.2)

/-- Fetch descriptors in slot order, up to a turn of 16 slots (R163, R164). -/
def fetchTurn (s : State) (i : Nat) (media : List (Nat × Media)) : Nat → Nat → State
  | 0, _ => s
  | n + 1, used =>
    let x := s.fetchOne i (16 - used) media
    if x.1 = 0 then x.2 else x.2.fetchTurn i media n (used + x.1)

/-- Whether a ring has descriptors pending that it may fetch (R163, R164). -/
def fetchPending (s : State) (i : Nat) : Bool := (s.ringAt i).state == .active && s.fetchRoom i

/-- Whether it is a ring's turn: going round from the ring its Keystone served last, no other ring with descriptors pending comes
first (R164). -/
def fetchIsNext (s : State) (i : Nat) : Bool :=
  let k := (s.ringAt i).owner
  let from_ (j : Nat) : Nat := (j + 4096 - s.fetchLast.getD k 0 - 1) % 4096
  s.rings.keys.all (fun j => j == i || (s.ringAt j).owner != k || !(s.fetchPending j) || decide (from_ i < from_ j))

/-- A ring's turn at its Keystone's fetcher (R164). -/
def takeTurn (s : State) (i : Nat) (media : List (Nat × Media)) : State :=
  if s.fetchPending i && s.fetchIsNext i then
    { s with fetchLast := s.fetchLast.set (s.ringAt i).owner i }.fetchTurn i media 16 0
  else s

/-- The woken fetcher reads the doorbell, checks for overruns and fetches (R161, R163). A doorbell that overruns both rings is reported as
SQ_OVERRUN (DESIGN CHOICE, log entry 74). -/
def fetch (s : State) (i : Nat) (media : List (Nat × Media)) : State :=
  let r := s.ringAt i
  if !(r.state == .active) || s.sec.pkgFault then s
  else
    let ((w, st), s) := if r.woken then s.ownRead media (64 * r.doorbell) 8 else ((r.sqTail + r.cqHead <<< 32, 0), s)
    if st = readWaits then s
    else if st ≠ 0 then s.ringError i 4
    else
      let s := s.modRing i (fun r => { r with woken := false, sqTail := fld w 31 0, cqHead := fld w 63 32 })
      let r := s.ringAt i
      if r.sqEntries < sub32 r.sqTail r.sqHead then s.ringError i 1
      else if r.cqEntries < sub32 r.cqTail r.cqHead then s.ringError i 2
      else
        let s' := s.takeTurn i media
        if (s'.ringAt i).sqHead = r.sqHead then s' else s'.writeStatus i

/-! ### Creation and destruction (R155 to R158) -/

/-- A power of two from 16 to 65,536. -/
def entriesOk (n : Nat) : Bool := [16, 32, 64, 128, 256, 512, 1024, 2048, 4096, 8192, 16384, 32768, 65536].contains n

/-- The ring a frame of the RNG window describes (R154). -/
def ringOf (f : Frame) : Ring :=
  { sqEntries := f.fld offRngSq 48 32, sqBase := f.fld offRngSq 30 0
    cqEntries := f.fld offRngCq 48 32, cqBase := f.fld offRngCq 30 0
    doorbell := f.fld offRngLines 36 0, status := f.fld (offRngLines + 8) 36 0
    ctrCount := f.fld offRngCtr 48 32, ctrBase := f.fld offRngCtr 30 0
    comp := f.fld offRngAttr 63 56, intEn := bit (f.word offRngAttr) 55, intHead := f.fld offRngAttr 54 51
    intVec := f.fld offRngAttr 50 40, waitExp := f.fld offRngAttr 37 32, verMask := f.fld offRngAttr 31 16
    ctx := f.fld offRngAttr 15 4 }

/-- The descriptor versions the controller supports, as RNG_CAP (R154). -/
def rngCap : Nat := 0x0006

/-- The highest version both sides accept; 0 when there is none (R156). -/
def grantVersion (mask : Nat) : Nat :=
  ((List.range 15).map (· + 1)).foldl (fun b v => if bit mask v && bit rngCap v then v else b) 0

/-- Rings of a composition that are not FREE. -/
def ringsOf (s : State) (c : Nat) : Nat := (s.rings.vals.filter (fun r => r.state != .free && r.comp == c)).length

/-- Pairs of a list, each element with the ones after it. -/
def pairsOf {α : Type} : List α → List (α × α)
  | [] => []
  | a :: t => t.map (fun b => (a, b)) ++ pairsOf t

/-- The checks of a ring CREATE (R155). -/
def createRingChecks (s : State) (i : Nat) (f : Frame) : List Check :=
  let r := ringOf f
  let compOk := s.comps.has r.comp
  let ctx := s.eng.ctxs.getD r.ctx {}
  let outside (a n : Nat) : Bool := !(s.inOwnSoft r.comp a n)
  [ ⟨.zero, offRngSq, r.sqEntries == 0⟩, ⟨.zero, offRngCq, r.cqEntries == 0⟩,
    ⟨.encoding, offRngSq, !(entriesOk r.sqEntries)⟩, ⟨.encoding, offRngCq, !(entriesOk r.cqEntries)⟩,
    ⟨.encoding, offRngCtr, decide (65536 < r.ctrCount)⟩,
    ⟨.encoding, offRngAttr, decide (r.waitExp < 10) || decide (40 < r.waitExp) || decide (11 < r.intHead)⟩,
    ⟨.composition, offRngAttr, !compOk || !(ctx.enable && ctx.comp == r.comp)⟩,
    ⟨.range, offRngSq, compOk && outside (r.sqBase * 4096) (64 * r.sqEntries)⟩,
    ⟨.range, offRngCq, compOk && outside (r.cqBase * 4096) (32 * r.cqEntries)⟩,
    ⟨.range, offRngLines, compOk && (outside (64 * r.doorbell) 64 || outside (64 * r.status) 64)⟩,
    ⟨.range, offRngCtr, compOk && r.ctrCount != 0 && outside (r.ctrBase * 4096) (8 * r.ctrCount)⟩,
    ⟨.overlap, offRngSq, (pairsOf r.regions).any (fun p => meets p.1.1 p.1.2 p.2.1 p.2.2)⟩,
    ⟨.overlap, offRngLines, s.rings.any (fun j x => j != i && x.state != .free && x.doorbell == r.doorbell)⟩,
    ⟨.state, offRngAttr, (s.ringAt i).state != .free⟩,
    ⟨.quota, offRngAttr, compOk && decide (nth (s.comps.getD r.comp {}).quota 6 0 ≤ s.ringsOf r.comp)⟩,
    ⟨.quota, offRngAttr, decide (4096 ≤ (s.rings.vals.filter (fun x => x.state != RingState.free)).length)⟩,
    ⟨.version, offRngAttr, grantVersion r.verMask == 0⟩ ]

/-- The checks of an event-ring configuration that changes (R183, R456). -/
def evtChecks (s : State) (f : Frame) : List Check :=
  let w := f.word offRngEvtCfg
  if !(s.changes f offRngEvtCfg) || !(ringOn w) then []
  else
    [ ⟨.encoding, offRngEvtCfg, decide (fld w 36 32 < 8) || decide (16 < fld w 36 32)⟩,
      ⟨.range, offRngEvtCfg, !(s.inSoft (ringBase w) (32 * ringSize w))⟩ ]

/-- Whether a record ring's new configuration has it zeroed (R183, R417, R421). -/
def ringZeroes (old new : Nat) : Bool :=
  ringOn new && (!(ringOn old) || fld old 36 32 != fld new 36 32 || fld old 30 0 != fld new 30 0)

/-- Apply an event-ring configuration (R183). Events in the backlog stay there while ENABLE is clear (R185; DESIGN CHOICE, log entry 74). -/
def applyEvt (s : State) (f : Frame) : State :=
  let z := ringZeroes (s.cfg offRngEvtCfg) (f.word offRngEvtCfg)
  let s := s.adopt f [offRngEvtCfg]
  if z then { s with events := { s.events with zeroing := true } } else s.flushEvents 257

/-- Take a ring to DESTROYING: undispatched commands complete with ABORTED (R158). -/
def destroyRing (s : State) (i : Nat) : State :=
  let cs := s.undispatched i
  let s := cs.foldl (fun s c => s.refuseCmd c 8 0) s
  (s.modRing i (fun r => { r with state := .destroying, aborted := r.aborted + cs.length, woken := false })).writeStatus i

/-- Apply a frame of the RNG domain (R155, R183, R454, R456). -/
def applyRng (s : State) (f : Frame) : State :=
  let i := f.sel
  let op := f.fld offRngAttr 1 0
  let cs := match op with
    | 1 => s.createRingChecks i f
    | 2 => [⟨.state, offRngAttr, !((s.ringAt i).state == .active || (s.ringAt i).state == .error)⟩]
    | 3 => [⟨.encoding, offRngAttr, true⟩]
    | _ => []
  let all := cs ++ s.evtChecks f
  let refused := match faultOf all with | some c => c.reason == Reason.quota | none => false
  let s := if refused then s.bumpMeter (ringOf f).comp mRefused 1 else s
  s.decide_ .rng all (fun s =>
    let s := s.applyEvt f
    match op with
    | 1 =>
      let r := ringOf f
      { s with rings := s.rings.set i { r with state := .zeroing, version := grantVersion r.verMask } }.writeStatus i
    | 2 => s.destroyRing i
    | _ => s)

/-- Zeroing of a new ring ends (R157). -/
def ringIsZeroed (s : State) (i : Nat) : State :=
  let r := s.ringAt i
  if r.state == .zeroing then
    let s := (List.range (r.cqEntries / 2)).foldl (fun s j => s.ownLine (r.cqBase * 64 + j) 0 beAll true) s
    (s.modRing i (fun r => { r with state := .active, sqHead := 0, cqTail := 0, sqTail := 0, cqHead := 0 })).writeStatus i
  else s

/-- A ring whose commands have all completed becomes FREE and reports RING_GONE (R157, R158). -/
def ringIsGone (s : State) (i : Nat) : State :=
  let r := s.ringAt i
  if r.state == .destroying && s.inflight i = 0 then
    let s := s.modRing i (fun r => { r with state := .free })
    let s := s.writeStatus i
    ({ s with rings := s.rings.set i {}
              eng := { s.eng with grps := s.eng.grps.mapV (fun _ (g : Grp) => { g with rings := g.rings.erase i }) } }).raiseEvent 0xF2 0 i r.aborted
  else s

end State

/-- Whether a frame of the RNG domain carries an operation. -/
def rngOpIs (op : Nat) (f : Frame) : Bool := f.fld offRngAttr 1 0 == op

/-- RING_CREATE. -/
def execRingCreate (s : State) : Outcome State Fault Refusal :=
  .next (match s.takeFrame .rng (rngOpIs 1) with | some (f, s) => s.applyRng f | none => s)

/-- RING_DESTROY. -/
def execRingDestroy (s : State) : Outcome State Fault Refusal :=
  .next (match s.takeFrame .rng (rngOpIs 2) with | some (f, s) => s.applyRng f | none => s)

/-- RNG_COMMIT: a commit without an operation; the reserved operation is rejected (R155, R183). -/
def execRngCommit (s : State) : Outcome State Fault Refusal :=
  .next (match s.takeFrame .rng (fun f => rngOpIs 0 f || rngOpIs 3 f) with | some (f, s) => s.applyRng f | none => s)

/-- RING_ZEROED. -/
def execRingZeroed (ring : Nat) (s : State) : Outcome State Fault Refusal := .next (s.ringIsZeroed ring)

/-- RING_GONE. -/
def execRingGone (ring : Nat) (s : State) : Outcome State Fault Refusal := .next (s.ringIsGone ring)

/-- RING_FETCH. -/
def execRingFetch (ring : Nat) (media : List (Nat × Media)) (s : State) : Outcome State Fault Refusal := .next (s.fetch ring media)

end Sys2Proof.Machine
end

