-- ==== Sys2Proof/Machine/Operands.lean ====
section
/-! DEFINITION. Operand forms: segments and the places their addresses name, tensor references, Ashlar geometry, and the
reads and writes a command's engines and units make while one work item runs (R203 to R212, R215, R216, R248, R262 to R267,
R441). -/

namespace Sys2Proof.Machine

/-! ### Segments (R204, R205) -/

/-- The 16 bits and fields of one segment-table entry of 256 bits (R204). Low bits of VBASE and TBASE that are not 0 count as they stand
(DESIGN CHOICE, log entry 74). -/
def segOf (e : Nat) : Seg :=
  { kind := fld e 111 108, vbase := fld e 55 0, len := fld e 107 64, tbase := fld e 191 128, port := fld e 127 116
    head := fld e 195 192, wr := bit e 112, pin := bit e 113, rc := bit e 114, pg := fld e 115 115 }

/-- Bytes of a segment. -/
def Seg.size (g : Seg) : Nat := g.len * 4096

/-- Bytes of a migration page (R204, R263). -/
def pageSize (big : Bool) : Nat := if big then 2097152 else 65536

/-- Bytes of a page of a migratable segment. -/
def Seg.page (g : Seg) : Nat := pageSize (g.pg == 1)

/-- Whether the bytes from `va` meet a segment. -/
def Seg.meets (g : Seg) (va n : Nat) : Bool := g.kind != 0 && decide (va < g.vbase + g.size) && decide (g.vbase < va + n)

/-- The one segment that holds the bytes from `va`: no other meets them, and they do not reach beyond it (R205). -/
def segHolding (segs : List Seg) (va n : Nat) : Option Seg :=
  match segs.filter (fun g => g.meets va n) with
  | [g] => if g.vbase ≤ va && va + n ≤ g.vbase + g.size then some g else none
  | _ => none

/-- Where a byte of an address stands. -/
inductive Place where
  | loc (dpa : Nat)
  | fab (port addr : Nat)
  | host (head addr : Nat)
  deriving DecidableEq, Repr, Inhabited

/-- Whether a segment lies in this controller's own store, whose port ID is `own`: a LOCAL one, or a FABRIC one that names it (R35). -/
def Seg.here (own : Nat) (g : Seg) : Bool := g.kind == 1 || (g.kind == 2 && g.port == own)

/-- The place of an address of a segment; `own` is this controller's port ID (R35). -/
def Seg.place (own : Nat) (g : Seg) (va : Nat) : Place :=
  let a := g.tbase + (va - g.vbase)
  if g.here own then .loc a else if g.kind = 2 then .fab g.port a else .host g.head (a % 2 ^ 64)

/-- Whether a range of regions lies wholly inside extents of a composition in the given states. -/
def State.coveredBy (s : State) (c : Nat) (ok : ExtState → Bool) : Nat → Nat → Nat → Bool
  | 0, _, _ => false
  | fuel + 1, a, b =>
    if b ≤ a then true
    else match s.extAt (a / 64) with
      | some (_, e) => ok e.state && e.comp == c && s.coveredBy c ok fuel ((e.base + e.len) * 2 ^ 21) b
      | none => false

/-- Whether a LOCAL segment's target range lies inside its composition's extents, Active or Draining (R205). -/
def State.segLocalOk (s : State) (c : Nat) (g : Seg) : Bool :=
  decide (g.tbase + g.size ≤ 2 ^ 43) &&
    s.coveredBy c (fun x => x == .active || x == .draining) (s.exts.size + 1) g.tbase (g.tbase + g.size)

/-- Whether a segment may be used at all, as the context stands (R205). -/
def State.segUsable (s : State) (x : Ctx) (g : Seg) : Bool :=
  if g.kind = 1 then g.pin && s.segLocalOk x.comp g
  else if g.kind = 2 then g.pin
  else if g.kind = 3 then bit x.hostMask g.head && decide (g.head < 12)
  else false

/-- What an operand asks of the segment it lies in. -/
inductive Need where
  | any | pinned | local_ | store
  | pages (n : Nat)                     -- whole pages of one migratable segment, from an aligned address (R223)
  deriving DecidableEq, Repr, Inhabited

/-- An address range a command names: its start and length, whether it is written, what its segment must be, and the byte
offset of its field in the descriptor (R168). -/
structure Use where
  va : Nat
  n : Nat
  wr : Bool
  need : Need
  off : Nat
  deriving DecidableEq, Repr, Inhabited

/-- Whether a used range passes R205 and R206. -/
def Use.ok (u : Use) (segs : List Seg) : Bool :=
  if u.n = 0 then true
  else match segHolding segs u.va u.n with
    | some g => g.ok && (g.wr || !u.wr) &&
        (match u.need with
          | .any => true
          | .pinned => g.pin
          | .local_ => g.kind == 1
          | .store => g.kind == 1 || g.kind == 2
          | .pages n => g.kind == 3 && !g.pin && u.va % g.page == 0 && decide (u.va + n * g.page ≤ g.vbase + g.size))
    | none => false

/-- Whether a used range lies in a segment over a Draining extent (R46, R205). -/
def State.useDraining (s : State) (u : Use) (segs : List Seg) : Bool :=
  if u.n = 0 then false
  else match segHolding segs u.va u.n with
    | some g => g.kind == 1 && s.exts.any (fun _ (e : Extent) => e.state != .active && e.state != .free &&
        decide (e.base * 2 ^ 21 < g.tbase + g.size) && decide (g.tbase < (e.base + e.len) * 2 ^ 21))
    | none => false

/-! ### Tensor references and Ashlar geometry (R215, R216, R248) -/

/-- A tensor reference, with the byte offset at which it stands in its descriptor. -/
structure Tref where
  addr : Nat
  fmt : Nat
  enc : Nat
  stride : Nat
  tid : Nat
  off : Nat
  deriving DecidableEq, Repr, Inhabited

/-- The reference at bit `lo` of a descriptor (R215). -/
def trefAt (d lo : Nat) : Tref :=
  { addr := fld d (lo + 55) lo, fmt := fld d (lo + 59) (lo + 56), enc := fld d (lo + 63) (lo + 60)
    stride := fld d (lo + 95) (lo + 64), tid := fld d (lo + 127) (lo + 112), off := lo / 8 }

/-- Rows of a full tile (R248). -/
def trf (f : Nat) : Nat := match f with
  | 0 => 8 | 10 => 8 | 1 => 16 | 2 => 16 | 3 => 16 | 4 => 16 | 8 => 16 | _ => 32

/-- Plain bytes of 128 elements, rounded up to 8 bytes (R248). -/
def rawp (f : Nat) : Nat := cdiv (rowBytes f 128) 8 * 8

/-- The geometry of an Ashlar tensor (R248). -/
structure Geo where
  tr : Nat
  tc : Nat
  nb : Nat
  pitch : Nat
  gr : Nat
  gc : Nat
  deriving DecidableEq, Repr, Inhabited

/-- The geometry of `rows × cols` elements of a format (R248). -/
def geoOf (f rows cols : Nat) : Geo :=
  let tc := min cols 2048
  let tr := min rows (trf f)
  let nb := cdiv (tr * tc) 128
  { tr := tr, tc := tc, nb := nb, pitch := cdiv (32 + nb * (8 + rawp f)) 64, gr := cdiv rows tr, gc := cdiv cols tc }

/-- Bytes a tensor occupies from its address (R216, R248). -/
def Tref.bytes (t : Tref) (rows cols : Nat) : Nat :=
  if rows = 0 || cols = 0 then 0
  else if t.enc = 1 then (let g := geoOf t.fmt rows cols; g.gr * g.gc * g.pitch * 64)
  else (rows - 1) * t.stride + rowBytes t.fmt cols

/-- The first field of a tensor reference at fault, as its byte offset in the descriptor, without its address range
(R216). -/
def Tref.fault (t : Tref) (rows cols : Nat) (dst : Bool) : Option Nat :=
  if 1 < t.enc then some (t.off + 7)
  else if !(fmtOk t.fmt) then some (t.off + 7)
  else if rows = 0 || cols = 0 then none
  else if isMx t.fmt && cols % 32 ≠ 0 && (t.enc = 0 || dst) then some (t.off + 7)
  else if t.enc = 0 then
    if t.addr % fmtAlign t.fmt ≠ 0 then some t.off
    else if t.stride % fmtAlign t.fmt ≠ 0 then some (t.off + 8)
    else if 1 < rows && t.stride < rowBytes t.fmt cols then some (t.off + 8)
    else none
  else if t.addr % 64 ≠ 0 then some t.off
  else if t.stride ≠ 0 then some (t.off + 8)
  else none

/-- The range a tensor reference uses. For an Ashlar source only its first header is known at dispatch (R249). -/
def Tref.use (t : Tref) (rows cols : Nat) (dst : Bool) (need : Need) : Use :=
  let n := if rows = 0 || cols = 0 then 0 else if t.enc = 1 && !dst then 64 else t.bytes rows cols
  { va := t.addr, n := n, wr := dst, need := need, off := t.off }

/-! ### The work of one item -/

/-- A read of the controller's own that a work item waits for. -/
structure Want where
  place : Place
  len : Nat
  die : Nat := 0                        -- for a line of the local store: the Course die it is read for, past its buffer; 16 for a Keystone
  deriving DecidableEq, Repr, Inhabited

/-- What is threaded through one work item of a command. `pz`: data of the current output is poisoned, uncorrectable or
refused; `bad`: the first failure met; `blocked`: something has to happen first. -/
structure Work where
  s : State
  cid : Nat
  src : Nat
  comp : Nat
  media : List (Nat × Media) := []
  pz : Bool := false
  bad : Nat := 0
  badAt : Nat := 0                      -- the time stamp of that failure (R174)
  gone : Bool := false                  -- a remote read among the bytes just read has failed: what came is all ones (R85, R262)
  blocked : Bool := false
  paged : Bool := false                 -- a page of a migratable segment is not resident (R265)
  wants : List Want := []
  r0 : Nat := 0
  r1 : Nat := 0
  part : Bool := false                  -- results were dropped or shortened (R173)
  halt : Bool := false                  -- the command ends with this item
  cut : Option Nat := none              -- row lines the item may still read in this run (R322)
  pick : Nat := 0                       -- which of the updates left comes next (R318)
  paused : Bool := false                -- the item goes on in a later run, from what it has read (R322)
  overlaid : Bool := false              -- the item has read bytes that an output of the command overlaps (R218)
  deriving Repr, Inhabited

/-- The key of a remote line among the lines a command has read. -/
def Place.key : Place → Nat
  | .loc a => a
  | .fab p a => (1 + p) * 2 ^ 64 + a
  | .host h a => (4097 + h) * 2 ^ 64 + a

/-- The key of the read of length 0 behind a head's host writes, which reads no line (R210). -/
def flushKey (h : Nat) : Nat := (8192 + h) * 2 ^ 64

/-- The key of what a work item waits for. -/
def Want.key (w : Want) : Nat := match w.place with
  | .host h _ => if w.len = 0 then flushKey h else w.place.key
  | p => p.key

/-- A place `n` bytes further on. -/
def Place.plus : Place → Nat → Place
  | .loc a, n => .loc (a + n)
  | .fab p a, n => .fab p (a + n)
  | .host h a, n => .host h (a + n)

/-- The low bits of a place's address. -/
def Place.addr : Place → Nat
  | .loc a => a
  | .fab _ a => a
  | .host _ a => a

/-- Whether a source is an engine, a tile mover, a gather unit, a walker, a check unit, a codec unit or a Keystone. -/
def isEngine (s : Nat) : Bool := decide (s < 1200)
def isMover (s : Nat) : Bool := decide (1248 ≤ s) && decide (s < 1312)
def isGather (s : Nat) : Bool := decide (1312 ≤ s) && decide (s < 1344)
def isWalker (s : Nat) : Bool := decide (1344 ≤ s) && decide (s < 1376)
def isCheck (s : Nat) : Bool := decide (1376 ≤ s) && decide (s < 1392)
def isCodec (s : Nat) : Bool := decide (1392 ≤ s) && decide (s < 1424)
def isKeystone (s : Nat) : Bool := decide (1244 ≤ s) && decide (s < 1248)

/-- The Course die a source stands on; a source off the Course dies has none. -/
def courseOf (src : Nat) : Option Nat := if 16 ≤ State.dieOfSrc src && State.dieOfSrc src < 32 then some (State.dieOfSrc src - 16) else none

/-- A line read from the partner is written back locally, where it still reads uncorrectable and its channel serves (R137). -/
def State.mirrorRepair (s : State) (ln : Nat) (d : Line) : State :=
  if s.chanFailed (lineChan ln) || !(s.med.ue.has ln) then s
  else (((s.logUe ln (s.med.ue.getD ln 15) true).putLine ln d).chanWrite ln).noteRepair ln

namespace Work

/-- The command. -/
def cmd (w : Work) : Cmd := w.s.cmds.getD w.cid { ring := 0, seq := 0, desc := 0, slots := 1 }

/-- Note a failure met at fabric time `t`: the earliest stands, and of two that share a time stamp the lower (R174). -/
def failAt (w : Work) (t st : Nat) : Work :=
  if w.bad = 0 || t < w.badAt then { w with bad := st, badAt := t }
  else if t = w.badAt then { w with bad := min w.bad st }
  else w

/-- Note a failure met now. -/
def fail (w : Work) (st : Nat) : Work := w.failAt w.s.stamp st

/-- Data that cannot be trusted was consumed (R219). -/
def taint (w : Work) (st : Nat) : Work := { w.fail st with pz := true }

/-- The item has to wait. -/
def block (w : Work) : Work := { w with blocked := true }

/-- The item waits for a page fault (R265). -/
def awaitPage (w : Work) : Work := { w with blocked := true, paged := true }

/-- The command ends with FAULT at this item, which writes nothing more (R249). -/
def dead (w : Work) : Work := { w.fail 11 with halt := true }

/-- What the DRAM returns for a line. -/
def mediaAt (w : Work) (ln : Nat) : Media := ((w.media.find? (fun x => x.1 == ln)).map (·.2)).getD .clean

/-- Draw a free value. -/
def draw (w : Work) : Nat × Work := (Config.free w.s.fresh, { w with s := w.s.draw.2 })

/-- Reserve `n` draws; answers the number of the first. -/
def draws (w : Work) (n : Nat) : Nat × Work := (w.s.fresh, { w with s := { w.s with fresh := w.s.fresh + n } })

/-- Whether a source keeps copies: an engine a read cache, a tile mover or graph walker a prefetch buffer (R207). -/
def keepsCopies (w : Work) : Bool := isEngine w.src || isMover w.src || isWalker w.src

/-- The copies a source keeps (R207). -/
def copies (w : Work) : Tab CopyLine :=
  if isEngine w.src then w.s.eng.readCache.getD w.src Tab.empty else w.s.eng.prefetch.getD w.src Tab.empty

/-- Replace them. -/
def setCopies (w : Work) (t : Tab CopyLine) : Work :=
  { w with s := { w.s with eng := (if isEngine w.src then { w.s.eng with readCache := w.s.eng.readCache.set w.src t }
                                    else { w.s.eng with prefetch := w.s.eng.prefetch.set w.src t }) } }

/-- The number of the next read of a copy. -/
def useCopy (w : Work) : Nat × Work :=
  (w.s.eng.copyUse, { w with s := { w.s with eng := { w.s.eng with copyUse := w.s.eng.copyUse + 1 } } })

/-- The least recently used line of the set of `ln` in a source's copies, where the set is full: 128 sets of 8 lines, numbered by
the line (R190; DESIGN CHOICE, log entry 22). -/
def copyVictim (t : Tab CopyLine) (ln : Nat) : Option Nat :=
  match t.rows.filter (fun x => x.1 % 128 == ln % 128) with
  | [] => none
  | x :: xs => if xs.length < 7 then none else some (xs.foldl (fun b y => if y.2.used < b.2.used then y else b) x).1

/-- Keep a copy of a line that was read from a segment with RC = 1 (R190, R207). -/
def keepCopy (w : Work) (ln : Nat) (d : Line) (pz : Bool) : Work :=
  if !w.keepsCopies then w
  else
    let t := w.copies
    let t := if t.has ln then t else match copyVictim t ln with | some k => t.erase k | none => t
    let (n, w) := w.useCopy
    w.setCopies (t.set ln { comp := w.comp, data := d, poison := pz, used := n })

/-- Read a copy: it becomes the last used (R190). -/
def touchCopy (w : Work) (ln : Nat) (x : CopyLine) : Work :=
  let (n, w) := w.useCopy
  w.setCopies (w.copies.set ln { x with used := n })

/-- Note the poison of a line that was read. -/
def note (w : Work) (st : Nat) : Work := if st = 0 then w else w.taint st

/-- Read a line from the store for a command: it waits for a calibration and for the line's turn, and asks the partner where only it has
the line (R26, R65, R137, R150). -/
def fromStore (w : Work) (ln : Nat) (e : Extent) : LineRead × Work :=
  let none_ : LineRead := { data := 0, poison := true }
  if w.s.readBlocked ln (w.mediaAt ln) || w.s.lineBusy ln || w.s.mirrorOut ln then (none_, w.block)
  else
    let (x, s) := (w.s.charge (cmdCharge w.cid w.comp) 1).readHome ln (w.mediaAt ln) w.media
    let w := { w with s := s }
    if x.partner then
      let a := e.pbase * 2 ^ 21 + (64 * ln - e.base * 2 ^ 21)
      match w.cmd.prefetch.get? (Place.key (.fab e.partner a)) with
      | some x =>
        if x.status = 0 then
          let r := w.s.lineAsHeld ln (BitVec.ofNat 512 x.data)
          (r, { w with s := w.s.mirrorRepair ln (BitVec.ofNat 512 x.data) }.note r.status)
        else (none_, { { w with s := w.s.partnerLost ln }.failAt x.time (if x.status = 6 then 6 else 5) with pz := true })
      | none => (none_, { w with blocked := true, wants := w.wants ++ [{ place := .fab e.partner a, len := 64 }] })
    else (x, w.note x.status)

/-- Read one line of the local store for a command, with its poison (R45, R105, R207). `rc`: it may be copied. `direct`:
read by DPA at its home Keystone, past every copy and without keeping one; a directory line whose newest bytes may lie with a
holder is asked for as an uncached read (R100, R304, R332, R356). -/
def rdLine (w : Work) (ln : Nat) (rc direct : Bool) : Line × Work :=
  match w.s.extAt ln with
  | none => (0, { w with s := w.s.refuseRead (64 * ln) }.taint 6)
  | some (_, e) =>
    if !(e.state == .active || e.state == .draining) then (0, { w with s := w.s.refuseRead (64 * ln) }.taint 6)
    else
      let store (w : Work) : Line × Work :=
        let x := w.fromStore ln e
        (x.1.data, if rc && e.coh = 0 && !direct && !x.2.blocked then x.2.keepCopy ln x.1.data x.1.poison else x.2)
      match courseOf w.src with
      | none =>
        if e.coh = 1 && w.s.lineTaken ln then (0, w.block)
        else (match w.s.mirCopy.get? ln with
          | some (some d) => (d, { w with s := { w.s with mirCopy := w.s.mirCopy.erase ln } }.note (w.s.lineAsHeld ln d).status)
          | some none => (0, { w with s := { w.s with mirCopy := w.s.mirCopy.erase ln } }.taint 5)
          | none =>
            if e.coh = 1 && w.s.heldElsewhere ln then (0, { w with blocked := true, wants := w.wants ++ [{ place := .loc (64 * ln), len := 64, die := 16 }] })
            else store w)
      | some c =>
        if e.coh = 1 then
          (match w.s.bufAt c ln with
          | some b => (b.data, if b.poison then w.taint 6 else w)
          | none =>
            if !direct || w.s.trans.has ln then (0, w.block)
            else if (w.s.dir.get? ln).any (fun e => e.st == .e || e.st == .m || e.st == .o) then
              (0, { w with blocked := true, wants := w.wants ++ [{ place := .loc (64 * ln), len := 64, die := c }] })
            else store w)
        else if direct then store w
        else match (w.s.eng.staged.getD c Tab.empty).get? ln with
          | some x => if x.comp = w.comp then (x.data, if x.poison then w.taint 6 else w) else store w
          | none => (match w.copies.get? ln with
            | some x => (x.data, if x.poison then (w.touchCopy ln x).taint 6 else w.touchCopy ln x)
            | none => store w)

/-- Split a byte range at 64-byte lines: the address and length of each piece. -/
def pieces (a n : Nat) : List (Nat × Nat) :=
  (List.range (linesTouched a n)).map (fun j =>
    let lo := max a (64 * (a / 64 + j))
    (lo, min (a + n) (64 * (a / 64 + j) + 64) - lo))

/-- Read bytes of the local store by DPA. -/
def rdLoc (w : Work) (a n : Nat) (rc direct : Bool) : Nat × Work :=
  (pieces a n).foldl (fun (acc : Nat × Work) p =>
    let (d, w) := acc.2.rdLine (p.1 / 64) rc direct
    (acc.1 + fld d.toNat (8 * (p.1 % 64 + p.2) - 1) (8 * (p.1 % 64)) <<< (8 * (p.1 - a)), w)) (0, w)

/-- Read one remote line of 64 bytes: it has been read for this item, or it is asked for (R84, R85). -/
def rdRemoteLine (w : Work) (p : Place) : Nat × Work :=
  match w.cmd.prefetch.get? p.key with
  | some x =>
    (x.data, if x.status = 0 then w else if x.status = 6 then { w.failAt x.time 6 with pz := true }
      else { w.failAt x.time x.status with gone := true })
  | none => (0, { w with blocked := true, wants := w.wants ++ [{ place := p, len := 64 }] })

/-- A read of length 0 behind the host writes of a head: it returns once they have completed (R210). -/
def rdFlush (w : Work) (h : Nat) : Nat × Work :=
  match w.cmd.prefetch.get? (flushKey h) with
  | some x => (0, if x.status = 0 then w else w.failAt x.time x.status)
  | none => (0, { w with blocked := true, wants := w.wants ++ [{ place := .host h 0, len := 0 }] })

/-- Read bytes of a remote place. -/
def rdRemote (w : Work) (p : Place) (n : Nat) : Nat × Work :=
  (pieces p.addr n).foldl (fun (acc : Nat × Work) q =>
    let ln : Place := match p with
      | .fab port _ => .fab port (q.1 / 64 * 64)
      | .host h _ => .host h (q.1 / 64 * 64)
      | .loc _ => .loc (q.1 / 64 * 64)
    let (d, w) := acc.2.rdRemoteLine ln
    (acc.1 + fld d (8 * (q.1 % 64 + q.2) - 1) (8 * (q.1 % 64)) <<< (8 * (q.1 - p.addr)), w)) (0, w)

/-- The key a host segment of the command is sealed under, if one is set (R440). -/
def sealKey (w : Work) (g : Seg) : Option Nat :=
  if g.kind = 3 then w.s.sec.ctxKeys.get? (16 * w.cmd.ctx + g.head) else none

/-- The associated data of a sealed page (R441). -/
def sealAad (ctx head page : Nat) : Nat := page + ctx <<< 64 + head <<< 80

/-- Open one sealed page of a host segment (R441). -/
def openPage (w : Work) (g : Seg) (key i : Nat) : Nat × Work :=
  let page := g.tbase + 4096 * i
  let (ct, w) := w.rdRemote (.host g.head page) 4096
  let (ent, w) := w.rdRemote (.host g.head (g.tbase + g.size + 32 * i)) 32
  if w.blocked then (0, w)
  else match Config.aesOpen key (fld ent 223 128) (sealAad w.cmd.ctx g.head page) ct (fld ent 127 0) with
    | some p => (p, w)
    | none => (0, w.taint 11)

/-- Split a byte range at 4 KiB pages counted from `b`. -/
def pagePieces (b a n : Nat) : List (Nat × Nat) :=
  if n = 0 then []
  else (List.range ((a + n - 1 - b) / 4096 - (a - b) / 4096 + 1)).map (fun j =>
    let lo := max a (b + 4096 * ((a - b) / 4096 + j))
    (lo, min (a + n) (b + 4096 * ((a - b) / 4096 + j) + 4096) - lo))

/-- The migration page that holds a host address, outside ABSENT, with its number (R264). -/
def pageAt (w : Work) (g : Seg) (a : Nat) : Option (Nat × MigPage) :=
  let big := g.pg == 1
  let size := if big then 2097152 else 65536
  w.s.eng.pages.find? (fun _ (p : MigPage) => p.comp == w.comp && p.head == g.head && p.big == big && p.host == a / size * size)

/-- The DPA of a host address in the frames of its page, when the page is resident; otherwise the item waits for the fault
(R264, R265). -/
def frameAddr (w : Work) (g : Seg) (a : Nat) : Option Nat :=
  match w.pageAt g a with
  | some (_, p) =>
    let cfg := (w.s.comps.getD w.comp {}).mig
    if p.state == .resident then some (fld cfg.word 21 0 * 2 ^ 21 + 65536 * p.frame + (a - p.host)) else none
  | none => none

/-- Whether the item may touch migratable segments: a tile mover's, of a MOVE (R206, R223). -/
def mayMigrate (w : Work) : Bool := isMover w.src && hdrOpcode w.cmd.desc == 0x01

/-- An access that resolves into a segment with PIN = 0, by any but the tile movers of a MOVE, ends the command with INVALID (R206). -/
def unpinned (w : Work) : Work := { w.fail 2 with halt := true }

/-- Read bytes of an engine virtual address: local, remote, sealed or migratable. Tile movers alone read migratable segments; an
address that fails its check ends the command (R205 to R207, R249, R262, R265, R441). -/
def rd (w : Work) (va n : Nat) : Nat × Work :=
  if n = 0 then (0, w)
  else match segHolding w.cmd.segs va n with
    | none => (0, w.dead)
    | some g =>
      if !g.pin && !w.mayMigrate then (0, w.unpinned)
      else if !g.ok then (0, w.dead)
      else if g.here w.s.port then w.rdLoc (g.tbase + (va - g.vbase)) n g.rc false
      else
        let a := g.tbase + (va - g.vbase)
        if g.kind = 3 && !g.pin then
          (pagePieces 0 a n).foldl (fun (acc : Nat × Work) q =>
            match acc.2.frameAddr g q.1 with
            | some f =>
              let (d, w) := acc.2.rdLoc f q.2 false true
              (acc.1 + d <<< (8 * (q.1 - a)), w)
            | none => (acc.1, acc.2.awaitPage)) (0, w)
        else match w.sealKey g with
          | some key =>
            (pagePieces g.tbase a n).foldl (fun (acc : Nat × Work) q =>
              let i := (q.1 - g.tbase) / 4096
              let (p, w) := acc.2.openPage g key i
              let o := (q.1 - g.tbase) % 4096
              (acc.1 + fld p (8 * (o + q.2) - 1) (8 * o) <<< (8 * (q.1 - a)), w)) (0, w)
          | none => w.rdRemote (g.place w.s.port va) n

/-! ### Writes -/

/-- A write into a line of a directory extent that the die's buffer owns: it lands there, and goes to the slot of a rebuild as any landing
does (R69, R142 step 3, R208). -/
def wrBuf (w : Work) (c ln : Nat) (b : BufLine) (d : Line) (be : ByteEn) (full pz : Bool) : Work :=
  let b' : BufLine :=
    if full then { b with data := d, poison := pz, dirty := true }
    else if pz then { b with data := mergeLine b.data d be, poison := true, dirty := true }
    else if b.poison then { b with dirty := true }
    else { b with data := mergeLine b.data d be, dirty := true }
  let s := (w.s.bufPut c ln b').rescueWrite ln b'.data (!full && b.poison) b'.poison
  { w with s := (s.countWrites w.s.port 1).charge (cmdCharge w.cid w.comp) 1 }

/-- Land a write of a command on one line of the local store (R45, R208). -/
def wrLine (w : Work) (ln : Nat) (d : Line) (be : ByteEn) (full pz : Bool) : Work :=
  match w.s.extAt ln with
  | none => { w with s := w.s.refuseWrite w.s.port (64 * ln) }
  | some (_, e) =>
    if !(e.state == .active || e.state == .draining) then { w with s := w.s.refuseWrite w.s.port (64 * ln) }
    else match (if e.coh = 1 then courseOf w.src else none) with
      | some c => (match w.s.bufAt c ln with
          | some b => if b.own && ((w.s.dir.get? ln).any (fun x => x.st == .m)) then w.wrBuf c ln b d be full pz else w.block
          | none => w.block)
      | none =>
        let used := ln :: w.s.stripeLines ln
        let (id, s) := (((w.s.charge (cmdCharge w.cid w.comp) 1).countWrites w.s.port 1).showOld ln full (w.mediaAt ln) w.media).landLine
          (some w.cid) ln d be full pz
        let s := match id with
          | some _ => s.modCmd w.cid (fun c => { c with writesOut := c.writesOut + 1 })
          | none => s
        let w := { w with s := s, media := w.media.filter (fun x => !used.contains x.1) }
        w.setCopies (w.copies.erase ln)

/-- Write bytes of the local store by DPA. -/
def wrLoc (w : Work) (a : Nat) (n v : Nat) (pz : Bool) : Work :=
  (pieces a n).foldl (fun w p =>
    let d := BitVec.ofNat 512 (fld v (8 * (p.1 - a + p.2) - 1) (8 * (p.1 - a)) <<< (8 * (p.1 % 64)))
    w.wrLine (p.1 / 64) d (beRange (p.1 % 64) p.2) (p.2 == 64) pz) w

/-- Send one write to a peer or to host memory; a request that fails at once fails the command (R85, R262). -/
def wrOne (w : Work) (p : Place) (n v : Nat) (pz : Bool) : Work :=
  let rq : Remote := match p with
    | .host h a => { head := h, host := true, port := 0, write := true, addr := a, len := n, data := v, poison := pz,
                     purpose := .write w.cid, cid := some w.cid, issued := 0, limit := 0 }
    | .fab q a => { head := 0, host := false, port := q, write := true, addr := a, len := n, data := v, poison := pz,
                    purpose := .write w.cid, cid := some w.cid, issued := 0, limit := 0 }
    | .loc a => { head := 0, host := false, port := 0, write := true, addr := a, len := n, data := v,
                  purpose := .write w.cid, cid := some w.cid, issued := 0, limit := 0 }
  match w.s.issue rq with
  | (none, s) => { w with s := s }.fail 11
  | (some _, s) =>
    let s := s.modCmd w.cid (fun c => match p with
      | .host h _ => { c with hostHeads := c.hostHeads.add h }
      | _ => { c with writesOut := c.writesOut + 1 })
    let s := match p with
      | .host h _ => s.modRing w.cmd.ring (fun r => { r with hostOut := r.hostOut.set h (let t := r.hostOut.getD h Tab.empty; t.set w.cid (t.getD w.cid 0 + 1)) })
      | _ => s
    { w with s := s }

/-- Write bytes to a remote place, in pieces of one 4 KiB page. -/
def wrRemote (w : Work) (p : Place) (n v : Nat) (pz : Bool) : Work :=
  (pagePieces 0 p.addr n).foldl (fun w q =>
    w.wrOne (p.plus (q.1 - p.addr)) q.2 (fld v (8 * (q.1 - p.addr + q.2) - 1) (8 * (q.1 - p.addr))) pz) w

/-- What a write of the item leaves in the remote lines it has read, so that a later write of the item merges into it (R441). -/
def putFetched (w : Work) (p : Place) (n v : Nat) (pz : Bool) : Work :=
  (pieces p.addr n).foldl (fun w q =>
    let k := p.key - p.addr + q.1 / 64 * 64
    let lo := 8 * (q.1 % 64)
    { w with s := w.s.modCmd w.cid (fun c => { c with prefetch := c.prefetch.modify k (fun x =>
        { x with data := setFld x.data (lo + 8 * q.2 - 1) lo (fld v (8 * (q.1 - p.addr + q.2) - 1) (8 * (q.1 - p.addr)))
                 status := if pz then 6 else if q.2 = 64 then 0 else x.status }) }) }) w

/-- Write part of a sealed page: open, merge, reseal and write back the page and its entry. A page that came poisoned, or whose tag
fails, goes out poisoned (R219, R441). -/
def wrSealed (w : Work) (g : Seg) (key a n v : Nat) (pz : Bool) : Work :=
  let i := (a - g.tbase) / 4096
  let page := g.tbase + 4096 * i
  let o := a - page
  let (old, w1) := if n = 4096 then (0, { w with pz := false }) else ({ w with pz := false }).openPage g key i
  let pz := pz || w1.pz
  let w := { w1 with pz := w.pz }
  if w.blocked then w
  else
    let new := setFld old (8 * (o + n) - 1) (8 * o) v
    let kx := 16 * w.cmd.ctx + g.head
    let ctr := w.s.sec.sealCtr.getD kx 0
    let w := { w with s := { w.s with sec := { w.s.sec with sealCtr := w.s.sec.sealCtr.set kx (ctr + 1) } } }
    let (ct, tag) := Config.aesSeal key ctr (sealAad w.cmd.ctx g.head page) new
    let body := ct % 2 ^ 32768
    let entry := tag % 2 ^ 128 + (ctr % 2 ^ 64) <<< 128
    let at_ : Place := .host g.head (g.tbase + g.size + 32 * i)
    let w := (w.wrOne (.host g.head page) 4096 body pz).putFetched (.host g.head page) 4096 body pz
    (w.wrOne at_ 32 entry pz).putFetched at_ 32 entry pz

/-- Write bytes at an engine virtual address (R205, R206, R208, R219, R262). -/
def wr (w : Work) (va n v : Nat) (pz : Bool) : Work :=
  if n = 0 || w.halt then w
  else match segHolding w.cmd.segs va n with
    | none => w.dead
    | some g =>
      if !g.pin && !w.mayMigrate then w.unpinned
      else if !g.ok || !g.wr then w.dead
      else if g.here w.s.port then w.wrLoc (g.tbase + (va - g.vbase)) n v pz
      else
        let a := g.tbase + (va - g.vbase)
        if g.kind = 3 && !g.pin then
          (pagePieces 0 a n).foldl (fun w q =>
            match w.frameAddr g q.1, w.pageAt g q.1 with
            | some f, some (k, _) =>
              let w := w.wrLoc f q.2 (fld v (8 * (q.1 - a + q.2) - 1) (8 * (q.1 - a))) pz
              { w with s := { w.s with eng := { w.s.eng with pages := w.s.eng.pages.modify k (fun (p : MigPage) => { p with dirty := true }) } } }
            | _, _ => w.awaitPage) w
        else match w.sealKey g with
          | some key =>
            (pagePieces g.tbase a n).foldl (fun w q =>
              w.wrSealed g key q.1 q.2 (fld v (8 * (q.1 - a + q.2) - 1) (8 * (q.1 - a))) pz) w
          | none => w.wrRemote (g.place w.s.port va) n v pz

/-- The DPA or host address an engine virtual address resolves to; 0 when it resolves to nothing. -/
def resolve (w : Work) (va n : Nat) : Nat := match segHolding w.cmd.segs va n with
  | some g => (g.tbase + (va - g.vbase)) % 2 ^ 64
  | none => 0

end Work

end Sys2Proof.Machine
end

