-- ==== Sys2Proof/Machine/Ashlar.lean ====
section
/-! DEFINITION. Check values and their fold, and the Ashlar codec: tile and block headers, decoding, encoding and rejection
(R248 to R261, R352 to R354, R358, R359). -/

namespace Sys2Proof.Machine

/-! ### Check values (R352 to R354) -/

/-- Width of a polynomial (R352). -/
def crcWidth (poly : Nat) : Nat := if poly < 2 then 32 else 64

/-- Reflected polynomial (R352). -/
def crcPoly (poly : Nat) : Nat := match poly with
  | 0 => 0x82F63B78
  | 1 => 0xEDB88320
  | 2 => 0xC96C5795D7870F42
  | _ => 0x9A6C9329AC4BC9B5

/-- One shift of the register (R353). -/
def crcShift (poly crc : Nat) : Nat := if crc % 2 = 1 then crc / 2 ^^^ crcPoly poly else crc / 2

/-- One byte (R353). -/
def crcByte (poly crc b : Nat) : Nat :=
  let s := crcShift poly
  s (s (s (s (s (s (s (s (crc ^^^ b % 256))))))))

/-- The fold of an address and a sequence (R354). -/
def crcFold (poly a s : Nat) : Nat :=
  let s := s % 2 ^ 32
  if crcWidth poly = 64 then a % 2 ^ 64 ^^^ s <<< 32 ^^^ s
  else a % 2 ^ 32 ^^^ fld a 63 32 ^^^ ((s <<< 16 % 2 ^ 32) ||| (s >>> 16))

/-- The register a check starts from (R353). -/
def crcStart (poly a s : Nat) : Nat := (2 ^ crcWidth poly - 1) ^^^ crcFold poly a s

/-- The register after `n` more bytes of `v`. -/
def crcRun (poly : Nat) (crc v n : Nat) : Nat := (bytesOf n v).foldl (crcByte poly) crc

/-- The check value of a register (R353). -/
def crcEnd (poly crc : Nat) : Nat := crc ^^^ (2 ^ crcWidth poly - 1)

/-- The check value of the `n` bytes of `v` at address `a` with sequence `s` (R353). -/
def checkValue (poly a s v n : Nat) : Nat := crcEnd poly (crcRun poly (crcStart poly a s) v n)

/-! ### Blocks (R251 to R253) -/

/-- A block as it stands in a tile: its low header word, its WORD, its payload, and the 128 elements it decodes to, packed
as in RAW. -/
structure Block where
  low : Nat
  word : Nat
  payload : Nat
  packed : Nat
  deriving DecidableEq, Repr, Inhabited

def Block.plen (b : Block) : Nat := fld b.low 31 24
def Block.mode (b : Block) : Nat := fld b.low 7 4

/-- The low word of a block header (R251). -/
def blockLow (fmt mode exp w mask rnd plen : Nat) : Nat :=
  put plen 31 24 + put rnd 23 22 + put mask 21 21 + put w 20 16 + put exp 15 8 + put mode 7 4 + put fmt 3 0

/-- The value a constant WORD holds (R252). -/
def wordVal (fmt word : Nat) : Val :=
  if fmt = 11 then .of ((word % 2 ^ 32 : Nat) : Rat) else if isIntFmt fmt then .of (sext 32 word : Rat) else ofFp32 word

/-- 128 values converted into a format with rounding to nearest even, packed (R253). -/
def pack128 (fmt : Nat) (vs : List Val) : Nat := (packRow fmt 0 false 0 vs).bits

/-- The value of a SCALED integer (R252). -/
def scaledVal (exp w : Nat) (i : Int) : Val := .of ((i : Rat) * pow2 ((exp : Int) - 127 - ((w : Int) - 1)))

/-- Number of set bits among the 128 of a mask. -/
def maskCount (m : Nat) : Nat := popcount 128 m

/-- Spread packed elements over the set bits of a mask; positions without a bit take `none`. -/
def spread (w mask src : Nat) : List (Option Nat) :=
  ((List.range 128).foldl (fun (acc : List (Option Nat) × Nat) i =>
    if bit mask i then (some (fld src (w * acc.2 + w - 1) (w * acc.2)) :: acc.1, acc.2 + 1) else (none :: acc.1, acc.2))
    ([], 0)).1.reverse

/-- PLEN of a mode (R252). -/
def modeLen (fmt mode mask w n : Nat) : Nat := match mode with
  | 2 => rawp fmt / 8
  | 3 => 2 + cdiv (n * elemBits fmt) 64
  | 4 => if mask = 0 then 2 * w else 2 + cdiv (n * w) 64
  | _ => 0

/-- Decode a block, or refuse it (R252, R253, R259). -/
def decodeBlock (fmt low word payload : Nat) : Option Nat :=
  let mode := fld low 7 4
  let mask := fld low 21 21
  let w := fld low 20 16
  let ex := fld low 15 8
  let n := maskCount (fld payload 127 0)
  let fieldsOk := fld low 3 0 == fmt && decide (mode ≤ 4)
    && (if mode = 4 then decide (1 ≤ w) && decide (w ≤ 16) && decide (ex ≤ 254) else w == 0 && ex == 0)
    && (if mode = 4 then true else if mode = 3 then mask == 1 && !(isMx fmt) else mask == 0)
    && fld low 31 24 == modeLen fmt mode mask w n
  if !fieldsOk then none
  else match mode with
    | 0 => some 0
    | 1 => some (pack128 fmt (List.replicate 128 (wordVal fmt word)))
    | 2 => some (fld payload (8 * rowBytes fmt 128 - 1) 0)
    | 3 => some (catBits (elemBits fmt) ((spread (elemBits fmt) (fld payload 127 0) (payload >>> 128)).map (·.getD 0)))
    | _ =>
      let ints := if mask = 0 then (List.range 128).map (fun i => some (fld payload (w * i + w - 1) (w * i)))
        else spread w (fld payload 127 0) (payload >>> 128)
      some (pack128 fmt (ints.map (fun o => match o with | some c => scaledVal ex w (sext w c) | none => .of 0)))

/-! ### Encoding (R254, R255) -/

/-- The codes of 128 packed elements; an MX element's code carries its block's scale above it. -/
def codes128 (fmt packed : Nat) : List Nat :=
  let w := elemBits fmt
  if isMx fmt then
    (List.range 128).map (fun i =>
      let g := i / 32 * (32 * w + 8)
      fld packed (g + w * (i % 32) + w - 1) (g + w * (i % 32)) + fld packed (g + 32 * w + 7) (g + 32 * w) <<< w)
  else (List.range 128).map (fun i => fld packed (w * i + w - 1) (w * i))

/-- The permitted error ε of a block (R254). -/
def epsilon (etgt : Nat) (refs : List Val) : Rat :=
  (refs.foldl (fun m v => match v with | .num q _ => max m (rabs q) | _ => m) 0) * pow2 (-(etgt : Int))

/-- Whether one decoded element meets the target (R254). -/
def meetsElem (etgt : Nat) (eps : Rat) (r d : Val) (rc dc : Nat) : Bool :=
  if etgt = 0 then rc == dc || (r == .nan && d == .nan)
  else match r with
    | .num q z => if z then rc == dc else (match d with | .num p _ => decide (rabs (p - q) ≤ eps) | _ => false)
    | _ => rc == dc

/-- Whether a decoded block meets the target over its first `count` elements (R254). -/
def meetsTarget (fmt etgt count refs dec : Nat) : Bool :=
  let rv := (unpackRow fmt 128 refs).take count
  let dv := (unpackRow fmt 128 dec).take count
  let eps := epsilon etgt rv
  ((rv.zip dv).zip ((codes128 fmt refs).zip (codes128 fmt dec))).all (fun x => meetsElem etgt eps x.1.1 x.1.2 x.2.1 x.2.2)

/-- The smallest exponent at which the rounded integers of a SCALED block of width `w` fit, with those integers (R255).
`draw` numbers the draws of stochastic rounding. -/
def scaledInts (w rnd draw : Nat) (refs : List Val) : Option (Nat × List Int) :=
  if refs.any (fun v => match v with | .num _ _ => false | _ => true) then none
  else
    let mx := refs.foldl (fun m v => match v with | .num q _ => max m (rabs q) | _ => m) 0
    let ints (e : Nat) : List Int := refs.mapIdx (fun i v => match v with
      | .num q _ =>
        let a : Int := roundNat rnd (Config.free (draw + 128 * w + i)) (rabs q * pow2 (127 + (w : Int) - 1 - (e : Int)))
        if q < 0 then -a else a
      | _ => 0)
    let fits (e : Nat) : Bool := (ints e).all (fun i => decide (-(2 ^ (w - 1) : Int) ≤ i) && decide (i ≤ 2 ^ (w - 1) - 1))
    let e0 : Nat := if mx = 0 then 0 else (ilog2 mx + 126).toNat
    match (((List.range 8).map (e0 + ·)).filter (· ≤ 254)).find? fits with
    | some e => some (e, ints e)
    | none => none

/-- Elements kept under a mask: the mask, and the kept codes packed in `w` bits each. -/
def maskPack (w : Nat) (cs : List Nat) : Nat × Nat :=
  let keep := cs.map (· != 0)
  (catBits 1 (keep.map b2n), catBits w (cs.filter (· != 0)))

/-- A block from its parts. -/
def mkBlock (fmt mode exp w mask rnd payload word : Nat) : Block :=
  let n := if mask = 1 then maskCount (fld payload 127 0) else 0
  let low := blockLow fmt mode exp w mask rnd (modeLen fmt mode mask w n)
  { low := low, word := word, payload := payload, packed := (decodeBlock fmt low word payload).getD 0 }

/-- The constant a CONSTANT candidate tries: the common value when all elements agree, an infinity or NaN as well, otherwise a
number left open. -/
def constWord (fmt draw : Nat) (refs : List Val) : Nat :=
  match refs with
  | v :: rest =>
    if rest.all (fun x => x == v) then
      (if isIntFmt fmt then (convScalar 10 0 false 0 v).code else (convBin fp32 0 false 0 v).code)
    else Config.free draw % 2 ^ 32
  | [] => Config.free draw % 2 ^ 32

/-- Every candidate of R255, by rising MODE, width and MASK. -/
def candidates (fmt rnd draw count refs : Nat) : List Block :=
  let rv := (unpackRow fmt 128 refs).take count
  let w0 := elemBits fmt
  [mkBlock fmt 0 0 0 0 0 0 0, mkBlock fmt 1 0 0 0 0 0 (constWord fmt draw rv), mkBlock fmt 2 0 0 0 0 refs 0]
    ++ (if isMx fmt then [] else
        let (m, p) := maskPack w0 ((codes128 fmt refs).take count)
        [mkBlock fmt 3 0 0 1 0 (m + p <<< 128) 0])
    ++ ((List.range 16).map (fun j =>
        let w := j + 1
        match scaledInts w rnd draw rv with
        | some (e, ints) =>
          let cs := ints.map (ofInt w)
          let (m, p) := maskPack w cs
          [mkBlock fmt 4 e w 0 rnd (catBits w cs) 0, mkBlock fmt 4 e w 1 rnd (m + p <<< 128) 0]
        | none => [])).flatten

/-- Whether candidate `a` is written rather than `b`: fewer bytes, then the lower MODE, then MASK = 0 (R255). -/
def better (a b : Block) : Bool :=
  decide (a.plen < b.plen) || (a.plen == b.plen &&
    (decide (a.mode < b.mode) || (a.mode == b.mode && decide (fld a.low 21 21 < fld b.low 21 21))))

/-- Draws one block's encoding may take. -/
def blockDraws : Nat := 128 * 18

/-- Encode 128 reference elements (R254, R255). -/
def encodeBlock (fmt etgt rnd draw count refs : Nat) : Block :=
  ((candidates fmt rnd draw count refs).filter (fun b => meetsTarget fmt etgt count refs b.packed)).foldl
    (fun best b => if better b best then b else best) (mkBlock fmt 2 0 0 0 0 refs 0)

/-! ### Tiles (R250, R258, R259) -/

/-- A tile's place in its grid, and its size. -/
structure TileAt where
  i : Nat
  j : Nat
  rows : Nat
  cols : Nat
  deriving DecidableEq, Repr, Inhabited

/-- The tile (i, j) of a tensor (R248). -/
def tileAt (g : Geo) (rows cols i j : Nat) : TileAt :=
  { i := i, j := j, rows := min g.tr (rows - i * g.tr), cols := min g.tc (cols - j * g.tc) }

/-- Blocks of a tile. -/
def TileAt.nblk (t : TileAt) : Nat := cdiv (t.rows * t.cols) 128

/-- The bytes of a block at address `a`, with its check (R251, R258). -/
def blockBytes (a tgen : Nat) (b : Block) : Nat :=
  let word := if b.mode = 1 then b.word else checkValue 0 a tgen b.payload (8 * b.plen)
  b.low + word <<< 32 + b.payload <<< 64

/-- The bytes of a run of blocks from byte `pos` of a tile at address `a`, and the byte after the last. -/
def blocksBytes (a tgen pos : Nat) (bs : List Block) : Nat × Nat :=
  bs.foldl (fun (acc : Nat × Nat) b =>
    (acc.1 + blockBytes (a + acc.2) tgen b <<< (8 * (acc.2 - pos)), acc.2 + 8 + 8 * b.plen)) (0, pos)

/-- The 32 bytes of a tile header (R250, R258). -/
def tileHeader (a tgen fmt etgt : Nat) (exact : Bool) (g : Geo) (t : TileAt) (bytes : Nat) : Nat :=
  let h := put tgen 223 192 + put t.i 191 168 + put t.j 167 148 + put g.pitch 147 132 + put (g.tr - 1) 127 112
    + put (g.tc - 1) 111 96 + put t.nblk 95 84 + put (bytes / 8) 83 64 + put 1 63 60 + put fmt 59 56
    + put (b2n exact) 55 55 + put etgt 54 47
  h + checkValue 0 a tgen h 28 <<< 224

/-- The bytes of a whole tile at address `a`, and how many they are. -/
def tileBytes (a tgen fmt etgt : Nat) (exact : Bool) (g : Geo) (t : TileAt) (bs : List Block) : Nat × Nat :=
  let (body, n) := blocksBytes a tgen 32 bs
  (tileHeader a tgen fmt etgt exact g t n + body <<< 256, n)

/-- Encode a tile's elements, packed row after row; answers its blocks and whether each decodes to its references. -/
def encodeTile (fmt etgt rnd draw : Nat) (t : TileAt) (packed : Nat) : List (Block × Bool) :=
  let bw := 8 * rowBytes fmt 128
  let total := t.rows * t.cols
  (List.range t.nblk).map (fun b =>
    let refs := fld packed (bw * b + bw - 1) (bw * b)
    let n := min 128 (total - 128 * b)
    let x := encodeBlock fmt etgt rnd (draw + blockDraws * b) n refs
    (x, meetsTarget fmt 0 n refs x.packed))

/-- Read the blocks of a tile from its bytes; `none` when one is refused (R259). -/
def readBlocks (fmt a tgen tile : Nat) : Nat → Nat → Option (List Block × Nat)
  | 0, pos => some ([], pos)
  | n + 1, pos =>
    let low := fld tile (8 * pos + 31) (8 * pos)
    let word := fld tile (8 * pos + 63) (8 * pos + 32)
    let plen := fld low 31 24
    let payload := if plen = 0 then 0 else fld tile (8 * (pos + 8 + 8 * plen) - 1) (8 * (pos + 8))
    let checked := fld low 7 4 == 1 || word == checkValue 0 (a + pos) tgen payload (8 * plen)
    if !checked then none
    else match decodeBlock fmt low word payload with
      | some p => (match readBlocks fmt a tgen tile n (pos + 8 + 8 * plen) with
          | some (bs, e) => some ({ low := low, word := word, payload := payload, packed := p } :: bs, e)
          | none => none)
      | none => none

/-- The fields of a header that every tile of a tensor shares: FMT, TRM1, TCM1 and PITCH (R250, R259). -/
def headKey (h : Nat) : List Nat := [fld h 59 56, fld h 127 112, fld h 111 96, fld h 147 132]

/-- Decode a tile of known geometry from the bytes up to BYTES; `none` rejects it (R259). -/
def decodeTile (a fmt : Nat) (g : Geo) (t : TileAt) (tile : Nat) : Option (List Block) :=
  let h := fld tile 255 0
  let tgen := fld h 223 192
  let bytes := 8 * fld h 83 64
  let ok := fld h 255 224 == checkValue 0 a tgen (fld h 223 0) 28 && fld h 63 60 == 1 && fld h 59 56 == fmt
    && fld h 127 112 == g.tr - 1 && fld h 111 96 == g.tc - 1 && fld h 147 132 == g.pitch % 65536
    && fld h 191 168 == t.i && fld h 167 148 == t.j && fld h 95 84 == t.nblk && decide (bytes ≤ g.pitch * 64)
  if !ok then none
  else match readBlocks fmt a tgen tile t.nblk 32 with
    | some (bs, e) => if e = bytes then some bs else none
    | none => none

end Sys2Proof.Machine
end

