-- ==== Sys2Proof/Machine/Tensors.lean ====
section
/-! DEFINITION. Reading and writing the rows of tensors in plain and Ashlar form, copies for dump watches, and the running of
a command's work items on a source (R191, R209, R211 to R219, R242, R243, R249, R256 to R261, R406). -/

namespace Sys2Proof.Machine

/-- Whether a span has bytes among the `n` from a place: one of its rows meets them (R218). -/
def Span.meets (o : Span) (k n : Nat) : Bool :=
  let r := if k < o.base + o.row then 0 else (k - o.base - o.row) / o.stride + 1
  decide (r < o.rows) && decide (0 < n) && decide (o.base + r * o.stride < k + n) && decide (k < o.base + r * o.stride + o.row)

/-- Numeric control (R199). -/
def numRnd (n : Nat) : Nat := n % 4
def numSat (n : Nat) : Bool := bit n 2

/-- One output row: its elements packed in the destination's format, and which of them were computed from data that is
poisoned, uncorrectable or refused (R219); an empty list is a row without any. -/
structure OutRow where
  packed : Nat
  pz : List Bool := []
  deriving DecidableEq, Repr, Inhabited

/-- One input row: its format, its packed elements, and which of them are poisoned, uncorrectable or refused. -/
structure InRow where
  fmt : Nat
  packed : Nat
  pz : List Bool := []
  deriving DecidableEq, Repr, Inhabited

/-- Whether any element of a row is tainted. -/
def anyTaint (l : List Bool) : Bool := l.any id

/-- Two rows' taint, element by element. -/
def orTaint (cols : Nat) (a b : List Bool) : List Bool :=
  if a.isEmpty then b else if b.isEmpty then a else (List.range cols).map (fun i => nth a i false || nth b i false)

/-- Bytes of the smallest unit of a format that is read and written as one, and its elements: an element, or an MX block. -/
def unitBytes (f : Nat) : Nat := if isMx f then rowBytes f 32 else elemBits f / 8
def unitElems (f : Nat) : Nat := if isMx f then 32 else 1

/-- The elements of a row whose bytes lie in one of the byte ranges given. -/
def taintElems (f cols : Nat) (ranges : List (Nat × Nat)) : List Bool :=
  if ranges.isEmpty then []
  else (List.range cols).map (fun i =>
    let u := i / unitElems f
    ranges.any (fun r => decide (u * unitBytes f < r.1 + r.2) && decide (r.1 < (u + 1) * unitBytes f)))

/-- Whether the `n` bytes from byte `o` of a row hold a tainted element. -/
def taintBytes (f : Nat) (pz : List Bool) (o n : Nat) : Bool :=
  if pz.isEmpty || n = 0 then false
  else ((pz.drop (o / unitBytes f * unitElems f)).take (((o + n - 1) / unitBytes f - o / unitBytes f + 1) * unitElems f)).any id

/-- Rows of one work item for a tensor: a row in plain form, a row of tiles in Ashlar form (R191, R248). -/
def Tref.band (t : Tref) (rows : Nat) : Nat := if t.enc = 1 then max 1 (min rows (trf t.fmt)) else 1

/-- The bytes of a line of tiles: a tile's slot within a tensor (R248). -/
def Geo.slot (g : Geo) (i j : Nat) : Nat := (i * g.gc + j) * g.pitch * 64

/-- The tier of a kind of segment, as TILE_CHECK names it (R245, R416). -/
def tierOf (kind : Nat) : Nat := match kind with
  | 2 => 4
  | 3 => 5
  | _ => 3

/-- The tier a segment lies in. -/
def Seg.tier (own : Nat) (g : Seg) : Nat := if g.here own then 3 else tierOf g.kind

namespace Work

/-- Log a rejected tile, once for each command that reads it (R259, R416). -/
def logTile (w : Work) (addr tgen tier : Nat) : Work :=
  if w.cmd.badTiles.has addr then w
  else
    let die := State.dieOfSrc w.src
    let body := put addr 127 64 + put tgen 63 32 + put w.cmd.ring 31 20 + put w.comp 19 12 + put tier 11 8
    { w with s := (w.s.logAt die w.src logTileCheck 3 body).modCmd w.cid (fun c => { c with badTiles := c.badTiles.add addr }) }

/-- Read one tile through a reader of its bytes. A tile with a poisoned line is poisoned as a whole, and one whose bytes a failed request
did not bring is not checked; a rejected tile is logged and its elements count as uncorrectable. `key` are the shared fields of tile
(0, 0) (R249, R259, R260, R262). -/
def readTile (w : Work) (read : Work → Nat → Nat → Nat × Work) (addr tier fmt : Nat) (key : List Nat) (g : Geo) (t : TileAt) :
    List Block × Work :=
  let (h, w) := read { w with gone := false } 0 64
  let n := min (8 * fld h 83 64) (g.pitch * 64)
  let (rest, w) := if 64 < n then read w 64 (n - 64) else (0, w)
  if w.blocked || w.halt then ([], w)
  else if w.pz || w.gone then (List.replicate t.nblk default, { w with pz := true, gone := false })
  else match (if headKey h == key then decodeTile addr fmt g t (h + rest <<< 512) else none) with
    | some bs => (bs, w)
    | none => (List.replicate t.nblk default, (w.logTile addr (fld h 223 192) tier).taint 5)

/-- The elements of a tile, packed row after row. -/
def tileStream (fmt : Nat) (bs : List Block) : Nat := catBits (8 * rowBytes fmt 128) (bs.map (·.packed))

/-- A reader of a tile's bytes at an engine virtual address. -/
def vaReader (va : Nat) (w : Work) (off n : Nat) : Nat × Work := w.rd (va + off) n

/-- The tier of the segment an address lies in. -/
def tierAt (w : Work) (va : Nat) : Nat := match segHolding w.cmd.segs va 1 with
  | some g => g.tier w.s.port
  | none => 3

/-- The shared fields of an Ashlar source, from the header of tile (0, 0), its format first (R215, R249, R259). -/
def ashlarHead (w : Work) (t : Tref) : Option (List Nat) × Work :=
  let (h, w) := ({ w with pz := false, gone := false }).rd t.addr 64
  if w.blocked || w.halt || w.pz then (none, w)
  else if w.gone then (none, { w with pz := true, gone := false })
  else
    let a := w.resolve t.addr 1
    if fld h 255 224 == checkValue 0 a (fld h 223 192) (fld h 223 0) 28 && fld h 63 60 == 1 && fmtOk (fld h 59 56) then (some (headKey h), w)
    else (none, (w.logTile a (fld h 223 192) (w.tierAt t.addr)).taint 5)

/-- Read bytes of a row line by line, noting the ranges that are tainted. -/
def rdMarked (w : Work) (va n : Nat) : (Nat × List (Nat × Nat)) × Work :=
  let keep := w.pz
  let ((v, bad), w) := (pieces va n).foldl (fun (acc : (Nat × List (Nat × Nat)) × Work) p =>
    let (x, w) := ({ acc.2 with pz := false }).rd p.1 p.2
    let o := p.1 - va
    ((acc.1.1 + x <<< (8 * o), if w.pz then acc.1.2 ++ [(o, p.2)] else acc.1.2), w)) ((0, []), w)
  ((v, bad), { w with pz := keep || !bad.isEmpty })

/-- A row of an operand stands in the engine's scratchpad, engine-ready, with the format of its tile, while the command runs there (R190,
R207, R245). Once its 1 MiB is full it is filled anew, and a longer row passes through it piece by piece (DESIGN CHOICE, log entry 22). -/
def keepRow (w : Work) (fmt bytes row : Nat) : Work :=
  if !(isEngine w.src) then w
  else
    let x := w.s.eng.spads.getD w.src {}
    let n := if bytes ≤ 1048576 then bytes else (bytes - 1) % 1048576 + 1
    let x := if x.cid = w.cid && x.comp = w.comp && x.bytes + n ≤ 1048576 && bytes ≤ 1048576 then x else { comp := w.comp, cid := w.cid }
    let y : Spad := { x with rows := x.rows ++ [(fmt, row >>> (8 * (bytes - n)))], bytes := x.bytes + n }
    { w with s := { w.s with eng := { w.s.eng with spads := w.s.eng.spads.set w.src y } } }

/-- Whether a source of EWISE is the tensor the command writes, exactly: a row is then read before it is written (R218). -/
def inPlace (w : Work) (t : Tref) : Bool :=
  let d := w.cmd.desc
  let z := trefAt d 512
  hdrOpcode d == 0x18 && t.addr == z.addr && t.stride == z.stride && t.fmt == z.fmt && t.enc == 0 && z.enc == 0
    && (t.off == 32 || (fld d 783 776 == 0 && fld d 791 784 == 0))

/-- Note that bytes of a source are read which another operand of the command overlaps as an output, wherever the segments place them
(R218). -/
def noteOver (w : Work) (t : Tref) (va n : Nat) : Work :=
  match segHolding w.cmd.segs va n with
  | none => w
  | some g =>
    let k := (g.place w.s.port va).key
    if w.cmd.outAt.any (fun o => o.off != t.off && o.meets k n) && !(w.inPlace t) then { w with overlaid := true } else w

/-- A packed result: any number where it was computed from overlapped bytes (R218; log entry 65). -/
def openBits (w : Work) (bits v : Nat) : Nat × Work :=
  if w.overlaid then (let (n, w) := w.draws 1; (Config.free n % 2 ^ bits, w)) else (v, w)

/-- Results before they are converted: any numbers where they were computed from overlapped bytes (R218; log entry 65). -/
def openVals (w : Work) (vs : List Val) : List Val × Work :=
  if w.overlaid then
    let (n, w) := w.draws vs.length
    ((List.range vs.length).map (fun i => ofFp32 (Config.free (n + i) % 2 ^ 32)), w)
  else (vs, w)

/-- The elements of tile (i, j) that lie in one of its rows, and whether the tile is tainted. A tile whose bytes fail their segment
check ends the command (R249). -/
def rowOfTile (t : Tref) (f : Nat) (key : List Nat) (g : Geo) (rows cols r : Nat) (acc : InRow × Work) (j : Nat) : InRow × Work :=
  let i := r / g.tr
  let va := t.addr + g.slot i j
  let ta := tileAt g rows cols i j
  match segHolding acc.2.cmd.segs va (g.pitch * 64) with
  | none => (acc.1, acc.2.dead)
  | some sg =>
    let (bs, w) := ({ (acc.2.noteOver t va (g.pitch * 64)) with pz := false }).readTile (vaReader va) (acc.2.resolve va 1) (sg.tier acc.2.s.port) f key g ta
    let rb := 8 * rowBytes f ta.cols
    let part := fld (tileStream f bs) (rb * (r % g.tr) + rb - 1) (rb * (r % g.tr))
    ({ acc.1 with packed := acc.1.packed + part <<< (8 * rowBytes f 2048 * j), pz := acc.1.pz ++ List.replicate ta.cols w.pz }, w)

/-- One row of an Ashlar source (R215, R249, R260). -/
def readAshlarRow (w : Work) (t : Tref) (rows cols r : Nat) : InRow × Work :=
  let keep := w.pz
  let (k, w) := w.ashlarHead t
  match k with
  | none => ({ fmt := 0, packed := 0, pz := List.replicate cols true }, { w with pz := true })
  | some key =>
    let f := nth key 0 0
    if isMx f && cols % 32 ≠ 0 then ({ fmt := 0, packed := 0 }, { w.fail 2 with halt := true })
    else
      let g := geoOf f rows cols
      let (row, w) := (List.range g.gc).foldl (rowOfTile t f key g rows cols r) ({ fmt := f, packed := 0 }, w)
      (row, { w with pz := keep || row.pz.any id })

/-- One row of a source tensor. -/
def readRow (w : Work) (t : Tref) (rows cols r : Nat) : InRow × Work :=
  if t.enc = 0 then
    let w := w.noteOver t (t.addr + r * t.stride) (rowBytes t.fmt cols)
    let ((v, bad), w) := w.rdMarked (t.addr + r * t.stride) (rowBytes t.fmt cols)
    ({ fmt := t.fmt, packed := v, pz := taintElems t.fmt cols bad }, w.keepRow t.fmt (rowBytes t.fmt cols) v)
  else
    let (x, w) := w.readAshlarRow t rows cols r
    (x, w.keepRow x.fmt (rowBytes x.fmt cols) x.packed)

/-- The decoded values of one row, with their taint. -/
def readVals (w : Work) (t : Tref) (rows cols r : Nat) : (List Val × List Bool) × Work :=
  let (x, w) := w.readRow t rows cols r
  ((unpackRow x.fmt cols x.packed, x.pz), w)

/-- The values of one row as the vector unit takes them, of a source that may be in the formats `ok` only; an Ashlar source in another
one, which its tiles alone tell, ends the command with INVALID (R216, R217). -/
def readVecOf (w : Work) (ok : Nat → Bool) (t : Tref) (rows cols r : Nat) : (List Val × List Bool) × Work :=
  let (x, w) := w.readRow t rows cols r
  (((unpackRow x.fmt cols x.packed).map vecVal, x.pz),
    if ok x.fmt || w.blocked || w.halt then w else { w.fail 2 with halt := true })

/-- The values of one row as the vector unit takes them (R217). -/
def readVec (w : Work) (t : Tref) (rows cols r : Nat) : (List Val × List Bool) × Work :=
  let ((vs, pz), w) := w.readVals t rows cols r
  ((vs.map vecVal, pz), w)

/-- Copy bytes of an output into the buffers of the watches that match it, with their poison (R219, R242). `at_` is their place in
the dump. -/
def dump (w : Work) (t : Tref) (at_ n v : Nat) (pz : Bool) : Work :=
  if w.halt then w else
  (w.cmd.dumpAt.filter (fun d => d.2.1 == t.off)).foldl (fun w d =>
    match w.s.cmds.get? d.1 with
    | some wc =>
      let buf := fld wc.desc 311 256
      (match segHolding wc.segs buf 1 with
      | some g => { w with s := w.s.ownWrite (g.tbase + (buf - g.vbase) + d.2.2 + at_) (bytesOf n v) pz }
      | none => w)
    | none => w) w

/-- Copy a row into the dumps of an output, line by line of the row where some of it is tainted. -/
def dumpRow (w : Work) (t : Tref) (at_ n : Nat) (o : OutRow) : Work :=
  if anyTaint o.pz then
    (pieces at_ n).foldl (fun w p =>
      w.dump t p.1 p.2 (fld o.packed (8 * (p.1 - at_ + p.2) - 1) (8 * (p.1 - at_))) (taintBytes t.fmt o.pz (p.1 - at_) p.2)) w
  else w.dump t at_ n o.packed false

/-- Write one row of a plain destination. -/
def writePlain (w : Work) (t : Tref) (cols r : Nat) (o : OutRow) : Work :=
  let n := rowBytes t.fmt cols
  let va := t.addr + r * t.stride
  let w := if anyTaint o.pz then
      (pieces va n).foldl (fun w p =>
        w.wr p.1 p.2 (fld o.packed (8 * (p.1 - va + p.2) - 1) (8 * (p.1 - va))) (taintBytes t.fmt o.pz (p.1 - va) p.2)) w
    else w.wr va n o.packed false
  w.dumpRow t (r * n) n o

/-- Write `n` bytes from byte `o` of one row of a plain destination. -/
def writeRun (w : Work) (t : Tref) (cols r o n v : Nat) (pz : Bool) : Work :=
  (w.wr (t.addr + r * t.stride + o) n v pz).dump t (r * rowBytes t.fmt cols + o) n v pz

/-- The generation of a tile that is now written: counter bits [39:8] (R250). -/
def tgenNow (w : Work) : Nat := fld w.s.time.counter 39 8

/-- Encode and write one tile of a destination from the rows of its band; answers the packed elements it decodes to
(R220, R246, R254 to R256). -/
def writeTile (w : Work) (t : Tref) (g : Geo) (rows cols etgt rnd i j : Nat) (outs : List OutRow) : Nat × Work :=
  let ta := tileAt g rows cols i j
  let rb := 8 * rowBytes t.fmt ta.cols
  let lo := 8 * rowBytes t.fmt 2048 * j
  let stream := catBits rb (outs.map (fun o => fld o.packed (lo + rb - 1) lo))
  let (n0, w) := w.draws (blockDraws * ta.nblk)
  let bs := encodeTile t.fmt etgt rnd n0 ta stream
  let va := t.addr + g.slot i j
  let (v, n) := tileBytes (w.resolve va 1) w.tgenNow t.fmt etgt (bs.all (·.2)) g ta (bs.map (·.1))
  let pz := outs.any (fun o => anyTaint ((o.pz.drop (g.tc * j)).take ta.cols))
  (tileStream t.fmt (bs.map (·.1)), (w.wr va n v pz).dump t (g.slot i j) n v pz)

/-- Write a row of tiles; answers the packed rows its tiles decode to. -/
def writeTiles (w : Work) (t : Tref) (rows cols etgt rnd i : Nat) (outs : List OutRow) : List Nat × Work :=
  let g := geoOf t.fmt rows cols
  let (cols', w) := (List.range g.gc).foldl (fun (acc : List (Nat × Nat) × Work) j =>
    let (st, w) := acc.2.writeTile t g rows cols etgt rnd i j outs
    (acc.1 ++ [(j, st)], w)) ([], w)
  ((List.range outs.length).map (fun rr => cols'.foldl (fun a x =>
    let rb := 8 * rowBytes t.fmt (tileAt g rows cols i x.1).cols
    a + fld x.2 (rb * rr + rb - 1) (rb * rr) <<< (8 * rowBytes t.fmt 2048 * x.1)) 0), w)

/-- Write rows of a destination from row `first` on; answers the packed rows as a reader decodes them. -/
def writeRows (w : Work) (t : Tref) (rows cols etgt rnd first : Nat) (outs : List OutRow) : List Nat × Work :=
  if cols = 0 then ([], w)
  else if t.enc = 0 then
    (outs.map (·.packed), (outs.zipIdx).foldl (fun w o => w.writePlain t cols (first + o.2) o.1) w)
  else
    let b := t.band rows
    (chunks b outs.length outs).zipIdx.foldl (fun (acc : List Nat × Work) c =>
      let (ps, w) := acc.2.writeTiles t rows cols etgt rnd (first / b + c.2) c.1
      (acc.1 ++ ps, w)) ([], w)

/-- Convert a row of results into a destination's format, counting the outputs that are NaN, infinite or saturated (R199,
R217, R221). -/
def convert (w : Work) (t : Tref) (numctl : Nat) (vs : List Val) : Nat × Work :=
  let (vs, w) := w.openVals vs
  let (n, w) := w.draws vs.length
  let p := packRow t.fmt (numRnd numctl) (numSat numctl) n vs
  (p.bits, { w with r1 := w.r1 + (p.special.filter id).length })

end Work

/-! ### Running work items (R191, R209) -/

namespace State

/-- The composition of a command's ring. -/
def cmdComp (s : State) (c : Cmd) : Nat := (s.ringAt c.ring).comp

/-- The payload of a command's mark (R407). -/
def cmdMark (c : Cmd) (status count : Nat) : Nat :=
  put status 143 136 + put (hdrOpcode c.desc) 135 128 + put (hdrTag c.desc) 127 96 + put (hdrStep c.desc) 95 64
    + put c.seq 63 40 + put c.ring 39 28 + put (min count 65535) 27 12

/-- A Course die as the block keeps it. -/
def courseAt (s : State) (c : Nat) : CourseSt := s.courses.getD c {}

/-- Change a Course die. -/
def modCourse (s : State) (c : Nat) (f : CourseSt → CourseSt) : State := { s with courses := s.courses.set c (f (s.courseAt c)) }

/-- Whether a source can take work: its die is neither withdrawn nor halted (R20, R396). -/
def srcRuns (s : State) (src : Nat) : Bool := match courseOf src with
  | some c => !(s.courseAt c).withdrawn && !(s.courseAt c).halted
  | none => true

/-- Drop the copies one source keeps (R207). -/
def dropCopies (s : State) (src : Nat) : State :=
  { s with eng := { s.eng with readCache := s.eng.readCache.erase src, prefetch := s.eng.prefetch.erase src } }

/-- A source changes composition: its copies and scratchpad go, and its die's staged copies of the composition it leaves (R207). -/
def changeComp (s : State) (src old : Nat) : State :=
  let s := { (s.dropCopies src) with eng := { (s.dropCopies src).eng with spads := s.eng.spads.erase src } }
  match courseOf src with
  | some d => { s with eng := { s.eng with staged := s.eng.staged.modify d (fun t => Tab.filter t (fun _ x => x.comp != old)) } }
  | none => s

/-- Drop a die's staged copies of a composition (R209). -/
def dropStaged (s : State) (die comp : Nat) : State :=
  { s with eng := { s.eng with staged := s.eng.staged.modify die (fun t => Tab.filter t (fun _ x => x.comp != comp)) } }

/-- A source takes its first tile of a command: a change of composition and the acquire act, and CMD_BEGIN is marked (R207, R209,
R406). -/
def firstTile (s : State) (cid : Nat) (c : Cmd) (src : Nat) : State :=
  let comp := s.cmdComp c
  let old := s.eng.owner.getD src 0
  let acq := hdrAcquire c.desc
  let s := if old != comp + 1 then s.changeComp src (old - 1) else if acq then s.dropCopies src else s
  let s := if acq then (match courseOf src with | some d => s.dropStaged d comp | none => s) else s
  let s := { s with eng := { s.eng with owner := s.eng.owner.set src (comp + 1) } }
  let s := s.modCmd cid (fun c => { c with begun := c.begun.add src, start := if c.begun.size = 0 then s.stamp40 else c.start
                                           engFrom := if isEngine src then c.engFrom.set src s.now else c.engFrom })
  s.mark src 0x01 comp false (cmdMark c 0 0)

/-- A source takes a tile of a command; a walker's working store displaces lines of its die's Course buffer (R191, R351). -/
def takeTile (s : State) (cid src : Nat) : State :=
  match s.cmds.get? cid with
  | none => s
  | some c =>
    let s := (if c.begun.has src then s else s.firstTile cid c src).modCmd cid (fun c =>
      if c.busy.has src then c
      else { c with busy := c.busy.add src, mid := c.mid.add src, tileAt := c.tileAt.set src s.now })
    if isWalker src then s.bufMake ((src - 1344) / 2) 0 else s

/-- Charge an engine's time for a command up to now (R59). -/
def chargeEngine (cid : Nat) (s : State) (src : Nat) : State :=
  match s.cmds.get? cid with
  | none => s
  | some c =>
    if !(isEngine src) then s
    else
      let ns := s.now - c.engFrom.getD src s.now
      let comp := s.cmdComp c
      let s := (s.modComp comp (fun x => { x with engUsed := x.engUsed + ns })).bumpMeter comp mEng ns
      let s := match courseOf src with | some d => s.bump (cEngUs + d) ns | none => s
      s.modCmd cid (fun c => { c with engNs := c.engNs + ns, engFrom := c.engFrom.set src s.now })

/-- A tile of a source ends, or is given up: how long it ran in the running estimation interval is noted (R393), and when it ended. -/
def noteTile (cid : Nat) (s : State) (src : Nat) : State :=
  match s.cmds.get? cid with
  | none => s
  | some c =>
    let run : TileRun := { cid := cid, comp := s.cmdComp c, ns := s.now - max s.power.began (c.tileAt.getD src s.now) }
    { s with power := { s.power with runs := s.power.runs.set src (s.power.runs.getD src [] ++ [run]) } }.modCmd cid (fun c =>
      { c with tileEnd := c.tileEnd.set src s.stamp })

/-- Every source that has run its last tile of a command marks CMD_END, once, with the time that tile ended (R406; DESIGN CHOICE: the mark
leaves when the dispatcher has no more tiles to give, log entry 73). -/
def markEnds (s : State) (cid : Nat) : State :=
  match s.cmds.get? cid with
  | none => s
  | some c =>
    let due := c.begun.keys.filter (fun src => !(c.busy.has src) && !(c.marked.has src))
    (due.foldl (fun s src => s.markAt (c.tileEnd.getD src s.stamp) src 0x02 (s.cmdComp c) false (cmdMark c c.status (c.tiles.getD src 0))) s).modCmd cid
      (fun c => { c with marked := due.foldl NSet.add c.marked })

/-- A command ends: the time of tiles it gives up is charged, their scratchpads and its partial results are discarded, every source that
served it marks CMD_END, and its record waits only for its release, its signal and its outstanding writes; an INSERT counts the items it
has not inserted (R59, R170, R192, R245, R333, R406). -/
def finish (s : State) (cid : Nat) : State :=
  match s.cmds.get? cid with
  | none => s
  | some c =>
    let s := c.busy.keys.foldl (noteTile cid) (c.busy.keys.foldl (chargeEngine cid) s)
    let s := { s with eng := { s.eng with spads := Tab.filter s.eng.spads (fun k _ => !(c.busy.has k))
                                          partials := Tab.filter s.eng.partials (fun _ x => x.cid != cid) } }
    let s := (s.modCmd cid (fun c => { c with busy := Tab.empty })).markEnds cid
    s.modCmd cid (fun c =>
      let left := if hdrOpcode c.desc = 0x31 then fld c.desc 607 576 - c.r0 else c.r1
      { c with phase := .ended, ended := s.stamp40, busy := Tab.empty, mid := Tab.empty, prefetch := Tab.empty, r1 := left })

/-- Issue one read of a peer's or of host memory that a work item waits for, unless it is asked for already. One that fails at
once answers with FAULT (R84, R85, R262). -/
def issueWant (s : State) (cid : Nat) (w : Want) (rq : Remote) : State :=
  let key := w.key
  let asked := s.remotes.any (fun _ r => r.purpose == .read cid key)
  if asked || ((s.cmds.get? cid).any (fun c => c.prefetch.has key)) then s
  else match s.issue { rq with len := w.len, purpose := .read cid key, cid := some cid } with
    | (some _, s) => s
    | (none, s) => s.modCmd cid (fun c => { c with prefetch := c.prefetch.set key { status := 11, data := 2 ^ (8 * w.len) - 1, time := s.stamp } })

/-- Issue the reads a work item waits for: requests to peers and hosts (R84), and uncached reads of directory lines (R100,
R356). -/
def issueWants (s : State) (cid : Nat) (ws : List Want) : State :=
  ws.foldl (fun s w => match w.place with
    | .host h a => s.issueWant cid w { head := h, host := true, port := 0, write := false, addr := a, len := 0, purpose := .read 0 0, issued := 0, limit := 0 }
    | .fab p a => s.issueWant cid w { head := 0, host := false, port := p, write := false, addr := a, len := 0, purpose := .read 0 0, issued := 0, limit := 0 }
    | .loc a =>
      if w.die < 16 then s.courseAsks w.die (a / 64) .unc {}
      else if s.lineTaken (a / 64) then s
      else s.wait { kind := .signal, cls := .unc, src := 4096, line := a / 64 }) s

/-- Drop the lines of an uncached answer, which serve one access only (R112, R119). -/
def dropOnce (s : State) (src : Nat) : State := match courseOf src with
  | some d => { s with bufs := s.bufs.modify d (fun t => Tab.filter t (fun _ b => !b.once)) }
  | none => s

/-- Whether the work items of an opcode may end in any order, so that one suspended by a page fault lets the others continue: MOVE and
FILL, whose tiles movers run (R206, R265). -/
def mayOvertake (c : Cmd) : Bool := hdrOpcode c.desc == 0x01 || hdrOpcode c.desc == 0x02

/-- Whether work items of a command are left. -/
def workLeft (c : Cmd) : Bool := decide (c.pos < c.total) || !c.late.isEmpty

/-- Note what the finished work item `i` did to its command. -/
def settleItem (w : Work) (i : Nat) : State :=
  (w.s.modCmd w.cid (fun c =>
    let c := { c with pos := if w.halt then c.total else max c.pos (i + 1), late := if w.halt then [] else c.late.erase i
                      prefetch := if c.late.isEmpty then Tab.empty else c.prefetch, mid := c.mid.erase w.src, r0 := c.r0 + w.r0, r1 := c.r1 + w.r1 }
    let c := if w.part && c.status == 0 then { c with status := 1 } else c
    if w.bad = 0 then c else failWith w.badAt w.bad c)).dropOnce w.src

/-- A work item is suspended by a page fault, and the command goes on with the next (R265). -/
def suspendItem (s : State) (cid i : Nat) : State :=
  s.modCmd cid (fun c => { c with pos := max c.pos (i + 1), late := if c.late.contains i then c.late else c.late ++ [i] })

/-- Run work item `i` of a command on a source. The answer says whether the command goes on to another item. An item that pauses keeps
what it has read (R322). -/
def runItem (item : Work → Nat → Work) (cid : Nat) (run : RunEnv) (s : State) (c : Cmd) (i : Nat) : Bool × State :=
  let w := item { s := s, cid := cid, src := run.src, comp := s.cmdComp c, media := run.media, cut := run.cut, pick := run.pick } i
  if !w.blocked then (true, settleItem w i)
  else
    let s := (if w.paused then w.s else s).issueWants cid w.wants
    if w.paged && mayOvertake c then (true, s.suspendItem cid i) else (false, s)

/-- Run up to `n` work items of a command on a source, from its next one on, stopping at one that has to wait. -/
def runLoop (item : Work → Nat → Work) (cid : Nat) (run : RunEnv) : Nat → State → State
  | 0, s => s
  | n + 1, s =>
    match s.cmds.get? cid with
    | none => s
    | some c =>
      if c.total ≤ c.pos then s
      else
        let x := runItem item cid run s c c.pos
        if x.1 then runLoop item cid run n x.2 else x.2

/-- Try a suspended work item again (R265 step 4). -/
def retryItem (item : Work → Nat → Work) (cid : Nat) (run : RunEnv) (s : State) (i : Nat) : State :=
  match s.cmds.get? cid with
  | none => s
  | some c => if c.late.contains i then (runItem item cid run s c i).2 else s

/-- Work items a source may run now: of a command that is stopping, the one that ends its tile (R192, R357). -/
def mayRun (c : Cmd) (run : RunEnv) : Nat := if !c.stopping then run.items else if c.late.isEmpty then min 1 run.items else 0

/-- Suspended work items a source may try again now. -/
def mayRetry (c : Cmd) : List Nat := if c.stopping then c.late.take 1 else c.late

/-- Whether a composition's engine share of the running bond period is spent (R57, R58). -/
def shareSpent (s : State) (comp : Nat) : Bool :=
  let x := s.comps.getD comp {}
  decide (x.shareNow * 1000 ≤ x.engUsed)

/-- The bits at which the tensor references a descriptor uses stand (R221, R222, R230, R234, R236, R278, R282, R312, R320, R335,
R343, R290). -/
def trefBits (d : Nat) : List Nat := match hdrOpcode d with
  | 0x02 => [256]
  | 0x18 => if fld d 775 768 < 20 then [256, 512] else [256, 384, 512]
  | 0x19 => [256, 384]
  | 0x1A => [256, 384] ++ (if bit d 872 then [512] else []) ++ (if bit d 873 then [640] else [])
  | 0x1C => [256, 384] ++ (if bit d 785 then [512] else [])
  | 0x20 => [384, 512, 640]
  | 0x21 => [384]
  | 0x28 => [640]
  | 0x29 => [512]
  | 0x30 => [256]
  | 0x31 => [256]
  | 0x40 => [256, 384]
  | _ => [256, 384, 512]

/-- Whether tiles of a command pass through a codec unit: a tensor of it is Ashlar, a MOVE COPY changes the format, or it reads or
writes KV blocks (R246, R275). -/
def usesCodec (d : Nat) : Bool :=
  let op := hdrOpcode d
  let ashlar (b : Nat) : Bool := (trefAt d b).enc == 1
  if op = 0x01 then fld d 591 584 == 0 && (ashlar 256 || ashlar 384 || (trefAt d 256).fmt != (trefAt d 384).fmt)
  else if op = 0x20 || op = 0x21 then true
  else if op < 0x02 || 0x32 ≤ op && op ≠ 0x40 || op = 0x08 || op = 0x2A || op = 0x2B then false
  else (trefBits d).any ashlar

/-- Whether the units of a run fit each other: tiles that need a codec unit pass through one of the same Course die (R246). -/
def codecFits (c : Cmd) (run : RunEnv) : Bool :=
  !(usesCodec c.desc) || (isCodec run.codec && courseOf run.codec == courseOf run.src)

/-- Whether a unit has a tile of another command in progress: it is given one at a time (R191). -/
def elsewhere (s : State) (cid u : Nat) : Bool := s.cmds.any (fun k (c : Cmd) => k != cid && c.busy.has u)

/-- The units that take part in a run of work items. -/
def unitsOf (c : Cmd) (run : RunEnv) : List Nat :=
  if isKeystone run.src then [] else if usesCodec c.desc then [run.src, run.codec] else [run.src]

/-- Run work items of a command whose opcode and phase fit, on a source that may take them (R191); suspended ones first. A command
with nothing left and no tile in progress ends, and one that is stopping begins no tile and goes on past no tile boundary (R192, R350,
R357). -/
def runItems (s : State) (cid : Nat) (run : RunEnv) (op : Nat) (kinds : Nat → Bool) (item : Work → Nat → Work) : State :=
  match s.cmds.get? cid with
  | none => s
  | some c =>
    if !(c.phase == Phase.running) || hdrOpcode c.desc != op then s
    else if !(workLeft c) || (c.stopping && !c.mid.has run.src) then (if c.busy.size = 0 then s.finish cid else s)
    else if !(isKeystone run.src) && !(c.busy.has run.src) && s.shareSpent (s.cmdComp c) then s
    else if !(kinds run.src) || !(s.srcRuns run.src) || !(codecFits c run) || (unitsOf c run).any (s.elsewhere cid)
      || (isKeystone run.src && run.src != 1244 + (s.ringAt c.ring).owner) then s
    else
      let s := (unitsOf c run).foldl (fun (s : State) u => s.takeTile cid u) s
      let s := (mayRetry c).foldl (retryItem item cid run) s
      let s := runLoop item cid run (mayRun c run) s
      if isKeystone run.src && ((s.cmds.get? cid).any (fun c => !(workLeft c))) then s.finish cid else s

end State

end Sys2Proof.Machine
end

