-- ==== Sys2Proof/Machine/Paging.lean ====
section
/-! DEFINITION. Migration pages: their frames, faults and fills, and their way back to the host (R263 to R266). -/

namespace Sys2Proof.Machine

namespace State

/-- A command gives up its tiles and ends with a status (R192). -/
def abandonCmd (s : State) (cid st : Nat) : State := (s.modCmd cid (failWith s.stamp st)).finish cid

/-! ### Migration pages (R263 to R265) -/

/-- Frames of a page. -/
def pageFrames (big : Bool) : Nat := if big then 32 else 1

/-- First byte of a page's frames in the store. -/
def pageBase (s : State) (p : MigPage) : Nat := fld ((s.comps.getD p.comp {}).mig.word) 21 0 * 2 ^ 21 + 65536 * p.frame

/-- The lowest free run of frames of a composition's pool; a pool whose extent has left Active has none (R264; DEDUCED, log entry 71). -/
def freeFrames (s : State) (comp : Nat) (big : Bool) : Option Nat :=
  let cfg := (s.comps.getD comp {}).mig
  let n := pageFrames big
  let used := (s.eng.pages.vals.filter (fun (p : MigPage) => p.comp == comp)).map (fun p => (p.frame, pageFrames p.big))
  if !cfg.enable || 262144 ≤ s.eng.pages.size || !((s.exts.get? cfg.ext).any (fun e => e.state == .active && e.gen == cfg.gen)) then none
  else ((List.range (fld cfg.word 48 32 / n)).map (n * ·)).find? (fun f => used.all (fun u => !(meets f n u.1 u.2)))

/-- Change a page. -/
def modPage (s : State) (k : Nat) (f : MigPage → MigPage) : State := { s with eng := { s.eng with pages := s.eng.pages.modify k f } }

/-- A fill fails: the page is ABSENT again and every command that waits for it ends (R264). -/
def fillFails (s : State) (k st : Nat) : State :=
  match s.eng.pages.get? k with
  | none => s
  | some p =>
    let s := { s with eng := { s.eng with pages := s.eng.pages.erase k } }
    p.waiters.foldl (fun s c => if (s.cmds.get? c).any (fun (x : Cmd) => x.phase == .running) then s.abandonCmd c st else s) s

/-- Issue one read of a fill; one that fails at once fails the fill (R262). -/
def fillRead (s : State) (k head addr len : Nat) : State :=
  if !(s.eng.pages.has k) then s
  else match s.issue { head := head, host := true, port := 0, write := false, addr := addr, len := len, purpose := .fill k, issued := 0, limit := 0 } with
    | (some _, s) => s
    | (none, s) => s.fillFails k 11

/-- Claim frames for a page and read it from the host in pieces of 4 KiB, with their entries when the segment is sealed
(R265 steps 2 and 3, R441). -/
def startFill (s : State) (cid comp : Nat) (g : Seg) (ctx host frame : Nat) : State :=
  let big := g.pg == 1
  let n := pageSize big / 4096
  let k := s.nextId
  let sealing := (s.sec.ctxKeys.get? (16 * ctx + g.head)).map (fun key => (key, ctx, g.tbase + g.size + 32 * ((host - g.tbase) / 4096)))
  let p : MigPage := { comp := comp, head := g.head, big := big, host := host, frame := frame, state := .filling
                       pieces := (List.range n).foldl NSet.add Tab.empty, waiters := [cid], sealing := sealing }
  let s := { s with nextId := k + 1, eng := { s.eng with pages := s.eng.pages.set k p } }
  (List.range n).foldl (fun s j =>
    let s := s.fillRead k g.head (host + 4096 * j) 4096
    match sealing with
    | some (_, _, e) => s.fillRead k g.head (e + 32 * j) 32
    | none => s) s

/-- A fault waits, behind those before it. -/
def deferFault (s : State) (q : Nat × Nat) : State := { s with eng := { s.eng with faults := (s.eng.faults ++ [q]).eraseDups } }

/-- A tile mover touches an address of a migratable segment whose page is not resident (R264, R265). At most 256 faults are
in service; others wait in order, and so does one to a page in EVICTING. -/
def faultAt (s : State) (q : Nat × Nat) : State :=
  let (cid, va) := q
  match s.cmds.get? cid with
  | none => s
  | some c =>
    match (if c.phase == .running && hdrOpcode c.desc == 0x01 then segHolding c.segs va 1 else none) with
    | none => s
    | some g =>
      if !(g.ok && g.kind == 3 && !g.pin) then s
      else
        let comp := s.cmdComp c
        let big := g.pg == 1
        let host := (g.tbase + (va - g.vbase)) / pageSize big * pageSize big
        let mine (p : MigPage) : Bool := p.comp == comp && p.head == g.head
        match s.eng.pages.find? (fun _ (p : MigPage) => mine p && p.big == big && p.host == host) with
        | some (k, p) => (match p.state with
          | .resident => s
          | .filling => s.modPage k (fun p => { p with waiters := (p.waiters ++ [cid]).eraseDups })
          | .evicting => s.deferFault q)
        | none =>
          if s.eng.pages.any (fun _ p => mine p && meets host (pageSize big) p.host (pageSize p.big)) then s.abandonCmd cid 11
          else if 256 ≤ (s.eng.pages.vals.filter (fun (p : MigPage) => p.state == .filling)).length then
            s.deferFault q
          else match s.freeFrames comp big with
            | none => s.abandonCmd cid 10
            | some f => s.startFill cid comp g c.ctx host f

/-- Serve the faults that wait, in order (R265). -/
def pumpFaults (s : State) : State :=
  let q := s.eng.faults
  q.foldl faultAt { s with eng := { s.eng with faults := [] } }

/-- PAGE_FAULT: a tile mover that runs a MOVE touches an address; its fault goes behind those that wait (R206, R265). -/
def tileFaults (s : State) (cid addr : Nat) : State :=
  if (s.cmds.get? cid).any (fun c => c.busy.keys.any isMover) then (s.deferFault (cid, addr)).pumpFaults else s

/-- A page in EVICTING has become ABSENT: its frames are free, and faults that waited for it are taken again (R264, R266). -/
def pageGone (s : State) (k : Nat) : State := { s with eng := { s.eng with pages := s.eng.pages.erase k } }.pumpFaults

end State

end Sys2Proof.Machine
end

