-- ==== Sys2Proof/Machine/TileOps.lean ====
section
/-! DEFINITION. The tile operation set: the operand checks of each opcode and what one of its work items does (R214 to R238,
R352 to R358). -/

namespace Sys2Proof.Machine

/-- What the operand check of an opcode finds: the field checks in order, each with its status and byte offset, the address
ranges used, the work items of the command, and its output tensors with their shapes. -/
structure OpCheck where
  fails : List (Bool × Nat × Nat) := []
  uses : List Use := []
  total : Nat := 0
  outs : List (Tref × Nat × Nat) := []
  deriving Repr, Inhabited

/-- An INVALID check at a bit of the descriptor. -/
def inval (c : Bool) (bitLo : Nat) : Bool × Nat × Nat := (c, 2, bitLo / 8)

/-- An UNSUPPORTED check at a bit of the descriptor. -/
def unsup (c : Bool) (bitLo : Nat) : Bool × Nat × Nat := (c, 12, bitLo / 8)

/-- The checks of a tensor reference (R216). -/
def trefChecks (t : Tref) (rows cols : Nat) (dst : Bool) : List (Bool × Nat × Nat) :=
  match t.fault rows cols dst with
  | some off => [(true, 2, off)]
  | none => []

/-- The limits of ROWS and COLS (R216). -/
def dimChecks (rows rowBit cols colBit : Nat) : List (Bool × Nat × Nat) :=
  [inval (decide (16777216 < rows)) rowBit, inval (decide (1048576 < cols)) colBit]

/-- The check of NUMCTL (R199). -/
def numCheck (n bitLo : Nat) : Bool × Nat × Nat := inval (n % 4 == 3) bitLo

/-- Work items of a command that writes rows in bands. -/
def bandsOf (rows band : Nat) : Nat := cdiv rows (max 1 band)

/-- The rows of work item `i`. -/
def bandRows (rows band i : Nat) : List Nat :=
  (List.range (max 1 band)).filterMap (fun j => if i * max 1 band + j < rows then some (i * max 1 band + j) else none)

/-- Run a function over the rows of a band, gathering what it gives for each. -/
def overRows {α : Type} (w : Work) (rows : List Nat) (f : Work → Nat → α × Work) : List α × Work :=
  rows.foldl (fun (acc : List α × Work) r =>
    let (x, w) := f acc.2 r
    (acc.1 ++ [x], w)) ([], w)

/-! ### MOVE (R222, R223, R246, R257) -/

def moveMode (d : Nat) : Nat := fld d 591 584

/-- Whether rows of a plain tensor, `n` bytes each, meet a directory extent, which no die may stage (R223). -/
def meetsDirectory (s : State) (segs : List Seg) (t : Tref) (rows n : Nat) : Bool :=
  match segHolding segs t.addr 1 with
  | some g => s.exts.any (fun _ (e : Extent) => e.coh == 1 && e.state != .free &&
      ({ off := 0, base := (g.place s.port t.addr).addr, row := n, stride := t.stride, rows := rows } : Span).meets
        (e.base * 2 ^ 21) (e.len * 2 ^ 21))
  | none => false

/-- The operand check of MOVE. A directory extent to be staged is INVALID at once where the descriptor tells the bytes: those of a plain
tensor, and the first header of an Ashlar one (R223). -/
def checkMove (s : State) (c : Cmd) : OpCheck :=
  let d := c.desc
  let src := trefAt d 256
  let dst := trefAt d 384
  let rows := fld d 543 512
  let cols := fld d 575 544
  match moveMode d with
  | 0 =>
    { fails := [numCheck (fld d 583 576) 576] ++ dimChecks rows 512 cols 544 ++ trefChecks src rows cols false ++ trefChecks dst rows cols true
      uses := [src.use rows cols false .any, dst.use rows cols true .any]
      total := if rows = 0 || cols = 0 then 0 else bandsOf rows (dst.band rows)
      outs := [(dst, rows, cols)] }
  | 1 =>
    { fails := [numCheck (fld d 583 576) 576] ++ dimChecks rows 512 cols 544 ++ trefChecks src rows cols false
        ++ [(rows != 0 && cols != 0 && meetsDirectory s c.segs src (if src.enc = 1 then 1 else rows)
              (if src.enc = 1 then 64 else rowBytes src.fmt cols), 2, src.off)]
      uses := [src.use rows cols false .local_]
      total := if rows = 0 || cols = 0 || fld d 623 608 = 0 then 0 else if src.enc = 1 then 1 else rows }
  | 2 =>
    { fails := [numCheck (fld d 583 576) 576, inval (rows != 1) 512, inval (decide (1048576 < cols)) 544]
        ++ trefChecks src rows (32 * min 1 cols) false
      uses := if cols = 0 then [] else [{ va := src.addr, n := 1, wr := false, need := .pages cols, off := src.off }]
      total := 2 * cols }
  | _ => { fails := [inval true 584] }

/-- Copy one band of rows, converting format and encoding; an Ashlar copy that changes nothing moves its blocks verbatim. -/
def moveCopy (w : Work) (d i : Nat) : Work :=
  let src := trefAt d 256
  let dst := trefAt d 384
  let rows := fld d 543 512
  let cols := fld d 575 544
  let nc := fld d 583 576
  let etgt := fld d 599 592
  let rs := bandRows rows (dst.band rows) i
  let (key, w) := if src.enc = 1 then (let (k, w') := w.ashlarHead src; (k.getD [], { w' with pz := w.pz || w'.pz })) else ([], w)
  if src.enc = 1 && dst.enc = 1 && etgt = 0 && key.head? == some dst.fmt && !w.blocked then
    let g := geoOf dst.fmt rows cols
    let w := (List.range g.gc).foldl (fun w j =>
      let ta := tileAt g rows cols i j
      let sva := src.addr + g.slot i j
      let dva := dst.addr + g.slot i j
      let w0 := { w with pz := false }
      match segHolding w0.cmd.segs sva (g.pitch * 64) with
      | none => w0.dead
      | some sg =>
        let (h, w1) := (w0.noteOver src sva (g.pitch * 64)).rd sva 64
        let (bs, w1) := w1.readTile (Work.vaReader sva) (w1.resolve sva 1) (sg.tier w1.s.port) dst.fmt key g ta
        if w1.blocked || w1.halt then w1
        else if w1.overlaid then
          let pz := if w1.pz then List.replicate cols true else []
          let (outs, w1) := overRows w1 (List.range ta.rows) (fun w _ =>
            let (p, w) := w.openBits (8 * rowBytes dst.fmt cols) 0
            (({ packed := p, pz := pz } : OutRow), w))
          (w1.writeTile dst g rows cols 0 0 i j outs).2
        else
          let (v, n) := tileBytes (w1.resolve dva 1) w1.tgenNow dst.fmt (fld h 54 47) (bit h 55) g ta bs
          (w1.wr dva n v w1.pz).dump dst (g.slot i j) n v w1.pz) w
    { w with r0 := w.r0 + rs.length }
  else
    let (xs, w) := overRows w rs (fun w r => w.readRow src rows cols r)
    let (outs, w) := overRows w (List.range rs.length) (fun w k =>
      let x := nth xs k { fmt := 0, packed := 0 }
      if x.fmt = dst.fmt then
        let (p, w) := w.openBits (8 * rowBytes x.fmt cols) x.packed
        (({ packed := p, pz := x.pz } : OutRow), w)
      else
        let (p, w) := w.convert dst nc ((unpackRow x.fmt cols x.packed).map vecVal)
        (({ packed := p, pz := x.pz } : OutRow), w))
    if w.blocked then w
    else
      let (back, w) := w.writeRows dst rows cols etgt (numRnd nc) (i * dst.band rows) outs
      let inexact := (xs.zip back).filter (fun p =>
        !(((unpackRow p.1.fmt cols p.1.packed).zip (unpackRow dst.fmt cols p.2)).all (fun v => sameVal v.1 v.2)))
      { w with r0 := w.r0 + rs.length, r1 := inexact.length }

/-- The lines a byte range of a LOCAL segment covers. -/
def linesAt (w : Work) (va n : Nat) : List Nat :=
  let a := w.resolve va n
  (List.range (linesTouched a n)).map (a / 64 + ·)

/-- Room for another line in a Course buffer (R12). -/
def bufRoom (s : State) (die : Nat) : Bool := decide (s.bufUsed die < s.bufCap die)

/-- Stage lines into the Course buffers of the dies named; lines without room are counted (R223). -/
def stageLines (w : Work) (dies : Nat) (lines : List Nat) : Work :=
  lines.foldl (fun w ln =>
    let soft := (w.s.extAt ln).any (fun x => x.2.coh == 0)
    if !soft then { w.fail 2 with halt := true }
    else
      let (d, w1) := ({ w with pz := false }).rdLine ln false true
      let w1 := (List.range 16).foldl (fun w c =>
        if !(bit dies c) then w
        else
          let t := w.s.eng.staged.getD c Tab.empty
          if t.has ln || bufRoom w.s c then
            let line : CopyLine := { comp := w.comp, data := d, poison := w.pz }
            { w with s := { w.s with eng := { w.s.eng with staged := w.s.eng.staged.set c (t.set ln line) } }, r0 := w.r0 + 1 }
          else { w with r1 := w.r1 + 1, part := true }) w1
      { w1 with pz := w.pz || w1.pz }) w

/-- Stage one row, or every tile of an Ashlar tensor; a tile outside LOCAL segments ends the command with INVALID (R223). -/
def moveStage (w : Work) (d i : Nat) : Work :=
  let src := trefAt d 256
  let rows := fld d 543 512
  let cols := fld d 575 544
  let dies := fld d 623 608
  if src.enc = 0 then stageLines w dies (linesAt w (src.addr + i * src.stride) (rowBytes src.fmt cols))
  else
    let (key, w) := w.ashlarHead src
    match key with
    | none => w
    | some key =>
      let g := geoOf (nth key 0 0) rows cols
      (List.range (g.gr * g.gc)).foldl (fun w k =>
        let va := src.addr + k * g.pitch * 64
        match segHolding w.cmd.segs va (g.pitch * 64) with
        | none => w.dead
        | some sg =>
          if sg.kind ≠ 1 then { w.fail 2 with halt := true }
          else
          let (h, w) := w.rd va 64
          stageLines w dies (linesAt w va (min (8 * fld h 83 64) (g.pitch * 64)))) w

/-- Write one 4,096-byte piece of a dirty page, cached at `f`, back to its home at `a` (R257, R441). -/
def evictPiece (g : Seg) (f a : Nat) (w : Work) (j : Nat) : Work :=
  let x := ({ w with pz := false }).rdLoc (f + 4096 * j) 4096 false true
  match x.2.sealKey g with
  | some key => x.2.wrSealed g key (a + 4096 * j) 4096 x.1 x.2.pz
  | none => x.2.wrOne (.host g.head (a + 4096 * j)) 4096 x.1 x.2.pz

/-- Change a page. -/
def Work.modPage (w : Work) (k : Nat) (f : MigPage → MigPage) : Work := { w with s := w.s.modPage k f }

/-- A page enters EVICTING: a dirty one is written to the host (R264, R266). -/
def evictStart (w : Work) (g : Seg) (a k : Nat) (p : MigPage) : Work :=
  match p.state with
  | .filling => w.block
  | .evicting => w
  | .resident =>
    let w := if p.dirty then (List.range (g.page / 4096)).foldl (evictPiece g (w.s.pageBase p) a) w else w
    if w.halt then w else w.modPage k (fun p => { p with state := .evicting, waiters := [w.cid] })

/-- A page this command has placed in EVICTING is ABSENT once its writes have completed, which a read of length 0 behind them shows
(R210, R264, R266). -/
def evictEnd (w : Work) (k : Nat) (p : MigPage) : Work :=
  if !(p.state == .evicting && p.waiters == [w.cid]) then w
  else
    let (_, w) := if p.dirty then w.rdFlush p.head else (0, w)
    if w.blocked then w else { w with s := w.s.pageGone k, r0 := w.r0 + 1 }

/-- Half of the return of one page of a migratable segment to host memory: its way into EVICTING, or its end (R223, R264, R266). -/
def moveEvict (w : Work) (d i : Nat) : Work :=
  let va0 := fld d 311 256
  match segHolding w.cmd.segs va0 1 with
  | none => w.dead
  | some g =>
    let a := g.tbase + (va0 - g.vbase) + i / 2 * g.page
    match w.pageAt g a with
    | none => w
    | some (k, p) => if i % 2 = 0 then evictStart w g a k p else evictEnd w k p

/-- One work item of MOVE. -/
def itemMove (w : Work) (i : Nat) : Work :=
  let d := w.cmd.desc
  match moveMode d with
  | 0 => moveCopy w d i
  | 1 => moveStage w d i
  | _ => moveEvict w d i

/-! ### FILL (R224) -/

/-- The operand check of FILL. -/
def checkFill (d : Nat) : OpCheck :=
  let dst := trefAt d 256
  let rows := fld d 415 384
  let cols := fld d 447 416
  { fails := dimChecks rows 384 cols 416 ++ [numCheck (fld d 487 480) 480] ++ trefChecks dst rows cols true
    uses := [dst.use rows cols true .pinned]
    total := if rows = 0 || cols = 0 then 0 else bandsOf rows (dst.band rows)
    outs := [(dst, rows, cols)] }

/-- A row in which every element is one converted value: a single draw serves them all. -/
def fillRow (f rnd : Nat) (sat : Bool) (draw cols : Nat) (v : Val) : Nat :=
  if isMx f then
    let w := elemBits f
    let b := (mxEncode f rnd draw (List.replicate 32 v)).1
    let blk := catBits w (List.replicate 32 (fld b (w - 1) 0)) + fld b (32 * w + 7) (32 * w) <<< (32 * w)
    catBits (32 * w + 8) (List.replicate (cols / 32) blk)
  else catBits (elemBits f) (List.replicate cols (convScalar f rnd sat (Config.free draw) v).code)

/-- One work item of FILL. -/
def itemFill (w : Work) (i : Nat) : Work :=
  let d := w.cmd.desc
  let dst := trefAt d 256
  let rows := fld d 415 384
  let cols := fld d 447 416
  let nc := fld d 487 480
  let v := ofFp32 (fld d 479 448)
  let (n, w) := match w.cmd.scratch.get? 0 with
    | some k => (k, w)
    | none => w.draws 32
  let w := { w with s := w.s.modCmd w.cid (fun c => { c with scratch := c.scratch.set 0 n }) }
  let p := fillRow dst.fmt (numRnd nc) (numSat nc) n cols v
  let rs := bandRows rows (dst.band rows) i
  let same := (unpackRow dst.fmt (min cols 32) p).all (fun x => sameVal x v)
  let (_, w) := w.writeRows dst rows cols 0 (numRnd nc) (i * dst.band rows) (rs.map (fun _ => ({ packed := p } : OutRow)))
  { w with r0 := w.r0 + rs.length, r1 := if same || i != 0 then 0 else 1 }

/-! ### CHECK (R225, R226, R356 to R358) -/

/-- Bytes of a check tile (R357). -/
def checkTile : Nat := 1048576

/-- The operand check of CHECK. -/
def checkCheck (d : Nat) : OpCheck :=
  let len := fld d 383 320
  let start := fld d 311 256
  { fails := [inval (decide (2 ^ 43 < len)) 320, inval (decide (3 < fld d 423 416)) 416]
    uses := [{ va := start, n := max 1 len, wr := false, need := .local_, off := 32 }]
    total := cdiv len checkTile }

/-- The result of a check that has no more bytes to read. -/
def checkDone (w : Work) (poly reg : Nat) : Work :=
  let v := crcEnd poly reg
  { w with r0 := fld v 31 0, r1 := fld v 63 32 }

/-- Run the check over one piece of a tile. -/
def checkPiece (poly : Nat) (acc : Nat × Work) (p : Nat × Nat) : Nat × Work :=
  if acc.2.pz || acc.2.blocked then acc
  else
    let x := acc.2.rdLoc p.1 p.2 false true
    (crcRun poly acc.1 x.1 p.2, x.2)

/-- End a check tile with the register `reg`; the last one ends the check. -/
def checkEnd (w : Work) (poly reg : Nat) (last : Bool) : Work :=
  if w.blocked then w
  else if w.pz then { w with halt := true }
  else
    let w := { w with s := w.s.modCmd w.cid (fun c => { c with scratch := c.scratch.set 0 reg }) }
    if last then checkDone w poly reg else w

/-- One check tile. -/
def itemCheck (w : Work) (i : Nat) : Work :=
  let d := w.cmd.desc
  let len := fld d 383 320
  let poly := fld d 423 416
  let a := w.resolve (fld d 311 256) 1
  let reg0 := w.cmd.scratch.getD 0 (crcStart poly a (fld d 415 384))
  let n := min checkTile (len - i * checkTile)
  let x := (Work.pieces (a + i * checkTile) n).foldl (checkPiece poly) (reg0, w)
  checkEnd x.2 poly x.1 (decide (len ≤ (i + 1) * checkTile))

/-! ### MATMUL and MATMUL_ACC (R227 to R229) -/

/-- The operand check of the two matrix opcodes. -/
def checkMatmul (d : Nat) : OpCheck :=
  let a := trefAt d 256
  let b := trefAt d 384
  let c := trefAt d 512
  let m := fld d 671 640
  let n := fld d 703 672
  let k := fld d 735 704
  { fails := [inval (decide (16777216 < m)) 640, inval (decide (16777216 < n)) 672, inval (decide (1048576 < k)) 704,
              numCheck (fld d 775 768) 768]
      ++ trefChecks a m k false ++ trefChecks b n k false ++ trefChecks c m n true
      ++ [unsup (a.enc = 0 && decide (9 < a.fmt)) 312, unsup (b.enc = 0 && decide (9 < b.fmt)) 440, unsup (isIntFmt c.fmt) 568]
    uses := [a.use m k false .pinned, b.use n k false .pinned, c.use m n true .pinned]
    total := if m = 0 || n = 0 || k = 0 then 0 else bandsOf m (c.band m)
    outs := [(c, m, n)] }

/-- The rows of a matrix operand. One whose tiles hold a format the matrix unit does not take ends the command with UNSUPPORTED
(R197, R228). -/
def matRows (w : Work) (t : Tref) (rows cols : Nat) (rs : List Nat) : List InRow × Work :=
  let (xs, w) := overRows w rs (fun w r => w.readRow t rows cols r)
  (xs, if xs.any (fun x => decide (9 < x.fmt)) then { w.fail 12 with halt := true } else w)

/-- One row of C before it is converted; `n` numbers its draws (R198, R228, R229). -/
def matVals (n k : Nat) (alpha : Val) (x : InRow) (bs : List InRow) (old : Option (List Val)) : List Val :=
  let xs := unpackRow x.fmt k x.packed
  bs.mapIdx (fun j y =>
    let m := n + (dotDraws k + 1) * j
    let p := fmul alpha (dot m (x.fmt == 0 || y.fmt == 0) xs (unpackRow y.fmt k y.packed))
    match old with
    | some o => fadd (m + dotDraws k) p (nth o j (.of 0))
    | none => p)

/-- The sums of one row of C, in FP32, take the place of the row before it among the partial results that the Course buffer of the engine's
die holds; lines of the buffer make room for them (R12, R191, R245). -/
def Work.putSums (w : Work) (sums : List Nat) : Work :=
  match courseOf w.src with
  | none => w
  | some c =>
    let t := w.s.eng.partials.set c { comp := w.comp, cid := w.cid, sums := sums }
    { w with s := { w.s with eng := { w.s.eng with partials := t } }.bufMake c 0 }

/-- One work item of a matrix opcode; `acc` adds to the old C. -/
def itemMatmul (acc : Bool) (w : Work) (i : Nat) : Work :=
  let d := w.cmd.desc
  let c := trefAt d 512
  let m := fld d 671 640
  let n := fld d 703 672
  let k := fld d 735 704
  let nc := fld d 775 768
  let rs := bandRows m (c.band m) i
  let (as, w) := matRows w (trefAt d 256) m k rs
  let (bs, w) := matRows w (trefAt d 384) n k (List.range n)
  let (olds, w) := if acc then overRows w rs (fun w r => w.readVec c m n r) else ([], w)
  let (outs, w) := overRows w (List.range rs.length) (fun w r =>
    let x := nth as r { fmt := 0, packed := 0 }
    let (old, op) := nth olds r ([], [])
    let (dr, w) := w.draws ((dotDraws k + 1) * n)
    let pz := bs.mapIdx (fun j y => anyTaint x.pz || anyTaint y.pz || nth op j false)
    let vs := matVals dr k (ofFp32 (fld d 767 736)) x bs (if acc then some old else none)
    let (q, w) := (w.putSums (vs.map (fun v => (packRow 0 0 false 0 [v]).bits))).convert c nc vs
    (({ packed := q, pz := if pz.any id then pz else [] } : OutRow), w))
  if w.blocked || w.halt then w
  else
    let (_, w) := w.writeRows c m n 0 (numRnd nc) (i * c.band m) outs
    { w with r0 := w.r0 + rs.length }

/-! ### EWISE (R230 to R232) -/

/-- The shape of Y: rows and columns (R232). -/
def ewiseY (d : Nat) : Nat × Nat :=
  let rows := fld d 671 640
  let cols := fld d 703 672
  match fld d 783 776 with
  | 0 => (rows >>> fld d 791 784, cols)
  | 1 => (1, cols)
  | _ => (rows >>> fld d 791 784, 1)

/-- The operand check of EWISE. -/
def checkEwise (d : Nat) : OpCheck :=
  let x := trefAt d 256
  let y := trefAt d 384
  let z := trefAt d 512
  let rows := fld d 671 640
  let cols := fld d 703 672
  let func := fld d 775 768
  let bc := fld d 783 776
  let g := fld d 791 784
  let usesY := decide (20 ≤ func)
  let none := rows = 0 || cols = 0
  let (yr, yc) := if none then (0, 0) else ewiseY d
  let short := !none && bc != 1 && decide (yr ≤ (rows - 1) >>> g)
  let sv := ofFp32 (fld d 735 704)
  { fails := dimChecks rows 640 cols 672 ++ [inval (decide (31 < func)) 768, inval (usesY && decide (2 < bc)) 776,
              inval (bc != 1 && decide (20 < g)) 784, inval (usesY && short) 784, numCheck (fld d 799 792) 792]
      ++ (if func = 29 then [inval (bc != 2) 776, inval (cols % 2 != 0) 672, inval (!(vlt (.of 1) sv)) 704] else [])
      ++ trefChecks x rows cols false ++ (if usesY then trefChecks y yr yc false else []) ++ trefChecks z rows cols true
    uses := [x.use rows cols false .pinned] ++ (if usesY then [y.use yr yc false .pinned] else []) ++ [z.use rows cols true .pinned]
    total := if none then 0 else bandsOf rows (z.band rows)
    outs := [(z, rows, cols)] }

/-- The row of Y that row `r` of X meets, with its taint; nothing for a function of X alone. -/
def ewiseYRow (d : Nat) (w : Work) (r : Nat) : (List Val × List Bool) × Work :=
  if 20 ≤ fld d 775 768 then
    w.readVec (trefAt d 384) (ewiseY d).1 (ewiseY d).2 (if fld d 783 776 = 1 then 0 else r >>> fld d 791 784)
  else (([], []), w)

/-- The values of one row of Z, before they are converted; `n` numbers its free values. -/
def ewiseVals (d n : Nat) (xs ys : List Val) : List Val :=
  let func := fld d 775 768
  let sv := ofFp32 (fld d 735 704)
  let tv := ofFp32 (fld d 767 736)
  let yAt (j : Nat) : Val := nth ys (if fld d 783 776 = 2 then 0 else j) (.of 0)
  if func < 20 then xs.mapIdx (fun j v => ewise1 (n + j) func sv tv v)
  else if func = 29 then ropeRow n (yAt 0) sv (fld d 703 672) xs
  else xs.mapIdx (fun j v => ewise2 (n + j) func sv v (yAt j))

/-- The taint of one row of Z. -/
def ewiseTaint (d : Nat) (xp yp : List Bool) : List Bool :=
  let cols := fld d 703 672
  let yp := if yp.isEmpty then [] else if fld d 783 776 = 2 then List.replicate cols (nth yp 0 false) else yp
  let pz := orTaint cols xp yp
  if fld d 775 768 = 29 && !pz.isEmpty then
    (List.range cols).map (fun j => nth pz (j / 2 * 2) false || nth pz (j / 2 * 2 + 1) false)
  else pz

/-- One row of EWISE. -/
def ewiseRow (d : Nat) (w : Work) (r : Nat) : OutRow × Work :=
  let x := w.readVec (trefAt d 256) (fld d 671 640) (fld d 703 672) r
  let y := ewiseYRow d x.2 r
  let n := y.2.draws (2 * fld d 703 672)
  let q := n.2.convert (trefAt d 512) (fld d 799 792) (ewiseVals d n.1 x.1.1 y.1.1)
  ({ packed := q.1, pz := ewiseTaint d x.1.2 y.1.2 }, q.2)

/-- One work item of EWISE. -/
def itemEwise (w : Work) (i : Nat) : Work :=
  let d := w.cmd.desc
  let z := trefAt d 512
  let rows := fld d 671 640
  let rs := bandRows rows (z.band rows) i
  let o := overRows w rs (ewiseRow d)
  if o.2.blocked then o.2
  else
    let x := o.2.writeRows z rows (fld d 703 672) 0 (numRnd (fld d 799 792)) (i * z.band rows) o.1
    { x.2 with r0 := x.2.r0 + rs.length }

/-! ### REDUCE (R233) -/

/-- Rows and columns of Z. -/
def reduceZ (d : Nat) : Nat × Nat :=
  let rows := fld d 543 512
  let cols := fld d 575 544
  if rows = 0 || cols = 0 then (0, 0) else if fld d 591 584 = 0 then (rows, 1) else (1, cols)

/-- The operand check of REDUCE. -/
def checkReduce (d : Nat) : OpCheck :=
  let x := trefAt d 256
  let z := trefAt d 384
  let rows := fld d 543 512
  let cols := fld d 575 544
  let (zr, zc) := reduceZ d
  { fails := dimChecks rows 512 cols 544 ++ [inval (decide (6 < fld d 583 576)) 576, inval (decide (1 < fld d 591 584)) 584,
              numCheck (fld d 599 592) 592] ++ trefChecks x rows cols false ++ trefChecks z zr zc true
    uses := [x.use rows cols false .pinned, z.use zr zc true .pinned]
    total := if rows = 0 || cols = 0 then 0 else if fld d 591 584 = 0 then bandsOf rows (z.band rows) else 1
    outs := [(z, zr, zc)] }

/-- The log of a sum of exponentials (R233). An infinity counts by its exact value. -/
def logSumExp (n : Nat) (vs : List Val) : Val :=
  let qs := vs.filterMap (fun v => match v with | .num q _ => some q | _ => none)
  if vs.any isNan then .nan
  else if vs.any (· == .inf false) then .inf false
  else if qs.isEmpty then .inf true
  else
    let m := qs.foldl max (qs.headD 0)
    let e := m + lnR ((qs.map (fun q => expR (q - m))).foldl (· + ·) 0)
    bounded n e (pow2 (-19) + ((vs.length : Nat) : Rat) * pow2 (-23) + slack * pow2 (-19))

/-- Reduce a list of values (R233). -/
def reduceVals (n op : Nat) (vs : List Val) : Val :=
  let cnt := vs.length
  match op with
  | 0 => accum n cnt (sumVals vs) 0
  | 1 => accumMean n cnt (sumVals vs)
  | 2 => vs.foldl fmax (.inf true)
  | 3 => vs.foldl fmin (.inf false)
  | 4 => accum n cnt (sumVals (vs.map (fun v => exactMul v v))) 0
  | 5 => logSumExp n vs
  | _ => (vs.map fabs).foldl fmax (.of 0)

/-- One work item of REDUCE. -/
def itemReduce (w : Work) (i : Nat) : Work :=
  let d := w.cmd.desc
  let x := trefAt d 256
  let z := trefAt d 384
  let rows := fld d 543 512
  let cols := fld d 575 544
  let op := fld d 583 576
  let nc := fld d 599 592
  let (zr, zc) := reduceZ d
  if fld d 591 584 = 0 then
    let rs := bandRows rows (z.band rows) i
    let (outs, w) := overRows w rs (fun w r =>
      let ((xs, xp), w) := w.readVec x rows cols r
      let (n, w) := w.draws 1
      let (q, w) := w.convert z nc [reduceVals n op xs]
      (({ packed := q, pz := if anyTaint xp then [true] else [] } : OutRow), w))
    if w.blocked then w
    else
      let (_, w) := w.writeRows z zr zc 0 (numRnd nc) (i * z.band rows) outs
      { w with r0 := w.r0 + rs.length }
  else
    let (xs, w) := overRows w (List.range rows) (fun w r => w.readVec x rows cols r)
    if w.blocked then w
    else
      let (n, w) := w.draws cols
      let vs := (List.range cols).map (fun j => reduceVals (n + j) op (xs.map (fun r => nth r.1 j (.of 0))))
      let pz := xs.foldl (fun p r => orTaint cols p r.2) []
      let (q, w) := w.convert z nc vs
      let (_, w) := w.writeRows z zr zc 0 (numRnd nc) 0 [{ packed := q, pz := pz }]
      { w with r0 := w.r0 + cols }

/-! ### NORM (R234) -/

/-- Whether an FP32 word is finite and not below 0. -/
def finiteNonNeg (c : Nat) : Bool := match ofFp32 c with
  | .num q _ => decide (0 ≤ q)
  | _ => false

/-- The operand check of NORM. -/
def checkNorm (d : Nat) : OpCheck :=
  let x := trefAt d 256
  let z := trefAt d 384
  let gm := trefAt d 512
  let bt := trefAt d 640
  let rows := fld d 799 768
  let cols := fld d 831 800
  let af := fld d 879 872
  let one := if rows = 0 then 0 else 1
  { fails := dimChecks rows 768 cols 800 ++ [inval (!(finiteNonNeg (fld d 863 832))) 832, inval (decide (1 < fld d 871 864)) 864,
              numCheck (fld d 887 880) 880] ++ trefChecks x rows cols false ++ trefChecks z rows cols true
      ++ (if bit af 0 then trefChecks gm one cols false else []) ++ (if bit af 1 then trefChecks bt one cols false else [])
    uses := [x.use rows cols false .pinned, z.use rows cols true .pinned]
      ++ (if bit af 0 then [gm.use one cols false .pinned] else []) ++ (if bit af 1 then [bt.use one cols false .pinned] else [])
    total := if rows = 0 || cols = 0 then 0 else bandsOf rows (z.band rows)
    outs := [(z, rows, cols)] }

/-- Normalise a row (R234). -/
def normRow (n : Nat) (layer : Bool) (eps : Rat) (xs gs bs : List Val) : List Val :=
  if xs.any isNan then xs.map (fun _ => .nan)
  else if xs.any (fun v => match v with | .inf _ => true | _ => false) then xs.mapIdx (fun j _ => anyVal (n + j))
  else
    let qs := xs.map (fun v => match v with | .num q _ => q | _ => 0)
    let cnt : Rat := ((qs.length : Nat) : Rat)
    let mu := if layer then qs.foldl (· + ·) 0 / cnt else 0
    let v := (qs.map (fun q => (q - mu) * (q - mu))).foldl (· + ·) 0 / cnt
    let dmax := (qs.map (fun q => rabs (q - mu))).foldl max 0
    let rt := rootOf (v + eps)
    qs.mapIdx (fun j q =>
      match (if gs.isEmpty then Val.of 1 else nth gs j (.of 1)), (if bs.isEmpty then Val.of 0 else nth bs j (.of 0)) with
      | .num g _, .num b _ =>
        if rt = 0 then anyVal (n + j)
        else
          let e := (q - mu) / rt * g + b
          bounded (n + j) e ((cnt * pow2 (-22) + pow2 (-19)) * rabs g * dmax / rt + pow2 (-23) * rabs b
            + slack * rabs ((q - mu) / rt * g))
      | .nan, _ => .nan
      | _, .nan => .nan
      | _, _ => anyVal (n + j))

/-- One work item of NORM. -/
def itemNorm (w : Work) (i : Nat) : Work :=
  let d := w.cmd.desc
  let x := trefAt d 256
  let z := trefAt d 384
  let rows := fld d 799 768
  let cols := fld d 831 800
  let af := fld d 879 872
  let nc := fld d 887 880
  let eps := match ofFp32 (fld d 863 832) with | .num q _ => q | _ => 0
  let rs := bandRows rows (z.band rows) i
  let ((gs, gp), w) := if bit af 0 then w.readVec (trefAt d 512) 1 cols 0 else (([], []), w)
  let ((bs, bp), w) := if bit af 1 then w.readVec (trefAt d 640) 1 cols 0 else (([], []), w)
  let (outs, w) := overRows w rs (fun w r =>
    let ((xs, xp), w) := w.readVec x rows cols r
    let (n, w) := w.draws cols
    let (q, w) := w.convert z nc (normRow n (fld d 871 864 == 1) eps xs gs bs)
    let pz := if anyTaint xp then List.replicate cols true else orTaint cols gp bp
    (({ packed := q, pz := pz } : OutRow), w))
  if w.blocked then w
  else
    let (_, w) := w.writeRows z rows cols 0 (numRnd nc) (i * z.band rows) outs
    { w with r0 := w.r0 + rs.length }

/-! ### TOPK (R235) -/

/-- Whether candidate `a` comes before `b` in an order over values and indices: NaN last, ties to the lower index. -/
def ranks (smallest : Bool) (a b : Val × Nat) : Bool :=
  match isNan a.1, isNan b.1 with
  | true, true => decide (a.2 ≤ b.2)
  | true, false => false
  | false, true => true
  | false, false =>
    if vlt a.1 b.1 then smallest else if vlt b.1 a.1 then !smallest else decide (a.2 ≤ b.2)

/-- The values of a row in rank order, with their indices. -/
def ranked (smallest : Bool) (vs : List Val) : List (Val × Nat) := vs.zipIdx.mergeSort (ranks smallest)

/-- The operand check of TOPK. -/
def checkTopk (d : Nat) : OpCheck :=
  let x := trefAt d 256
  let vals := trefAt d 384
  let idx := trefAt d 512
  let rows := fld d 671 640
  let cols := fld d 703 672
  let k := fld d 719 704
  let out := if cols = 0 then 0 else rows
  { fails := dimChecks rows 640 cols 672 ++ [inval (decide (1024 < k)) 704, inval (decide (1 < fld d 727 720)) 720,
              numCheck (fld d 735 728) 728, inval (decide (0xFFFF_FFFF < fld d 767 736 + cols)) 736]
      ++ trefChecks x rows cols false ++ trefChecks vals out k true ++ trefChecks idx out k true ++ [unsup (idx.fmt != 10) 568]
    uses := [x.use rows cols false .pinned, vals.use out k true .pinned, idx.use out k true .pinned]
    total := if out = 0 || k = 0 then 0 else bandsOf rows (max (vals.band rows) (idx.band rows))
    outs := [(vals, rows, k), (idx, rows, k)] }

/-- One work item of TOPK. -/
def itemTopk (w : Work) (i : Nat) : Work :=
  let d := w.cmd.desc
  let x := trefAt d 256
  let vals := trefAt d 384
  let idx := trefAt d 512
  let rows := fld d 671 640
  let cols := fld d 703 672
  let k := fld d 719 704
  let nc := fld d 735 728
  let base := fld d 767 736
  let b := max (vals.band rows) (idx.band rows)
  let rs := bandRows rows b i
  let (outs, w) := overRows w rs (fun w r =>
    let ((xs, xp), w) := w.readVec x rows cols r
    let top := (ranked (fld d 727 720 == 1) xs).take k
    let fill := k - top.length
    let keep := w.r1
    let (q, w) := w.convert vals nc (top.map (·.1) ++ List.replicate fill Val.nan)
    let (p, w) := w.openBits (32 * k) (catBits 32 (top.map (fun t => t.2 + base) ++ List.replicate fill 0xFFFF_FFFF))
    let pz := if anyTaint xp then List.replicate k true else []
    ((({ packed := q, pz := pz } : OutRow), ({ packed := p, pz := pz } : OutRow)), { w with r1 := keep + fill }))
  if w.blocked then w
  else
    let (_, w) := w.writeRows vals rows k 0 (numRnd nc) (i * b) (outs.map (·.1))
    let (_, w) := w.writeRows idx rows k 0 0 (i * b) (outs.map (·.2))
    { w with r0 := w.r0 + rs.length }

/-! ### SAMPLE (R236, R237) -/

/-- The operand check of SAMPLE. -/
def checkSample (d : Nat) : OpCheck :=
  let x := trefAt d 256
  let idx := trefAt d 384
  let prob := trefAt d 512
  let rows := fld d 671 640
  let cols := fld d 703 672
  let sf := fld d 791 784
  let topP := match ofFp32 (fld d 767 736) with | .num q _ => decide (0 < q) && decide (q ≤ 1) | _ => false
  let band := if bit sf 1 then max (idx.band rows) (prob.band rows) else idx.band rows
  let out := if cols = 0 then 0 else rows
  { fails := dimChecks rows 640 cols 672 ++ [inval (!(finiteNonNeg (fld d 735 704))) 704, inval (!topP) 736,
              inval (decide (1024 < fld d 783 768)) 768, numCheck (fld d 799 792) 792,
              inval (decide (0xFFFF_FFFF < fld d 831 800 + cols)) 800]
      ++ trefChecks x rows cols false ++ trefChecks idx out 1 true ++ (if bit sf 1 then trefChecks prob out 1 true else [])
      ++ [unsup (idx.fmt != 10) 440]
    uses := [x.use rows cols false .pinned, idx.use out 1 true .pinned] ++ (if bit sf 1 then [prob.use out 1 true .pinned] else [])
    total := if out = 0 || (bit sf 0 && fld d 783 768 = 0) then 0 else bandsOf rows band
    outs := [(idx, rows, 1)] ++ (if bit sf 1 then [(prob, rows, 1)] else []) }

/-- A free number of magnitude at most 2⁻¹⁸. -/
def jitter (n : Nat) : Rat := ((((Config.free n % 2 ^ 33 : Nat) : Int) - 2 ^ 32 : Int) : Rat) * pow2 (-50)

/-- The shortest prefix whose running sum reaches `p`; at least one entry. -/
def prefixSum (p : Rat) : Rat → List (Nat × Rat) → List (Nat × Rat)
  | _, [] => []
  | acc, x :: t => if p ≤ acc + x.2 then [x] else x :: prefixSum p (acc + x.2) t

/-- The first entry whose running sum exceeds `u`; the last one when none does. -/
def pickAt (u : Rat) : Rat → List (Nat × Rat) → Option (Nat × Rat)
  | _, [] => none
  | _, [x] => some x
  | acc, x :: t => if u < acc + x.2 then some x else pickAt u (acc + x.2) t

/-- Draw an index from the logits of a row: the index and its probability, or none when every logit is NaN (R237). The PROB that is written
lies within 2^-18 of the exact probability (DESIGN CHOICE, log entry 75). -/
def sampleRow (n : Nat) (xs : List Val) (temp topP : Rat) (cand : Option Nat) : Option (Nat × Val) :=
  let live := (ranked false xs).filter (fun x => !(isNan x.1))
  match live with
  | [] => none
  | top :: _ =>
    if temp = 0 then some (top.2, .of 1)
    else
      let c := match cand with | some k => live.take k | none => live
      if c.any (fun x => x.1 == .inf false) || top.1 == .inf true then
        some ((nth c (Config.free n % c.length) top).2, anyVal (n + 1))
      else
        let z (v : Val) : Rat := match v with | .num q _ => q / temp | _ => 0
        let e := c.map (fun x => (x.2, match x.1 with | .num _ _ => expR (z x.1 - z top.1) | _ => 0))
        let tot := (e.map (·.2)).foldl (· + ·) 0
        let q := e.map (fun x => (x.1, x.2 / tot))
        let kept := prefixSum (topP + jitter n) 0 q
        let ktot := (kept.map (·.2)).foldl (· + ·) 0
        let u : Rat := (((Config.free (n + 1) % 2 ^ 24 : Nat)) : Rat) * pow2 (-24) + jitter (n + 2)
        match pickAt u 0 (kept.map (fun x => (x.1, x.2 / ktot))) with
        | some (j, p) => some (j, bounded (n + 3) p (pow2 (-18)))
        | none => some (top.2, .of 1)

/-- A temperature or a threshold as a rational; 0 where it is no number. -/
def ratOf (c : Nat) : Rat := match ofFp32 c with | .num q _ => q | _ => 0

/-- The probability row SAMPLE writes beside its index. -/
def sampleProb (d : Nat) (w : Work) (res : Option (Nat × Val)) : Nat × Work :=
  if bit (fld d 791 784) 1 then
    w.convert (trefAt d 512) (fld d 799 792) [match res with | some x => x.2 | none => .nan]
  else (0, w)

/-- One row of SAMPLE: its index and its probability. -/
def sampleOne (d : Nat) (w : Work) (r : Nat) : (OutRow × OutRow) × Work :=
  let x := w.readVec (trefAt d 256) (fld d 671 640) (fld d 703 672) r
  let n := x.2.draws 4
  let res := sampleRow n.1 x.1.1 (ratOf (fld d 735 704)) (ratOf (fld d 767 736))
    (if bit (fld d 791 784) 0 then some (fld d 783 768) else none)
  let pz := if anyTaint x.1.2 then [true] else []
  let q := sampleProb d n.2 res
  let i := q.2.openBits 32 (match res with | some x => x.1 + fld d 831 800 | none => 0xFFFF_FFFF)
  let w := { i.2 with r1 := n.2.r1 + (if res.isNone then 1 else 0), part := q.2.part || res.isNone }
  (({ packed := i.1, pz := pz }, { packed := q.1, pz := pz }), w)

/-- The rows of an index band of SAMPLE, and the first of its work item. -/
def sampleBand (d : Nat) : Nat :=
  let rows := fld d 671 640
  if bit (fld d 791 784) 1 then max ((trefAt d 384).band rows) ((trefAt d 512).band rows) else (trefAt d 384).band rows

/-- One work item of SAMPLE. -/
def itemSample (w : Work) (i : Nat) : Work :=
  let d := w.cmd.desc
  let rows := fld d 671 640
  let b := sampleBand d
  let rs := bandRows rows b i
  let o := overRows w rs (sampleOne d)
  if o.2.blocked then o.2
  else
    let x := o.2.writeRows (trefAt d 384) rows 1 0 0 (i * b) (o.1.map (·.1))
    let y := if bit (fld d 791 784) 1 then
        x.2.writeRows (trefAt d 512) rows 1 0 (numRnd (fld d 799 792)) (i * b) (o.1.map (·.2))
      else ([], x.2)
    { y.2 with r0 := y.2.r0 + rs.length }

end Sys2Proof.Machine
end

