-- ==== Sys2Proof/Machine/KvPool.lean ====
section
/-! DEFINITION. The KV block pool: its geometry, allocation and holds, reads and writes of its lines, and the service
requests of a composition (R268 to R272). -/

namespace Sys2Proof.Machine

open Host (Outcome)

/-- Fields of ENG_KV_POOL, its two words given (R268). -/
def poolOn (lo : Nat) : Bool := bit lo 63
def poolLen (lo : Nat) : Nat := fld lo 54 32
def poolBase (lo : Nat) : Nat := fld lo 21 0
def poolCount (hi : Nat) : Nat := fld hi 63 40
def poolBlk (hi : Nat) : Nat := fld hi 23 8

/-- Bytes of the controller's block records (R268). -/
def poolT (count : Nat) : Nat := cdiv (count * 16) 2097152 * 2097152

namespace State

def kvOn (s : State) : Bool := poolOn (s.cfg offKvPool)
def kvCount (s : State) : Nat := poolCount (s.cfg (offKvPool + 8))
def kvBlkBytes (s : State) : Nat := 64 * poolBlk (s.cfg (offKvPool + 8))

/-- The DPA of a block (R268). -/
def kvAddr (s : State) (b : Nat) : Nat := poolBase (s.cfg offKvPool) * 2 ^ 21 + poolT s.kvCount + b * s.kvBlkBytes

/-- Blocks a composition owns. -/
def kvHeld (s : State) (c : Nat) : Nat := (s.eng.kv.vals.filter (fun b => b.owner == c)).length

/-- Change the block table. -/
def setKv (s : State) (f : Tab KvBlock → Tab KvBlock) : State := { s with eng := { s.eng with kv := f s.eng.kv } }

/-- Free a block that nothing references or holds (R269). -/
def kvReap (s : State) (b : Nat) : State := match s.eng.kv.get? b with
  | some x => if x.refs = 0 && x.holds = 0 then s.setKv (·.erase b) else s
  | none => s

/-- The first free block from `b` on. -/
def kvFree (s : State) : Nat → Nat → Nat
  | 0, b => b
  | n + 1, b => if s.eng.kv.has b then s.kvFree n ((b + 1) % max 1 s.kvCount) else b

/-- Allocate one block; which free one is left open (R269, R271). -/
def kvAlloc (s : State) (c tag : Nat) : Nat × State :=
  let (r, s) := s.draw
  let b := s.kvFree (s.eng.kv.size + 1) (r % max 1 s.kvCount)
  (b, s.setKv (·.set b { owner := c, tag := tag }))

/-- Whether a composition may name a block (R269). -/
def kvMay (x : KvBlock) (c : Nat) : Bool := x.owner == c || x.grantees.contains c

/-- Why one listed block fails an operation, 0 when it does not (R271, R272). -/
def kvDetail (s : State) (c op gcomp b : Nat) : Nat :=
  match (if b < s.kvCount then s.eng.kv.get? b else none) with
  | none => 3
  | some x =>
    if x.refs = 0 then 3
    else if op = 4 || op = 5 then
      (if x.owner != c then 4
      else if op = 4 && !(kvMay x gcomp) && decide (3 ≤ x.grantees.length) then 5 else 0)
    else if !(kvMay x c) then 4
    else if op = 2 && decide (65535 ≤ x.refs) then 6 else 0

/-- Carry an operation out on one block (R271). -/
def kvApply (s : State) (op gcomp b : Nat) : State :=
  (s.setKv (·.modify b (fun (x : KvBlock) => match op with
    | 2 => { x with refs := x.refs + 1 }
    | 3 => { x with refs := x.refs - 1 }
    | 4 => if kvMay x gcomp then x else { x with grantees := x.grantees ++ [gcomp] }
    | _ => { x with grantees := x.grantees.filter (· != gcomp) }))).kvReap b

/-- Act on the listed blocks in order, stopping at the first that fails: blocks done, and why it stopped. -/
def kvWalk (c op gcomp : Nat) : List Nat → Nat → State → (Nat × Nat) × State
  | [], n, s => ((n, 0), s)
  | b :: bs, n, s =>
    let d := s.kvDetail c op gcomp b
    if d = 0 then kvWalk c op gcomp bs (n + 1) (s.kvApply op gcomp b) else ((n, d), s)

/-- Allocate `n` blocks for a list. -/
def kvAllocN (c tag : Nat) : Nat → State → List Nat × State
  | 0, s => ([], s)
  | n + 1, s =>
    let (b, s) := s.kvAlloc c tag
    let (bs, s) := kvAllocN c tag n s
    (b :: bs, s)

/-- Run one request: its status, detail and the blocks acted on (R271, R272). -/
def kvRun (s : State) (c req : Nat) (media : List (Nat × Media)) : (Nat × Nat × Nat) × State :=
  let op := fld req 7 0
  let gcomp := fld req 15 8
  let count := fld req 28 16
  let list := fld req 106 64
  if op = 0 || count = 0 then ((0, 0, 0), s)
  else if 5 < op || 4096 < count || ((op = 4 || op = 5) && !(s.comps.has gcomp)) then ((2, 8, 0), s)
  else if !s.kvOn then ((2, 9, 0), s)
  else if list % 4 != 0 || !((s.extHolding list (4 * count) (· == .active)).any (fun x => x.2.comp == c)) then ((2, 7, 0), s)
  else if op = 1 then
    if s.kvCount < s.eng.kv.size + count then ((10, 1, 0), s.bumpMeter c mRefused 1)
    else if nth (s.comps.getD c {}).quota 7 0 < s.kvHeld c + count then ((10, 2, 0), s.bumpMeter c mRefused 1)
    else
      let (bs, s) := kvAllocN c (fld req 63 32) count s
      ((0, 0, count), s.ownWrite list (bs.flatMap (bytesOf 4)))
  else
    let ((v, st), s) := s.ownRead media list (4 * count)
    if st ≠ 0 then ((st, 0, 0), s)
    else
      let ((done, d), s) := kvWalk c op gcomp ((List.range count).map (fun i => fld v (32 * i + 31) (32 * i))) 0 s
      ((if done = count then 0 else if done = 0 then 2 else 1, d, done), s)

/-- Execute the service request that landed first, write its result, and let its write complete (R270 to R272). -/
def kvServe (s : State) (media : List (Nat × Media)) : State :=
  match s.eng.kvDue with
  | [] => s
  | q :: rest =>
    let s := { s with eng := { s.eng with kvDue := rest } }
    let c := q.key / 64
    let cfg := (s.comps.getD c {}).kv
    let ln := 64 * cfg.base + q.key % 64
    let s :=
      if cfg.enable && s.comps.has c then
        let ((st, detail, done), s') := s.kvRun c q.bits media
        if st = readWaits then { s' with eng := { s'.eng with kvDue := q :: s'.eng.kvDue } } else
        let s := s'
        let serial := (s.eng.kvSerial.getD q.key 0 + 1) % 2 ^ 32
        let s := { s with eng := { s.eng with kvSerial := s.eng.kvSerial.set q.key serial } }
        let v := put serial 351 320 + put (s.kvHeld c) 319 288 + put done 287 272 + put detail 271 264 + put st 263 256
        s.ownLine ln (BitVec.ofNat 512 v) (beRange 32 16) false
      else s
    match q.owed with
    | none => s
    | some (p, r) => s.completeWrite r (p.filter (fun id => s.remotes.has id))

end State

/-- KV_SERVICE_REQUEST. -/
def execKvServiceRequest (media : List (Nat × Media)) (s : State) : Outcome State Fault Refusal := .next (s.kvServe media)

namespace Work

/-- Read one line of the pool, which lies in no extent: nothing protects it (R268). -/
def rdPoolLine (w : Work) (ln : Nat) : Nat × Work :=
  let x := w.fromStore ln (((w.s.extAt ln).map (·.2)).getD {})
  (x.1.data.toNat, x.2)

/-- Read bytes of the pool. -/
def rdPool (w : Work) (a n : Nat) : Nat × Work :=
  (pieces a n).foldl (fun (acc : Nat × Work) p =>
    let (d, w) := acc.2.rdPoolLine (p.1 / 64)
    (acc.1 + fld d (8 * (p.1 % 64 + p.2) - 1) (8 * (p.1 % 64)) <<< (8 * (p.1 - a)), w)) (0, w)

/-- A reader of a tile's bytes at a pool address. -/
def poolReader (a : Nat) (w : Work) (off n : Nat) : Nat × Work := w.rdPool (a + off) n

/-- Write bytes of the pool. -/
def wrPool (w : Work) (a n v : Nat) (pz : Bool) : Work :=
  (pieces a n).foldl (fun w p =>
    let d := BitVec.ofNat 512 (fld v (8 * (p.1 - a + p.2) - 1) (8 * (p.1 - a)) <<< (8 * (p.1 % 64)))
    let (id, s) := ((w.s.charge (cmdCharge w.cid w.comp) 1).countWrites w.s.port 1).landLine (some w.cid) (p.1 / 64) d (beRange (p.1 % 64) p.2) (p.2 == 64) pz
    { w with s := if id.isSome then s.modCmd w.cid (fun c => { c with writesOut := c.writesOut + 1 }) else s }) w

end Work

end Sys2Proof.Machine
end

