-- ==== Sys2Proof/Machine/Attend.lean ====
section
/-! DEFINITION. KV_APPEND and ATTEND: what they bind at step 7, the rows of KV blocks they write and read, and attention
itself (R275 to R286). -/

namespace Sys2Proof.Machine

open Host (Outcome)

/-! ### Operands (R278, R282) -/

def kvSeqtab (d : Nat) : Nat := fld d 311 256
def kvBatch (d : Nat) : Nat := fld d 351 320
def kvIsAttend (d : Nat) : Bool := hdrOpcode d == 0x20
def kvLayerOff (d : Nat) : Nat := if kvIsAttend d then fld d 895 880 * fld d 927 896 else fld d 591 576 * fld d 623 592
def kvHeads (d : Nat) : Nat := if kvIsAttend d then fld d 863 848 else fld d 559 544
def kvDim (d : Nat) : Nat := if kvIsAttend d then fld d 879 864 else fld d 575 560

/-- Bytes from a block's keys to its values (R275). -/
def kvVoff (f c : Nat) : Nat := (geoOf f 16 c).gr * (geoOf f 16 c).gc * (geoOf f 16 c).pitch * 64

/-- A rotation base of 0 or above 1 (R278, R281, R282). -/
def ropeOk (v : Nat) : Bool := fld v 30 0 == 0 || vlt (.of 1) (ofFp32 v)

/-- A head dimension R278 and R282 allow. -/
def headDimOk (n : Nat) : Bool := n % 32 == 0 && decide (32 ≤ n) && decide (n ≤ 512)

/-- The operand check of KV_APPEND (R281). -/
def checkKvAppend (s : State) (d : Nat) : OpCheck :=
  let rows := kvBatch d
  let hkv := kvHeads d
  let dh := kvDim d
  let c := hkv * dh
  let kv := trefAt d 384
  let f := fld d 643 640
  let none := rows = 0 || c = 0
  let goodFmt := decide (1 ≤ f) && decide (f ≤ 8)
  { fails := [inval (kvSeqtab d % 16 != 0) 256, inval (decide (65536 < rows)) 320, inval (!(ropeOk (fld d 543 512))) 512,
              inval (!none && decide (1048576 < 2 * c)) 544, inval (!none && c % 128 != 0) 544, inval (!none && !(headDimOk dh)) 560,
              inval (fld d 623 592 % 4 != 0) 592, numCheck (fld d 631 624) 624, inval (!goodFmt) 640, inval (fld d 655 649 != 0) 648]
      ++ trefChecks kv rows (2 * c) false
      ++ [inval (!s.kvOn) 256, inval (!none && goodFmt && decide (s.kvBlkBytes < 2 * kvVoff f c)) 640]
    uses := [{ va := kvSeqtab d, n := 16 * rows, wr := false, need := .local_, off := 32 }, kv.use rows (2 * c) false .pinned]
    total := if none then 0 else rows }

/-- The operand check of ATTEND (R285). -/
def checkAttend (s : State) (d : Nat) : OpCheck :=
  let rows := kvBatch d
  let hkv := kvHeads d
  let dh := kvDim d
  let hq := fld d 847 832
  let q := trefAt d 384
  let o := trefAt d 512
  let lse := trefAt d 640
  let useLse := bit (fld d 943 936) 0
  let none := rows = 0 || hq = 0 || hkv = 0 || dh = 0
  let finite := match ofFp32 (fld d 799 768) with | .num _ _ => true | _ => false
  { fails := [inval (kvSeqtab d % 16 != 0) 256, inval (decide (65536 < rows)) 320, inval (!finite) 768,
              inval (!(ropeOk (fld d 831 800))) 800, inval (decide (1024 < hq) || (!none && hq % hkv != 0)) 832,
              inval (!none && hkv * dh % 128 != 0) 848, inval (!none && !(headDimOk dh)) 864, inval (fld d 927 896 % 4 != 0) 896,
              numCheck (fld d 935 928) 928, inval (fld d 943 937 != 0) 936]
      ++ trefChecks q rows (hq * dh) false ++ trefChecks o rows (hq * dh) true ++ [inval (isIntFmt o.fmt) 568]
      ++ (if useLse then trefChecks lse rows hq true ++ [inval (lse.fmt != 0) 696] else []) ++ [inval (!s.kvOn) 256]
    uses := [{ va := kvSeqtab d, n := 16 * rows, wr := false, need := .local_, off := 32 }, q.use rows (hq * dh) false .pinned,
             o.use rows (hq * dh) true .pinned] ++ (if useLse then [lse.use rows hq true .pinned] else [])
    total := if none then 0 else bandsOf rows (max (o.band rows) (if useLse then lse.band rows else 1))
    outs := [(o, rows, hq * dh)] ++ (if useLse then [(lse, rows, hq)] else []) }

/-! ### Binding at step 7 (R277) -/

/-- Where a command keeps what it bound: a row's LIST and CTX, a list entry, a block's fill count, and a block it holds. -/
def keyList (b : Nat) : Nat := 2 * b
def keyCtx (b : Nat) : Nat := 2 * b + 1
def keyEntry (va : Nat) : Nat := 2 ^ 20 + va
def keyFill (blk : Nat) : Nat := 2 ^ 60 + blk
def keyHold (blk : Nat) : Nat := 2 ^ 62 + blk

/-- The null list entry (R276). -/
def nullEntry : Nat := 0xFFFF_FFFF

namespace Work

/-- What the command keeps under a key. -/
def kept (w : Work) (k : Nat) : Nat := w.cmd.scratch.getD k 0

/-- Keep a value under a key. -/
def keep (w : Work) (k v : Nat) : Work := { w with s := w.s.modCmd w.cid (fun c => { c with scratch := c.scratch.set k v }) }

/-- The virtual address of the list entry of a row for block index `k` (R276). -/
def entryVa (w : Work) (b k : Nat) : Nat := w.kept (keyList b) + kvLayerOff w.cmd.desc + 4 * k

/-- The positions a row attends: the first and the one after the last (R283). -/
def attendSpan (d ctx : Nat) : Nat × Nat :=
  let win := if fld d 383 352 = 0 then ctx + 1 else fld d 383 352
  (ctx + 1 - min (ctx + 1) win, ctx + 1)

/-- The block indices a row needs. -/
def neededBlocks (d ctx : Nat) : List Nat :=
  if kvIsAttend d then
    let (a, b) := attendSpan d ctx
    (List.range ((b - 1) / 16 - a / 16 + 1)).map (a / 16 + ·)
  else [ctx / 16]

/-- Bind one list entry: a bad address makes the command invalid; a permitted block is held, and ATTEND binds its fill. -/
def bindEntry (w : Work) (va : Nat) : Work :=
  if w.cmd.scratch.has (keyEntry va) then w
  else match segHolding w.cmd.segs va 4 with
    | none => w.fail 2
    | some g =>
      if !g.ok || !g.pin || (!(kvIsAttend w.cmd.desc) && bit w.cmd.desc 648 && !g.wr) then w.fail 2
      else
        let (e, w) := w.rd va 4
        if w.blocked || w.bad ≠ 0 then w
        else
          let w := w.keep (keyEntry va) e
          match (if e < w.s.kvCount then w.s.eng.kv.get? e else none) with
          | none => w
          | some x =>
            if x.refs = 0 || !(State.kvMay x w.comp) || w.cmd.scratch.has (keyHold e) then w
            else
              let w := { w with s := w.s.setKv (·.modify e (fun (y : KvBlock) => { y with holds := y.holds + 1 })) }
              (w.keep (keyHold e) 1).keep (keyFill e) x.fill

/-- Bind one sequence-table row and the list entries it needs. -/
def bindRow (w : Work) (b : Nat) : Work :=
  if w.blocked || w.bad ≠ 0 then w
  else
    let d := w.cmd.desc
    let (v, w) := if w.cmd.scratch.has (keyList b) then (w.kept (keyList b) <<< 64 + w.kept (keyCtx b), w) else w.rd (kvSeqtab d + 16 * b) 16
    if w.blocked || w.bad ≠ 0 then w
    else
      let list := fld v 119 64
      let ctx := fld v 31 0
      if list ≠ 0 && (list % 4 ≠ 0 || 16777215 < ctx) then w.fail 2
      else
        let w := (w.keep (keyList b) list).keep (keyCtx b) ctx
        if list = 0 then w
        else (neededBlocks d ctx).foldl (fun w k => if w.blocked || w.bad ≠ 0 then w else w.bindEntry (list + kvLayerOff d + 4 * k)) w

/-- Bind everything KV_APPEND or ATTEND names (R277). -/
def bindKv (w : Work) : Work :=
  let w := (List.range (kvBatch w.cmd.desc)).foldl bindRow w
  let named := (w.cmd.scratch.keys.filterMap (fun k => if 2 ^ 20 ≤ k && k < 2 ^ 60 && w.kept k ≠ nullEntry then some (w.kept k) else none)).eraseDups
  if w.blocked || w.bad ≠ 0 then w else if 4194304 < named.length then w.fail 2 else w

end Work

/-- Give up the blocks a command holds (R269). -/
def State.kvRelease (s : State) (c : Cmd) : State :=
  (c.scratch.keys.filter (fun k => 2 ^ 62 ≤ k && (hdrOpcode c.desc == 0x20 || hdrOpcode c.desc == 0x21))).foldl (fun s k =>
    (s.setKv (·.modify (k - 2 ^ 62) (fun (y : KvBlock) => { y with holds := y.holds - 1 }))).kvReap (k - 2 ^ 62)) s

/-! ### KV_APPEND (R279 to R281) -/

/-- Where block `n` of a tile begins, by its block headers. -/
def blockPos (tile : Nat) : Nat → Nat → Nat
  | 0, pos => pos
  | n + 1, pos => blockPos tile n (pos + 8 + 8 * fld tile (8 * pos + 31) (8 * pos + 24))

namespace Work

/-- Write row `r` of one tile of a block: its Ashlar blocks, the ZERO blocks after them, and the header (R280). -/
def putKvTile (w : Work) (a f etgt rnd r : Nat) (g : Geo) (ta : TileAt) (refs : Nat) (pz : Bool) : Work :=
  let rowT : TileAt := { ta with rows := 1 }
  let (n0, w) := w.draws (blockDraws * rowT.nblk)
  let bs := encodeTile f etgt rnd n0 rowT refs
  let zeros := List.replicate ((15 - r) * rowT.nblk) (mkBlock f 0 0 0 0 0 0 0)
  let old := readMem w.s.mem a (g.pitch * 64)
  let tgen := if r = 0 then w.tgenNow else fld old 223 192
  let pos := if r = 0 then 32 else blockPos old (r * rowT.nblk) 32
  let exact := bs.all (·.2) && (r = 0 || bit old 55)
  let (body, n) := blocksBytes a tgen pos (bs.map (·.1) ++ zeros)
  let head := tileHeader a tgen f etgt exact g ta n
  (w.wrPool (a + pos) (n - pos) body pz).wrPool a 32 head pz

/-- Write row `r` of the keys or the values of a block. -/
def putKvTensor (w : Work) (a f c etgt rnd r packed : Nat) (pz : List Bool) : Work :=
  let g := geoOf f 16 c
  (List.range g.gc).foldl (fun w j =>
    let ta := tileAt g 16 c 0 j
    let rb := 8 * rowBytes f ta.cols
    let lo := 8 * rowBytes f 2048 * j
    w.putKvTile (a + g.slot 0 j) f etgt rnd r g ta (fld packed (lo + rb - 1) lo) (anyTaint ((pz.drop (2048 * j)).take ta.cols))) w

/-- Convert a row without counting what becomes special. -/
def pack (w : Work) (f numctl : Nat) (vs : List Val) : Nat × Work :=
  let (vs, w) := w.openVals vs
  let (n, w) := w.draws vs.length
  ((packRow f (numRnd numctl) (numSat numctl) n vs).bits, w)

/-- Rotate each head of `dh` elements at a position (R232, R279, R283). -/
def rotate (w : Work) (rope p dh : Nat) (vs : List Val) : List Val × Work :=
  if fld rope 30 0 = 0 then (vs, w)
  else
    let (n, w) := w.draws vs.length
    (((chunks dh vs.length vs).mapIdx (fun i h => ropeRow (n + dh * i) (.of (p : Nat)) (ofFp32 rope) dh h)).flatten, w)

/-- The keys and values of one row of KV, packed in the block's format, with their taint. -/
def kvRow (w : Work) (b p : Nat) : (Nat × List Bool) × (Nat × List Bool) × Work :=
  let d := w.cmd.desc
  let c := kvHeads d * kvDim d
  let f := fld d 643 640
  let nc := fld d 631 624
  let (x, w) := w.readRow (trefAt d 384) (kvBatch d) (2 * c) b
  let half := 8 * rowBytes x.fmt c
  let kp := x.pz.take c
  let kp := if fld d 542 512 = 0 || kp.isEmpty then kp else (List.range c).map (fun j => nth kp (j / 2 * 2) false || nth kp (j / 2 * 2 + 1) false)
  let same := x.fmt == f
  let (ks, w) :=
    if same && fld d 542 512 == 0 then (fld x.packed (half - 1) 0, w)
    else
      let (vs, w) := w.rotate (fld d 543 512) p (kvDim d) ((unpackRow x.fmt c (fld x.packed (half - 1) 0)).map vecVal)
      w.pack f nc vs
  let (vs, w) := if same then (x.packed >>> half, w) else w.pack f nc ((unpackRow x.fmt c (x.packed >>> half)).map vecVal)
  ((ks, kp), (vs, x.pz.drop c), w)

/-- Allocate a block for a null entry, unless the pool or the quota refuses (R279). -/
def kvTake (w : Work) (va tag : Nat) : Option Nat × Work :=
  if w.s.kvCount ≤ w.s.eng.kv.size || nth (w.s.comps.getD w.comp {}).quota 7 0 ≤ w.s.kvHeld w.comp then
    (none, { w with s := w.s.bumpMeter w.comp mRefused 1 })
  else
    let (b, s) := w.s.kvAlloc w.comp tag
    let w := { w with s := s.setKv (·.modify b (fun (y : KvBlock) => { y with holds := 1 })) }
    let w := ((w.keep (keyHold b) 1).keep (keyEntry va) b).wr va 4 b false
    (some b, w)

/-- The block a row appends to, if it appends (R279). -/
def kvTarget (w : Work) (va r : Nat) : Option Nat × Work :=
  let e := w.kept (keyEntry va)
  if e = nullEntry then
    (if r = 0 && bit w.cmd.desc 648 then w.kvTake va (fld w.cmd.desc 383 352) else (none, w))
  else match w.s.eng.kv.get? e with
    | some x => if x.owner = w.comp && x.refs = 1 && x.grantees.isEmpty && r ≤ x.fill then (some e, w) else (none, w)
    | none => (none, w)

end Work

/-- One row of KV_APPEND. -/
def itemKvAppend (w : Work) (b : Nat) : Work :=
  let d := w.cmd.desc
  if w.kept (keyList b) = 0 then w
  else
    let p := w.kept (keyCtx b)
    let r := p % 16
    let f := fld d 643 640
    let c := kvHeads d * kvDim d
    let (k, v, w) := w.kvRow b p
    if w.blocked then w
    else
      let (t, w) := w.kvTarget (w.entryVa b (p / 16)) r
      match t with
      | none => { w with r1 := 1, part := true }
      | some blk =>
        let a := w.s.kvAddr blk
        let w := w.putKvTensor a f c (fld d 639 632) (numRnd (fld d 631 624)) r k.1 k.2
        let w := w.putKvTensor (a + kvVoff f c) f c (fld d 639 632) (numRnd (fld d 631 624)) r v.1 v.2
        { w with s := w.s.setKv (·.modify blk (fun (x : KvBlock) => { x with fill := r + 1 })), r0 := 1 }

/-! ### ATTEND (R283 to R285) -/

/-- One present position: the block's format, the keys and values of its row, and which of their columns are tainted. -/
structure KvTok where
  fmt : Nat
  k : List Val
  v : List Val
  kp : List Bool
  vp : List Bool
  deriving Repr, Inhabited

namespace Work

/-- One tensor of a block as rows of packed elements with their taint: the rows wanted (R249, R259). -/
def readKvTensor (w : Work) (a f c : Nat) (rows : List Nat) : List (List Val × List Bool) × Work :=
  let g := geoOf f 16 c
  let keep := w.pz
  let (h, w) := w.rdPool a 64
  let key := headKey h
  let (ts, w) := (List.range g.gc).foldl (fun (acc : List (Nat × Nat × Bool) × Work) j =>
    let at_ := a + g.slot 0 j
    let ta := tileAt g 16 c 0 j
    let (bs, w) := ({ acc.2 with pz := false }).readTile (poolReader at_) at_ 3 f key g ta
    (acc.1 ++ [(tileStream f bs, ta.cols, w.pz)], w)) ([], w)
  (rows.map (fun r =>
      ((ts.map (fun t => let rb := 8 * rowBytes f t.2.1; unpackRow f t.2.1 (fld t.1 (rb * r + rb - 1) (rb * r)))).flatten,
       (ts.map (fun t => List.replicate t.2.1 t.2.2)).flatten)),
    { w with pz := keep || ts.any (·.2.2) })

/-- Whether the first header of the block at `a` describes its tiles (R258, R259, R275). -/
def kvHeadOk (a h c bytes : Nat) : Bool :=
  let f := fld h 59 56
  fld h 255 224 == checkValue 0 a (fld h 223 192) (fld h 223 0) 28 && fld h 63 60 == 1 && decide (1 ≤ f) && decide (f ≤ 8)
    && decide (2 * kvVoff f c ≤ bytes)

/-- The rows wanted of a block's K and V tensors, in the element format `f`. -/
def readKvPair (w : Work) (a f c : Nat) (rows : List Nat) : List KvTok × Work :=
  let k := w.readKvTensor a f c rows
  let v := k.2.readKvTensor (a + kvVoff f c) f c rows
  ((k.1.zip v.1).map (fun x => { fmt := f, k := x.1.1, v := x.2.1, kp := x.1.2, vp := x.2.2 }), v.2)

/-- A block whose first header cannot be read or is refused reads as uncorrectable throughout. -/
def badKvBlock (c : Nat) (rows : List Nat) : List KvTok :=
  let zero : List Val := List.replicate c (.of 0)
  rows.map (fun _ => { fmt := 1, k := zero, v := zero, kp := List.replicate c true, vp := List.replicate c true })

/-- The first header of a block, with its own mark of poison. -/
def readKvHead (w : Work) (a : Nat) : Nat × Work := ({ w with pz := false }).rdPool a 64

/-- The same work with another mark of poison. -/
def setPz (w : Work) (b : Bool) : Work := { w with pz := b }

/-- The tokens of the rows wanted of a block whose first header was read. One that is refused is logged (R259, R260). -/
def readKvRest (w : Work) (a h c : Nat) (pz : Bool) (rows : List Nat) : List KvTok × Work :=
  if w.blocked then ([], w)
  else if w.pz then (badKvBlock c rows, w)
  else if kvHeadOk a h c w.s.kvBlkBytes then (w.setPz pz).readKvPair a (fld h 59 56) c rows
  else (badKvBlock c rows, (w.logTile a (fld h 223 192) 3).taint 5)

/-- The tokens of the rows wanted of a block. -/
def readKvBlock (w : Work) (blk c : Nat) (rows : List Nat) : List KvTok × Work :=
  let x := w.readKvHead (w.s.kvAddr blk)
  x.2.readKvRest (w.s.kvAddr blk) x.1 c w.pz rows

/-- The rows of block `k` that lie in a row's span. -/
def wantedRows (lo hi k : Nat) : List Nat :=
  (List.range 16).filter (fun r => decide (lo ≤ 16 * k + r) && decide (16 * k + r < hi))

/-- The rows a block held when its command started; 0 for a block it did not hold. -/
def fillOf (w : Work) (e : Nat) : Nat := if w.cmd.scratch.has (keyHold e) then w.kept (keyFill e) else 0

/-- The tokens of some rows of a block, which is not read for none. -/
def readRows (w : Work) (e c : Nat) (rows : List Nat) : List KvTok × Work :=
  if rows.isEmpty then ([], w) else w.readKvBlock e c rows

/-- The present tokens of block `k` of a row, added to those before it. -/
def presentStep (b c lo hi : Nat) (acc : (List KvTok × Bool) × Work) (k : Nat) : (List KvTok × Bool) × Work :=
  let e := acc.2.kept (keyEntry (acc.2.entryVa b k))
  let rows := (wantedRows lo hi k).filter (fun r => decide (r < acc.2.fillOf e))
  let x := acc.2.readRows e c rows
  ((acc.1.1 ++ x.1, acc.1.2 || rows.length != (wantedRows lo hi k).length), x.2)

/-- The present tokens of a row, and whether a position asked for was skipped (R283 steps 1 and 2). -/
def presentToks (w : Work) (b c : Nat) : (List KvTok × Bool) × Work :=
  let span := attendSpan w.cmd.desc (w.kept (keyCtx b))
  (neededBlocks w.cmd.desc (w.kept (keyCtx b))).foldl (presentStep b c span.1 span.2) (([], false), w)

end Work

/-- The exact numbers of a list, if all are finite. -/
def finites (vs : List Val) : Option (List Rat) :=
  vs.foldr (fun v acc => match v, acc with
    | .num q _, some l => some (q :: l)
    | _, _ => none) (some [])

/-- Quantise a query head to a block's element format (R195, R283 step 4). -/
def quantQuery (f n : Nat) (q : List Val) : List Val := unpackRow f q.length (packRow f 0 false n q).bits

/-- Draws one head may take over `t` present positions (R190, R283). -/
def attendDraws (t dh : Nat) : Nat := 12 * 32 * dh + t * dotDraws dh + 2 * t + dh * dotDraws t + 2

/-- A number rounded to BF16. -/
def toBf16 (v : Val) : Val := (unpackRow 1 1 (packRow 1 0 false 0 [v]).bits).headD .nan

/-- The probabilities of the present positions, as BF16, from their finite scores; `n` numbers the draws (R202, R283). -/
def headProbs (n : Nat) (ss : List Val) : List Val :=
  let t := ss.length
  let m := ss.foldl fmax (ss.headD (.of 0))
  let es := ss.mapIdx (fun i x => funAt (n + i) (fadd n x (fneg m)) (fun _ => true) expR builtBound)
  let z := accum (n + t) t (sumVals es) 0
  es.mapIdx (fun i e => toBf16 (fdiv (n + t + 1 + i) e z))

/-- A finite result of the matrix unit, within its opcode's own bound of the exact value as well (R202, R284). -/
def holdTo (exact bound : Rat) (v : Val) : Val := match v with
  | .num q _ => if rabs (q - exact) ≤ bound then v else toFp32 (.of exact)
  | v => v

/-- The exact score of a position, and the sum of the magnitudes of its products (R284). -/
def exactScore (scale : Rat) (q k : List Rat) : Rat × Rat :=
  let ps := (q.zip k).map (fun x => x.1 * x.2)
  (scale * ps.foldl (· + ·) 0, ps.foldl (fun a p => a + rabs p) 0)

/-- One query head over the present tokens: its output elements and its log-sum-exp. The matrix unit forms the scores and the weighted
sums; what comes of an infinite score the manual does not state (R190, R198, R283, R284). -/
def attendHead (n : Nat) (scale : Rat) (q : List Val) (toks : List (Nat × List Val × List Val)) : List Val × Val :=
  let dh := q.length
  let cnt := toks.length
  let n1 := n + 12 * 32 * dh
  let n2 := n1 + cnt * dotDraws dh
  let n3 := n2 + 2 * cnt + 1
  let qhat (f : Nat) : List Val := quantQuery f (n + f * 32 * dh) q
  let fs := (toks.map (·.1)).eraseDups.map (fun f => (f, qhat f))
  let qOf (f : Nat) : List Val := ((fs.find? (fun x => x.1 == f)).map (·.2)).getD q
  let ss := toks.mapIdx (fun i t => fmul (.of scale) (dot (n1 + i * dotDraws dh) false (qOf t.1) t.2.1))
  let exact := toks.map (fun t => match finites (qOf t.1), finites t.2.1 with
    | some a, some b => some (exactScore scale a b)
    | _, _ => none)
  if ss.any isNan then (List.replicate dh .nan, .nan)
  else if (finites ss).isNone || exact.contains none then
    ((List.range dh).map (fun j => anyVal (n3 + j * dotDraws cnt)), anyVal (n3 + dh * dotDraws cnt))
  else
    let xs := exact.map (fun x => x.getD (0, 0))
    let m := xs.foldl (fun a x => if a < x.1 then x.1 else a) (xs.headD (0, 0)).1
    let es := xs.map (fun x => expR (x.1 - m))
    let z := es.foldl (· + ·) 0
    let delta := rabs scale * ((dh : Nat) : Rat) * pow2 (-23) * xs.foldl (fun a x => if a < x.2 then x.2 else a) 0
    let ps := headProbs n2 ss
    let o := (List.range dh).map (fun j =>
      let col := toks.map (fun t => nth t.2.2 j (.of 0))
      let v := dot (n3 + j * dotDraws cnt) false ps col
      match finites col with
      | none => v
      | some vs =>
        let mx := vs.foldl (fun a v => if a < rabs v then rabs v else a) 0
        holdTo (((es.zip vs).foldl (fun a x => a + x.1 * x.2) 0) / z) ((pow2 (-8) + ((cnt : Nat) : Rat) * pow2 (-22) + 2 * delta) * mx) v)
    let b := pow2 (-19) + ((cnt : Nat) : Rat) * pow2 (-23) + delta
    (o, bounded (n3 + dh * dotDraws cnt) (m + lnR z) (b * (1 + slack)))

namespace Work

/-- One active row of ATTEND: its output and LSE values, and which of them are tainted. -/
def attendRow (w : Work) (b : Nat) : (List Val × List Bool) × (List Val × List Bool) × Work :=
  let d := w.cmd.desc
  let hkv := kvHeads d
  let dh := kvDim d
  let hq := fld d 847 832
  let c := hkv * dh
  let ((toks, skipped), w) := w.presentToks b c
  let ((q, qp), w) := w.readVec (trefAt d 384) (kvBatch d) (hq * dh) b
  let (q, w) := w.rotate (fld d 831 800) (w.kept (keyCtx b)) dh q
  let w := if skipped then { w with r1 := w.r1 + 1, part := true } else { w with r0 := w.r0 + 1 }
  if toks.isEmpty then ((List.replicate (hq * dh) (.of 0), []), (List.replicate hq (.inf true), []), w)
  else
    let scale : Rat := match ofFp32 (fld d 799 768) with | .num x _ => x | _ => 0
    let per := attendDraws toks.length dh
    let (n, w) := w.draws (hq * per)
    let cut (g : Nat) (l : List Val) : List Val := (l.drop (g * dh)).take dh
    let cutp (g : Nat) (l : List Bool) : List Bool := (l.drop (g * dh)).take dh
    let hs := (List.range hq).map (fun h =>
      let g := h / (hq / hkv)
      let r := attendHead (n + per * h) scale (cut h q) (toks.map (fun t => (t.fmt, cut g t.k, cut g t.v)))
      let all := anyTaint (cutp h qp) || toks.any (fun t => anyTaint (cutp g t.kp))
      let vp := toks.foldl (fun a t => orTaint dh a (cutp g t.vp)) []
      (r.1, r.2, if all then List.replicate dh true else if vp.isEmpty then List.replicate dh false else vp, all))
    let op := (hs.map (fun x => x.2.2.1)).flatten
    let lp := hs.map (fun x => x.2.2.2)
    (((hs.map (·.1)).flatten, if op.any id then op else []), (hs.map (fun x => x.2.1), if lp.any id then lp else []), w)

/-- The row an inactive row of an Ashlar tile keeps: what the tile there holds. Where that cannot be read, the tile stays without good
data: it is written poisoned (R219, R260, R283; DESIGN CHOICE, log entry 72). -/
def keptRow (w : Work) (t : Tref) (rows cols numctl r : Nat) : OutRow × Work :=
  let (x, w1) := ({ w with pz := false, bad := 0 }).readAshlarRow t rows cols r
  if w1.blocked then ({ packed := 0 }, { w with blocked := true, wants := w1.wants })
  else if w1.pz || w1.halt || w1.bad ≠ 0 then
    ({ packed := 0, pz := List.replicate cols true }, { { w with s := w1.s }.failAt w1.badAt w1.bad with pz := true })
  else if x.fmt = t.fmt then ({ packed := x.packed }, { w with s := w1.s })
  else
    let (p, w) := { w with s := w1.s }.pack t.fmt numctl (unpackRow x.fmt cols x.packed)
    ({ packed := p }, w)

/-- Write the active rows of a run of rows; the other rows of an Ashlar tile stay as they are. -/
def writeActive (w : Work) (t : Tref) (rows cols numctl first : Nat) (outs : List (Option (List Val × List Bool))) : Work :=
  if t.enc = 0 then
    outs.zipIdx.foldl (fun w o => match o.1 with
      | some (vs, pz) => (let (p, w) := w.pack t.fmt numctl vs; w.writePlain t cols (first + o.2) { packed := p, pz := pz })
      | none => w) w
  else
    let b := t.band rows
    (chunks b outs.length outs).zipIdx.foldl (fun w ch =>
      if ch.1.all (·.isNone) then w
      else
        let at_ := first + b * ch.2
        let (rs, w) := overRows w (List.range ch.1.length) (fun w k =>
          match nth ch.1 k none with
          | some (vs, pz) => (let (p, w) := w.pack t.fmt numctl vs; (({ packed := p, pz := pz } : OutRow), w))
          | none => w.keptRow t rows cols numctl (at_ + k))
        if w.blocked then w else (w.writeRows t rows cols 0 (numRnd numctl) at_ rs).2) w

end Work

/-- One band of rows of ATTEND. -/
def itemAttend (w : Work) (i : Nat) : Work :=
  let d := w.cmd.desc
  let rows := kvBatch d
  let hq := fld d 847 832
  let o := trefAt d 512
  let lse := trefAt d 640
  let useLse := bit d 936
  let band := max (o.band rows) (if useLse then lse.band rows else 1)
  let rs := bandRows rows band i
  let (outs, w) := overRows w rs (fun w b =>
    if w.kept (keyList b) = 0 then (none, w)
    else
      let (x, l, w) := w.attendRow b
      (some (x, l), w))
  if w.blocked then w
  else
    let w := w.writeActive o rows (hq * kvDim d) (fld d 935 928) (i * band) (outs.map (fun x => x.map (·.1)))
    if useLse then w.writeActive lse rows hq (fld d 935 928) (i * band) (outs.map (fun x => x.map (·.2))) else w

/-- KV_APPEND. -/
def execKvAppend (cid : Nat) (run : RunEnv) (s : State) : Outcome State Fault Refusal :=
  .next (s.runItems cid run 0x21 isMover itemKvAppend)

/-- ATTEND. -/
def execAttend (cid : Nat) (run : RunEnv) (s : State) : Outcome State Fault Refusal := .next (s.runItems cid run 0x20 isEngine itemAttend)

end Sys2Proof.Machine
end

