-- ==== Sys2Proof/Machine/Groups.lean ====
section
/-! DEFINITION. Collective groups: their commits, abort and progress, and the opcode COLL (R287 to R301). -/

namespace Sys2Proof.Machine

open Host (Outcome)

/-! ### Members and abort (R288, R295 to R298, R301) -/

/-- Port and receive window of a member entry (R288). -/
def memPort (e : Nat) : Nat := fld e 11 0
def memBase (e : Nat) : Nat := fld e 106 64

/-- The forward set of rank `r` in a group of `p` (R297). -/
def forwardSet (r p : Nat) : List Nat :=
  (([(r + p - 1) % p, (r + 1) % p] ++ ((List.range 10).map (fun i => r ^^^ 2 ^ i)).filter (· < p)).eraseDups).filter (· != r)

/-- An abort record (R297). -/
def abortRecord (time cause origin epoch gkey : Nat) : Nat :=
  put time 191 128 + put cause 71 64 + put origin 59 48 + put epoch 47 32 + put gkey 31 0

namespace State

/-- A group. -/
def grpAt (s : State) (g : Nat) : Grp := s.eng.grps.getD g {}

/-- Change a group. -/
def modGrp (s : State) (g : Nat) (f : Grp → Grp) : State := { s with eng := { s.eng with grps := s.eng.grps.set g (f (s.grpAt g)) } }

/-- Commands of a group that have not completed. -/
def grpCmds (s : State) (g : Nat) : List Nat := s.cmds.keys.filter (fun c => (s.cmds.get? c).any (fun x => x.group == g + 1))

/-- The abort event of an ACTIVE group: its cause and origin are recorded, with the time and the cause its records carry; MARK is
fixed, and its commands are due to stop (R295, R297, R301). -/
def abortGroup (s : State) (g cause origin time first : Nat) : State :=
  if !((s.grpAt g).state == GrpState.active) then s
  else s.modGrp g (fun x => { x with state := .aborted, cause := cause, origin := origin, aborts := min (x.aborts + 1) 1023, due := true
                                     abTime := time, abCause := first
                                     marks := (x.marks.set 3 (x.marks.getD 5 0)).set 4 1 })

/-- The abort of a group by an event of this controller's own (R295). -/
def abortHere (s : State) (g cause : Nat) : State := s.abortGroup g cause s.port s.stamp cause

/-- Stop every command of a group: those running abandon their tiles, the others never run (R296). -/
def stopGroup (s : State) (g : Nat) : State :=
  (s.grpCmds g).foldl (fun s c => match s.cmds.get? c with
    | some x =>
      if x.phase == .running then (s.modCmd c (failWith s.stamp 8)).finish c
      else if x.phase == .fetched || x.phase == .waiting || x.phase == .share then s.refuse x.ring c 8 0
      else s
    | none => s) s

/-- Forward an abort record to each member of the forward set, once (R297). -/
def forwardAbort (s : State) (g : Nat) : State :=
  let x := s.grpAt g
  let v := abortRecord x.abTime x.abCause x.origin x.epoch x.gkey
  (forwardSet x.rank (max 1 x.size)).foldl (fun s r =>
    let e := nth x.members r 0
    (s.issue { head := 0, host := false, port := memPort e, write := true, addr := memBase e + 128, len := 64, data := v
               flag := some (0, 0, 0), be := 0xFFFFFF, purpose := .abort g, issued := 0, limit := 0 }).2) s

/-- Carry out an abort that is due (R296, R297). -/
def carryAbort (s : State) (g : Nat) : State :=
  if !(s.grpAt g).due then s
  else ((s.modGrp g (fun x => { x with due := false })).stopGroup g).forwardAbort g

/-- The remote-fault alarm of a port aborts the groups with a member there (R295). -/
def memberFault (s : State) (port : Nat) : State :=
  s.eng.grps.keys.foldl (fun s g =>
    if (s.grpAt g).members.any (fun e => memPort e == port) then s.abortHere g 0xFF else s) s

/-- A command of a group completes: a failure aborts the group, and its engine time is counted (R295, R301). -/
def grpNote (s : State) (c : Cmd) (engNs : Nat) : State :=
  if c.group = 0 then s
  else
    let g := c.group - 1
    let ok := decide (c.status ≤ 1)
    let x := s.grpAt g
    let step := hdrStep c.desc
    let word := if !ok then 1 else if x.marks.getD 4 0 = 1 && step ≤ x.marks.getD 3 0 then 2 else 0
    let s := s.modGrp g (fun x =>
      let m := x.marks.set word (x.marks.getD word 0 + engNs)
      { x with marks := if ok then m.set 5 (max step (x.marks.getD 5 0)) else m })
    if ok || c.status = 8 then s else s.abortHere g c.status

/-- A DRAINING group whose commands have completed becomes FREE (R289). -/
def grpDrained (s : State) (g : Nat) : State :=
  if (s.grpAt g).state == GrpState.draining && (s.grpCmds g).isEmpty then { s with eng := { s.eng with grps := s.eng.grps.set g {} } } else s

/-- Take a completed COLL out of its group's order; the next one begins to wait now (R293). -/
def collDone (s : State) (cid : Nat) : State :=
  s.eng.grps.keys.foldl (fun s g =>
    if !(s.grpAt g).queue.contains cid then s
    else
      let s := s.modGrp g (fun x => { x with queue := x.queue.filter (· != cid) })
      match (s.grpAt g).queue with
      | n :: _ => s.modCmd n (fun c => { c with waitFrom := s.now })
      | [] => s) s

/-! ### Commits (R287 to R289) -/

/-- The checks every OP of a group commit shares: the state it may come from (R289). -/
def grpStateCheck (s : State) (g : Nat) (ok : GrpState → Bool) : Check := ⟨.state, offGrp, !(ok (s.grpAt g).state)⟩

/-- Read the member list a CREATE names, where it can be read at all: its bytes, and the status of the read. -/
def grpList (s : State) (f : Frame) (media : List (Nat × Media)) : (Nat × Nat) × State :=
  let comp := f.fld offGrp 31 24
  let size := f.fld offGrpLoc 42 32
  let list := f.fld offGrpLoc 30 0 * 4096
  if size != 0 && decide (size ≤ 1024) && s.comps.has comp && s.inOwnSoft comp list (16 * size) then s.ownRead media list (16 * size)
  else ((0, 1), s)

/-- Apply a CREATE whose member list read as `v` with status `st` (R288 to R290). -/
def grpCreate (s : State) (f : Frame) (v st : Nat) : State :=
  let g := f.sel
  let comp := f.fld offGrp 31 24
  let rxlen := f.fld offGrpLoc 63 48
  let size := f.fld offGrpLoc 42 32
  let list := f.fld offGrpLoc 30 0 * 4096
  let sane := st != 1
  let mem := if st = 0 then (List.range size).map (fun i => fld v (128 * i + 127) (128 * i)) else []
  let mine := mem.filter (fun e => memPort e == s.port)
  let rx := memBase (mine.headD 0)
  let cs : List Check :=
    [ ⟨.zero, offGrpLoc, size == 0 || rxlen == 0⟩,
      ⟨.encoding, offGrpLoc, decide (1024 < size) || rxlen == 1 || rxlen == 2 || (sane && mine.length != 1)⟩,
      ⟨.composition, offGrp, !(s.comps.has comp)⟩,
      ⟨.range, offGrpLoc, s.comps.has comp && (!(s.inOwnSoft comp list (16 * size))
        || (sane && mine.length == 1 && !(s.inOwnSoft comp rx (4096 * rxlen))))⟩,
      s.grpStateCheck g (· == GrpState.free) ]
  s.decide_ .grp cs (fun s =>
    let s := (List.range 3).foldl (fun s i => s.ownLine (rx / 64 + i) 0 beAll true) s
    let gn := f.word offGrpGnext
    let x : Grp := { state := .active, gkey := f.fld offGrp 63 32, comp := comp, rank := mem.findIdx (fun e => memPort e == s.port)
                     size := size, gen := (s.grpAt g).gen + 1, rxlen := rxlen, rx := rx, list := f.fld offGrpLoc 30 0, gnext := gn, members := mem, base := gn }
    { s with eng := { s.eng with grps := s.eng.grps.set g x } })

/-- Apply a DESTROY: an ACTIVE group aborts locally, without forwarding, and an earlier abort that is due is carried out first; its rings
are detached, and it drains (R289, R297). -/
def grpDestroy (s : State) (f : Frame) : State :=
  let g := f.sel
  s.decide_ .grp [s.grpStateCheck g (· != GrpState.free)] (fun s =>
    let s := if (s.grpAt g).state == GrpState.active then s.abortHere g 0xFF else s.carryAbort g
    let s := s.modGrp g (fun x => { x with state := .draining, due := false, rings := Tab.empty })
    (s.stopGroup g).grpDrained g)

/-- The checks of ATTACH and DETACH (R289). -/
def grpRingChecks (s : State) (f : Frame) (attach : Bool) : List Check :=
  let g := f.sel
  let r := f.fld offGrp 23 12
  [ ⟨.composition, offGrp, (s.ringAt r).state == RingState.free || (s.ringAt r).comp != (s.grpAt g).comp⟩,
    s.grpStateCheck g (fun x => x == GrpState.active || x == GrpState.aborted),
    ⟨.state, offGrp, attach && s.grpOfRing r != 0⟩ ]

/-- Apply an ATTACH or a DETACH. -/
def grpAttach (s : State) (f : Frame) (attach : Bool) : State :=
  s.decide_ .grp (s.grpRingChecks f attach) (fun s =>
    s.modGrp f.sel (fun x => { x with rings := NSet.put x.rings (f.fld offGrp 23 12) attach }))

/-- Apply a CLEAR (R289). -/
def grpClear (s : State) (f : Frame) : State :=
  let g := f.sel
  s.decide_ .grp [s.grpStateCheck g (· == GrpState.aborted)] (fun s =>
    let gn := f.word offGrpGnext
    (s.carryAbort g).modGrp g (fun x => { x with state := .active, epoch := (x.epoch + 1) % 65536, gnext := gn, base := gn }))

/-- Apply an ABORT (R289, R295). -/
def grpAbortOp (s : State) (f : Frame) : State :=
  s.decide_ .grp [s.grpStateCheck f.sel (· == GrpState.active)] (fun s => s.abortHere f.sel 0xFF)

/-- An abort record landed on a group's ABORT line: it is accepted or ignored; what it says of its origin goes on with the records
forwarded (R297, R298). -/
def abortLands (s : State) : State :=
  match s.eng.abortDue with
  | [] => s
  | (g, v) :: rest =>
    let s := { s with eng := { s.eng with abortDue := rest } }
    let x := s.grpAt g
    if x.state == GrpState.active && fld v 31 0 == x.gkey && fld v 47 32 == x.epoch then s.abortGroup g 0xFE (fld v 59 48) (fld v 191 128) (fld v 71 64)
    else s.bump cAbortIgnored 1

end State

/-- Whether a frame of the GRP domain carries an OP. -/
def grpOpIs (op : Nat) (f : Frame) : Bool := f.fld offGrp 2 0 == op

/-- GROUP_CREATE. A commit with no OP, or with the reserved one, is decided here. -/
def execGroupCreate (media : List (Nat × Media)) (s : State) : Outcome State Fault Refusal :=
  .next (match s.takeFrame .grp (fun f => grpOpIs 0 f || grpOpIs 1 f || grpOpIs 7 f) with
    | some (f, s) =>
      if grpOpIs 1 f then
        (let x := s.grpList f media
        if x.1.2 = State.readWaits then { x.2 with regs := { x.2.regs with queue := f :: x.2.regs.queue } } else x.2.grpCreate f x.1.1 x.1.2)
      else s.decide_ .grp [⟨.encoding, offGrp, grpOpIs 7 f⟩] (fun s => s)
    | none => s)

/-- GROUP_DESTROY. -/
def execGroupDestroy (s : State) : Outcome State Fault Refusal :=
  .next (match s.takeFrame .grp (grpOpIs 2) with | some (f, s) => s.grpDestroy f | none => s)

/-- GROUP_ATTACH. -/
def execGroupAttach (s : State) : Outcome State Fault Refusal :=
  .next (match s.takeFrame .grp (grpOpIs 3) with | some (f, s) => s.grpAttach f true | none => s)

/-- GROUP_DETACH. -/
def execGroupDetach (s : State) : Outcome State Fault Refusal :=
  .next (match s.takeFrame .grp (grpOpIs 4) with | some (f, s) => s.grpAttach f false | none => s)

/-- GROUP_CLEAR. -/
def execGroupClear (s : State) : Outcome State Fault Refusal :=
  .next (match s.takeFrame .grp (grpOpIs 5) with | some (f, s) => s.grpClear f | none => s)

/-- GROUP_ABORT: a commit with OP = ABORT for the group named is applied, and an abort that is due is carried out: the
group's commands stop and the records leave. -/
def execGroupAbort (grp cause : Nat) (s : State) : Outcome State Fault Refusal :=
  let s := match s.takeFrame .grp (fun f => grpOpIs 6 f && f.sel == grp && cause == 0xFF) with
    | some (f, s) => s.grpAbortOp f
    | none => s
  .next (s.carryAbort grp)

/-- ABORT_RECORD. -/
def execAbortRecord (s : State) : Outcome State Fault Refusal := .next s.abortLands

/-! ### COLL (R291 to R294) -/

/-- What a COLL works with: its operands and its group's geometry. -/
structure Coll where
  gid : Nat
  kind : Nat
  op : Nat
  wfmt : Nat
  rows : Nat
  cols : Nat
  p : Nat
  rank : Nat
  slot : Nat
  rx : Nat
  deriving DecidableEq, Repr, Inhabited

/-- A COLL's operands on its group. -/
def collOf (d : Nat) (g : Grp) : Coll :=
  { gid := fld d 559 552, kind := fld d 543 536, op := fld d 551 544, wfmt := fld d 563 560, rows := fld d 607 576
    cols := fld d 639 608, p := max 1 g.size, rank := g.rank, slot := (g.rxlen - 1) * 2048, rx := g.rx }

namespace Coll

/-- Rows and bytes of a chunk; bytes of an element in the slots. -/
def chunkRows (c : Coll) : Nat := c.rows / c.p
def elem (c : Coll) : Nat := if c.wfmt = 0 then 4 else 2
def chunkBytes (c : Coll) : Nat := c.chunkRows * c.cols * c.elem

/-- Steps of one piece, and of the whole command (R292). -/
def perPiece (c : Coll) : Nat := (if c.kind = 0 then 2 else 1) * (c.p - 1)
def steps (c : Coll) : Nat := if c.rows = 0 || c.cols = 0 then 0 else cdiv c.chunkBytes (max 1 c.slot) * c.perPiece

/-- Rows of SRC and of DST (R291). -/
def srcRows (c : Coll) : Nat := if c.kind = 2 then c.chunkRows else c.rows
def dstRows (c : Coll) : Nat := if c.kind = 1 then c.chunkRows else c.rows

/-- A rank `n` behind this one. -/
def behind (c : Coll) (n : Nat) : Nat := (c.rank + 2 * c.p - n % c.p) % c.p

/-- Whether step `t` is a reduce-scatter step, and its number within its phase. -/
def phaseOfStep (c : Coll) (t : Nat) : Bool × Nat :=
  let j := t % max 1 c.perPiece
  if c.kind = 2 then (false, j) else if j < c.p - 1 then (true, j) else (false, j - (c.p - 1))

end Coll

/-- The operand check of COLL (R291). A COLL on an ABORTED group ends with ABORTED. -/
def checkColl (s : State) (comp d : Nat) : OpCheck :=
  let gid := fld d 559 552
  let g := s.grpAt gid
  let c := collOf d g
  let src := trefAt d 256
  let dst := trefAt d 384
  { fails := [inval (decide (2 < c.kind)) 536, inval (decide (2 < c.op)) 544,
              inval (g.state == GrpState.free || g.state == GrpState.draining || g.comp != comp) 552,
              (g.state == GrpState.aborted, 8, 0), inval (decide (1 < c.wfmt)) 560, numCheck (fld d 575 568) 568,
              inval (c.rows % c.p != 0) 576] ++ dimChecks c.rows 576 c.cols 608
      ++ trefChecks src c.srcRows c.cols false ++ trefChecks dst c.dstRows c.cols true ++ [inval (isIntFmt dst.fmt) 440]
    uses := [src.use c.srcRows c.cols false .local_, dst.use c.dstRows c.cols true .local_]
    total := 2 * c.steps + 1
    outs := [(dst, c.dstRows, c.cols)] }

/-- Sum of two partial results, within the share of R294's bound that one combination may use (DESIGN CHOICE, log entry 33). -/
def collAdd (n : Nat) : Val → Val → Val
  | .num a _, .num b _ =>
    within n 1 (a + b) (rabs a + rabs b) (a + b) (pow2 (-23) * (rabs a + rabs b))
  | x, y => fadd n x y

/-- Combine two runs of packed elements by OP (R292, R294). -/
def collCombine (c : Coll) (n bytes a b : Nat) : Nat :=
  let k := bytes / c.elem
  let xs := unpackRow c.wfmt k a
  let ys := unpackRow c.wfmt k b
  let vs := (xs.zip ys).mapIdx (fun i x => match c.op with
    | 0 => collAdd (n + i) x.1 x.2
    | 1 => fmax x.1 x.2
    | _ => fmin x.1 x.2)
  (packRow c.wfmt 0 false n vs).bits

namespace Work

/-- What a COLL keeps: the step number, the piece in hand and its taint, each chunk's bytes and its taint. -/
def collStep : Nat := 1
def collBuf : Nat := 2
def collTaint : Nat := 3
def collChunk (c : Nat) : Nat := 16 + c
def collBad (c : Nat) : Nat := 4096 + c

/-- Rows of SRC as they travel: packed in the slots' format (R292). -/
def wireRows (w : Work) (c : Coll) (first n : Nat) : Nat × Bool × Work :=
  (List.range n).foldl (fun (acc : Nat × Bool × Work) i =>
    let ((vs, pz), w) := acc.2.2.readVec (trefAt w.cmd.desc 256) c.srcRows c.cols (first + i)
    (acc.1 + (packRow c.wfmt 0 false 0 vs).bits <<< (8 * c.elem * c.cols * i), acc.2.1 || anyTaint pz, w)) (0, false, w)

/-- Bytes of piece `k`. -/
def pieceLen (c : Coll) (k : Nat) : Nat := min c.slot (c.chunkBytes - k * c.slot)

/-- Piece `k` of this member's own data of chunk `x`. -/
def ownPiece (w : Work) (c : Coll) (x k : Nat) : Nat × Bool × Work :=
  let off := k * c.slot
  let n := pieceLen c k
  let rb := c.cols * c.elem
  let r0 := off / rb
  let base := if c.kind = 2 then 0 else x * c.chunkRows
  let (v, bad, w) := w.wireRows c (base + r0) ((off + n - 1) / rb - r0 + 1)
  (fld v (8 * (off - r0 * rb + n) - 1) (8 * (off - r0 * rb)), bad, w)

/-- Keep piece `k` of chunk `x`. -/
def keepPiece (w : Work) (c : Coll) (x k v : Nat) (bad : Bool) : Work :=
  (w.keep (collChunk x) (w.kept (collChunk x) + v <<< (8 * c.slot * k))).keep (collBad x) (max (w.kept (collBad x)) (b2n bad))

/-- End a COLL with a status. -/
def stop (w : Work) (st : Nat) : Work := { w.fail st with halt := true }

/-- Send one write, or one flag, of a COLL to a member's window. -/
def sendTo (w : Work) (port addr n v : Nat) (pz : Bool) (flag : Option (Nat × Nat × Nat)) : Work :=
  match w.s.issue { head := 0, host := false, port := port, write := true, addr := addr, len := n, data := v, poison := pz, flag := flag
                    purpose := .coll w.cid, cid := some w.cid, issued := 0, limit := 0 } with
  | (none, s) => { w with s := s }.stop 11
  | (some _, s) => { w with s := s.modCmd w.cid (fun c => { c with writesOut := c.writesOut + 1 }) }

/-- Wait until a line of the own window counts at least `g` (R290, R292). -/
def waitLineAt (w : Work) (a g : Nat) : Work :=
  let (v, w1) := ({ w with pz := false, bad := 0 }).rdLoc a 8 false true
  if w1.blocked then w.block
  else if w1.pz then { w1 with bad := w.bad, badAt := w.badAt }.stop w1.bad
  else if v < g then w.block
  else { w1 with pz := w.pz, bad := w.bad, badAt := w.badAt }

/-- Send half of step `t` (R292). -/
def collSend (w : Work) (c : Coll) (t : Nat) : Work :=
  let g := w.s.grpAt c.gid
  let k := t / max 1 c.perPiece
  let (rs, s) := c.phaseOfStep t
  let w := if g.base + 2 ≤ g.gnext then w.waitLineAt (c.rx + 64) (g.gnext - 2) else w
  if w.blocked || w.halt then w
  else
    let (v, bad, w) :=
      if s = 0 && rs then w.ownPiece c (c.behind 1) k
      else if s = 0 && c.kind = 2 then w.ownPiece c c.rank k
      else (w.kept collBuf, w.kept collTaint == 1, w)
    if w.blocked then w
    else
      let e := nth g.members ((c.rank + 1) % c.p) 0
      let n := pieceLen c k
      let at_ := memBase e + 4096 + g.gnext % 2 * c.slot
      let w := (pagePieces 0 at_ n).foldl (fun w q =>
        if w.halt then w else w.sendTo (memPort e) q.1 q.2 (fld v (8 * (q.1 - at_ + q.2) - 1) (8 * (q.1 - at_))) bad none) w
      let w := if w.halt then w else w.sendTo (memPort e) (memBase e) 64 g.gnext false (some (0, 0, 3))
      { w with s := w.s.modGrp c.gid (fun x => { x with gnext := (g.gnext + 1) % 2 ^ 64, last := g.gnext }) }.keep collStep g.gnext

/-- Write a run of elements of one row of a plain DST, converted from the slots' format. -/
def putElems (w : Work) (c : Coll) (row col n v : Nat) (bad : Bool) : Work :=
  let dst := trefAt w.cmd.desc 384
  let (p, w) := w.pack dst.fmt (fld w.cmd.desc 575 568) (unpackRow c.wfmt n v)
  let o := rowBytes dst.fmt col
  w.writeRun dst c.cols row o (rowBytes dst.fmt n) p bad

/-- Write to a plain DST what a received all-gather piece completes: elements `lo` up to `hi` of chunk `x` (R292). -/
def putRun (w : Work) (c : Coll) (x lo hi : Nat) (bad : Bool) : Work :=
  (List.range c.chunkRows).foldl (fun w r =>
    let a := max lo (r * c.cols)
    let b := min hi ((r + 1) * c.cols)
    if b ≤ a then w
    else w.putElems c (x * c.chunkRows + r) (a - r * c.cols) (b - a) (fld (w.kept (collChunk x)) (8 * c.elem * b - 1) (8 * c.elem * a)) bad) w

/-- Write a received all-gather piece to DST: the elements it completes of a plain DST, MX blocks as a whole. The tiles of an Ashlar DST
are written once all of them can be (R220, R292). -/
def putPiece (w : Work) (c : Coll) (x k : Nat) (bad : Bool) : Work :=
  let dst := trefAt w.cmd.desc 384
  let u := unitElems dst.fmt
  if dst.enc = 1 then w
  else w.putRun c x (k * c.slot / c.elem / u * u) ((k * c.slot + pieceLen c k) / c.elem / u * u) bad

/-- Receive half of step `t` (R292). -/
def collRecv (w : Work) (c : Coll) (t : Nat) : Work :=
  let g := w.s.grpAt c.gid
  let k := t / max 1 c.perPiece
  let n := pieceLen c k
  let (rs, s) := c.phaseOfStep t
  let gn := w.kept collStep
  let w := w.waitLineAt c.rx gn
  if w.blocked || w.halt then w
  else
    let pz0 := w.pz
    let (v, w) := ({ w with pz := false }).rdLoc (c.rx + 4096 + gn % 2 * c.slot) n false true
    let bad := w.pz
    let w := { w with pz := pz0 || bad }
    let (out, bad, w) :=
      if rs then
        let (own, ob, w) := w.ownPiece c (c.behind (s + 2)) k
        let (dr, w) := w.draws n
        (collCombine c dr n v own, bad || ob, w)
      else (v, bad, w)
    if w.blocked then w
    else
      let w := (w.keep collBuf out).keep collTaint (b2n bad)
      let w := if rs then (if s + 2 = c.p then w.keepPiece c c.rank k out bad else w) else (w.keepPiece c (c.behind (s + 1)) k out bad).putPiece c (c.behind (s + 1)) k bad
      let e := nth g.members (c.behind 1) 0
      { w.sendTo (memPort e) (memBase e + 64) 64 gn false (some (0, 0, 3)) with r0 := 1 }

/-- The rows of DST: those of the chunks received into a plain DST stand there already. -/
def rowsDue (c : Coll) (plain : Bool) (x : Nat) (rows : List (List Val × List Bool)) : List (Option (List Val × List Bool)) :=
  rows.map (fun r => if plain && x != c.rank then none else some r)

/-- Write what DST lacks once every step is taken: this member's own chunk, and every tile of an Ashlar DST. -/
def collFinish (w : Work) (c : Coll) : Work :=
  let d := w.cmd.desc
  let dst := trefAt d 384
  let nc := fld d 575 568
  let rb := 8 * c.elem * c.cols
  let (rows, w) :=
    if c.p = 1 then
      (let (xs, w) := overRows w (List.range c.dstRows) (fun w r => w.readVec (trefAt d 256) c.srcRows c.cols r)
      (xs.map some, w))
    else
      let (own, ob, w) := if c.kind = 2 then w.wireRows c 0 c.chunkRows else (w.kept (collChunk c.rank), w.kept (collBad c.rank) == 1, w)
      let chunks := if c.kind = 1 then [c.rank] else List.range c.p
      ((chunks.map (fun x =>
        let (v, bad) := if x = c.rank then (own, ob) else (w.kept (collChunk x), w.kept (collBad x) == 1)
        rowsDue c (dst.enc = 0) x ((List.range c.chunkRows).map (fun r =>
          (unpackRow c.wfmt c.cols (fld v (rb * r + rb - 1) (rb * r)), if bad then List.replicate c.cols true else []))))).flatten, w)
  if w.blocked then w
  else w.writeActive dst c.dstRows c.cols nc 0 rows

end Work

/-- One half step of COLL, or its last item; one without rows or columns has only to wait its turn (R293). -/
def itemColl (w : Work) (i : Nat) : Work :=
  let g := w.s.grpAt (fld w.cmd.desc 559 552)
  let c := collOf w.cmd.desc g
  if !(g.state == GrpState.active) then w.stop 8
  else if g.queue.head? != some w.cid then w.block
  else if c.rows = 0 || c.cols = 0 then w
  else
    let w := if i = 2 * c.steps then w.collFinish c else if i % 2 = 0 then w.collSend c (i / 2) else w.collRecv c (i / 2)
    if w.blocked then w else { w with s := w.s.modCmd w.cid (fun x => { x with waitFrom := w.s.now }) }

/-- Whether the next half step of a COLL is in a wait of R292: for its successor's ACK or its predecessor's DATA line. -/
def State.collWaits (s : State) (cid : Nat) (c : Cmd) : Bool :=
  let g := s.grpAt (fld c.desc 559 552)
  let x := collOf c.desc g
  let line (o n : Nat) : Bool := decide (fld (s.rawLine (x.rx / 64 + o)).toNat 63 0 < n)
  g.queue.head? == some cid && decide (c.pos < 2 * x.steps) &&
    (if c.pos % 2 = 0 then decide (g.base + 2 ≤ g.gnext) && line 1 (g.gnext - 2) else line 0 (c.scratch.getD Work.collStep 0))

/-- COLL. -/
def execColl (cid : Nat) (run : RunEnv) (s : State) : Outcome State Fault Refusal :=
  .next (s.runItems cid run 0x40 (fun u => isMover u || isEngine u) itemColl)

end Sys2Proof.Machine
end

