-- ==== Sys2Proof/Machine/Gather.lean ====
section
/-! DEFINITION. Embedding tables and their versions, the row cache, GATHER_POOL, SCATTER_ADD, TABLE_PUBLISH and TABLE_RETIRE
(R302 to R322). -/

namespace Sys2Proof.Machine

open Host (Outcome)

/-! ### Tables and versions (R302, R305, R306) -/

namespace State

/-- A version of a table. -/
def tblVer (s : State) (t v : Nat) : Option TblVer := match s.eng.tbls.get? t with
  | some x => x.vers.find? (fun y => y.ver == v)
  | none => none

/-- Change a version of a table. -/
def modVer (s : State) (t v : Nat) (f : TblVer → TblVer) : State :=
  { s with eng := { s.eng with tbls := s.eng.tbls.modify t (fun (x : Tbl) =>
      { x with vers := x.vers.map (fun y => if y.ver = v then f y else y) }) } }

/-- The version a command that names a table is bound to: its table and itself. -/
def boundVer (s : State) (c : Cmd) : Option (Nat × TblVer) :=
  if c.bound = 0 || (tableNamed c.desc).isNone then none
  else (s.tblVer ((c.bound - 1) / 2 ^ 32) ((c.bound - 1) % 2 ^ 32)).map (fun v => ((c.bound - 1) / 2 ^ 32, v))

/-- A command's completion record lands: its binding no longer counts (R305). -/
def unbindTable (s : State) (c : Cmd) : State :=
  if c.bound = 0 || (tableNamed c.desc).isNone then s
  else s.modVer ((c.bound - 1) / 2 ^ 32) ((c.bound - 1) % 2 ^ 32) (fun v => { v with bound := v.bound - 1 })

/-- Versions whose rows lie in an extent become dead when it enters Draining (R306). -/
def killVersions (s : State) (ext gen : Nat) : State :=
  { s with eng := { s.eng with tbls := s.eng.tbls.mapV (fun _ (x : Tbl) =>
      { x with vers := x.vers.map (fun v => if v.ext = ext && v.gen = gen then { v with dead := true } else v) }) } }

/-- Release a version: its row-cache lines are invalidated, and the ID becomes FREE with its last version. Answers the
lines invalidated (R306). -/
def releaseVer (s : State) (t v : Nat) : Nat × State :=
  let mine (r : RowLine) : Bool := r.tbl == t && r.ver == v
  let n := (s.eng.rowCache.vals.filter mine).length
  let tbls := s.eng.tbls.modify t (fun (x : Tbl) => { x with vers := x.vers.filter (fun y => y.ver != v) })
  let tbls := if (tbls.get? t).any (fun x => x.vers.isEmpty) then tbls.erase t else tbls
  (n, { s with eng := { s.eng with tbls := tbls, rowCache := Tab.filter s.eng.rowCache (fun _ r => !(mine r)) } })

/-- A retiring version with no command bound to it, and no TABLE_RETIRE left that would release it, is released: the TABLE_RETIRE was
itself stopped (R306). -/
def reapVersions (s : State) : State :=
  s.eng.tbls.keys.foldl (fun s t => ((s.eng.tbls.getD t { comp := 0 }).vers.filter (fun v => v.state == 3 && v.bound == 0)).foldl (fun s v =>
    if s.cmds.any (fun _ (c : Cmd) => c.phase == .running && hdrOpcode c.desc == 0x2B && fld c.desc 303 288 == t && fld c.desc 287 256 == v.ver)
    then s else (s.releaseVer t v.ver).2) s) s

/-- Invalidate row-cache lines. -/
def dropRows (s : State) (p : RowLine → Bool) : State :=
  { s with eng := { s.eng with rowCache := Tab.filter s.eng.rowCache (fun _ r => !(p r)) } }

/-! ### The row cache (R319 to R321) -/

/-- The set of a line within its Keystone (R319). -/
def rowSet (ln : Nat) : Nat := (ln ^^^ (ln >>> 17) ^^^ (ln >>> 34)) % 49152

/-- The sketch counters of a line at its home Keystone (R320). -/
def sketchKeys (ln : Nat) : List Nat :=
  (List.range 4).map (fun i => lineHome ln * 2 ^ 21 + i * 2 ^ 19 + ((ln ^^^ (ln >>> (11 + 6 * i)) ^^^ (0x29C31 * (i + 1))) % 2 ^ 19))

/-- Row-cache lines a composition holds. -/
def rowsHeld (s : State) (c : Nat) : Nat := (s.eng.rowCache.vals.filter (fun r => r.comp == c)).length

/-- Row-cache share of a composition. -/
def rowShare (s : State) (c : Nat) : Nat := nth (s.comps.getD c {}).quota 2 0

/-- The way with the lowest counter among the ways given; ties go to the lower way. -/
def lowestWay (ws : List (Nat × RowLine)) : Option (Nat × RowLine) :=
  ws.foldl (fun (b : Option (Nat × RowLine)) x => match b with
    | some y => if x.2.freq < y.2.freq then some x else b
    | none => some x) none

/-- Admit a line that missed, with frequency `f` (R321). -/
def rowAdmit (s : State) (comp t v ln f : Nat) : State :=
  let base := 16 * (lineHome ln * 49152 + rowSet ln)
  let ways := (List.range 16).filterMap (fun i => (s.eng.rowCache.get? (base + i)).map (fun r => (base + i, r)))
  let put_ (k : Nat) : State :=
    { s with eng := { s.eng with rowCache := s.eng.rowCache.set k { dpa := ln, tbl := t, ver := v, comp := comp, freq := f } } }
  if s.rowShare comp = 0 then s
  else if s.rowShare comp ≤ s.rowsHeld comp then
    match lowestWay (ways.filter (fun x => x.2.comp == comp)) with
    | some x => if x.2.freq ≤ f then put_ x.1 else s
    | none => s
  else match (List.range 16).find? (fun i => !(s.eng.rowCache.has (base + i))) with
    | some i => put_ (base + i)
    | none => match lowestWay (ways.filter (fun x => decide (s.rowShare x.2.comp < s.rowsHeld x.2.comp))) with
      | some x => put_ x.1
      | none => match lowestWay ways with
        | some x => if x.2.freq ≤ f then put_ x.1 else s
        | none => s

/-- Halve every line counter and every sketch counter (R320). -/
def ageRows (s : State) : State :=
  { s with eng := { s.eng with rowCache := s.eng.rowCache.mapV (fun _ (r : RowLine) => { r with freq := r.freq / 2 })
                               sketch := Tab.filter (s.eng.sketch.mapV (fun _ n => n / 2)) (fun _ n => n != 0) } }

end State

namespace Work

/-- Read one line of a table row for GATHER_POOL, through the row cache (R304, R319 to R321). A line on a failed channel, whose writes
land elsewhere, is read as any other read of it (R140). -/
def rdRowNow (w : Work) (t v ln : Nat) : Line × Work :=
  let ks := State.sketchKeys ln
  let sk := ks.foldl (fun (m : Tab Nat) k => m.set k (min 15 (m.getD k 0 + 1))) w.s.eng.sketch
  let f := ks.foldl (fun m k => min m (sk.getD k 0)) 15
  let w := { w with s := { w.s with eng := { w.s.eng with sketch := sk } } }
  if !(bit (w.s.cfg offRowc) 0) || w.s.chanFailed (lineChan ln) then w.rdLine ln false true
  else
    let base := 16 * (lineHome ln * 49152 + State.rowSet ln)
    match (List.range 16).find? (fun i => (w.s.eng.rowCache.get? (base + i)).any (fun r => r.dpa == ln && r.tbl == t && r.ver == v)) with
    | some i =>
      let rc := w.s.eng.rowCache.modify (base + i) (fun (r : RowLine) => { r with freq := min 15 (r.freq + 1) })
      let w := { w with s := { w.s with eng := { w.s.eng with rowCache := rc } }.charge (cmdCharge w.cid w.comp) 1 }
      (w.s.rawLine ln, if w.s.poison.has ln || w.s.lost.has ln then w.taint 6 else w)
    | none =>
      let (d, w) := w.rdLine ln false true
      (d, if w.blocked then w else { w with s := w.s.rowAdmit w.comp t v ln f })

/-- What an item that may pause has read under a key stays read until it ends (R322). -/
def remember (w : Work) (k : Nat) (x : Fetched) : Work :=
  if w.cut.isNone then w else { w with s := w.s.modCmd w.cid (fun c => { c with prefetch := c.prefetch.set k x }) }

/-- Read something once for an item: what it read under the key `k` before it paused, or now, with the failure of this one read. The
mark of poison of the answer is that of the read alone. -/
def readOnce (w : Work) (k : Nat) (read : Work → Nat × Work) : Nat × Work :=
  match w.cmd.prefetch.get? k with
  | some x => (x.data, { (if x.status = 0 then w else w.failAt x.time x.status) with pz := x.status == 5 || x.status == 6 })
  | none =>
    let r := read { w with pz := false, bad := 0, badAt := 0 }
    let w' := { r.2 with bad := w.bad, badAt := w.badAt }
    let w' := if r.2.bad = 0 then w' else w'.failAt r.2.badAt r.2.bad
    (r.1, if r.2.blocked then w' else w'.remember k { status := r.2.bad, data := r.1, time := r.2.badAt })

/-- Where an item that may pause keeps the row lines of window `n` of a bag, and the bytes it read at an address. -/
def keyRow (bag n ln : Nat) : Nat := 2 ^ 80 * (1 + bag * 2 ^ 21 + n) + ln
def keyByte (va : Nat) : Nat := 2 ^ 140 + va

/-- Read a row line for one window of a bag, unless the run has come to its cut (R315, R322). -/
def rdRowLine (w : Work) (t v k ln : Nat) : Nat × Work :=
  if w.blocked then (0, w)
  else if w.cut = some 0 && !(w.cmd.prefetch.has k) then (0, { w with blocked := true, paused := true })
  else
    let w := if w.cmd.prefetch.has k then w else { w with cut := w.cut.map (· - 1) }
    w.readOnce k (fun w => let x := w.rdRowNow t v ln; (x.1.toNat, x.2))

/-- Read the values of one table row for window `n` of a bag, with the elements that are tainted. -/
def rdTableRow (w : Work) (t : Nat) (v : TblVer) (bag n i : Nat) : (List Val × List Bool) × Work :=
  let a := v.base + i * v.stride
  let len := rowBytes v.fmt v.width
  let keep := w.pz
  let ((x, bad), w) := (pieces a len).foldl (fun (acc : (Nat × List (Nat × Nat)) × Work) p =>
    let (d, w) := acc.2.rdRowLine t v.ver (keyRow bag n (p.1 / 64)) (p.1 / 64)
    let part := fld d (8 * p.2 - 1) 0
    ((acc.1.1 + part <<< (8 * (p.1 - a)), if w.pz then acc.1.2 ++ [(p.1 - a, p.2)] else acc.1.2), { w with pz := false })) ((0, []), { w with pz := false })
  (((unpackRow v.fmt v.width x).map vecVal, taintElems v.fmt v.width bad), { w with pz := keep || !bad.isEmpty })

/-- One entry of an array of `k`-byte entries, and whether it is tainted. -/
def entry (w : Work) (va k i : Nat) : Nat × Bool × Work :=
  if w.paused then (0, false, w)
  else
    let (x, w1) := w.readOnce (keyByte (va + k * i)) (fun w => w.rd (va + k * i) k)
    (x, w1.pz, { w1 with pz := w.pz || w1.pz })

/-- Weight `i` of a command, by the flags of R311. -/
def weightAt (w : Work) (flags va i : Nat) : Val × Bool × Work :=
  if bit flags 1 then (.of 1, false, w)
  else if bit flags 2 then
    let (x, bad, w) := w.entry va 2 i
    (bf16.decode x, bad, w)
  else
    let (x, bad, w) := w.entry va 4 i
    (ofFp32 x, bad, w)

end Work

/-- Bytes of an index, and of a weight, by the flags of R311. -/
def idxBytes (flags : Nat) : Nat := if bit flags 0 then 8 else 4
def wtBytes (flags : Nat) : Nat := if bit flags 2 then 2 else 4

/-- Whether an index is valid (R313). -/
def idxValid (flags rows x : Nat) : Bool := decide (x < rows) && x != 2 ^ (8 * idxBytes flags) - 1

/-! ### GATHER_POOL (R311 to R315) -/

/-- The checks that a command's table is its composition's and bound (R302, R305). -/
def tableChecks (s : State) (c : Cmd) (comp table bitLo : Nat) : List (Bool × Nat × Nat) :=
  [inval (decide (4095 < table) || (s.eng.tbls.get? table).any (fun x => x.comp != comp) || (s.boundVer c).isNone) bitLo]

/-- The operand check of GATHER_POOL. -/
def checkGather (s : State) (c : Cmd) (comp : Nat) : OpCheck :=
  let d := c.desc
  let fl := fld d 319 312
  let bags := fld d 543 512
  let nidx := fld d 575 544
  let offs := fld d 375 320
  let out := trefAt d 640
  let width := ((s.boundVer c).map (·.2.width)).getD 0
  { fails := tableChecks s c comp (fld d 591 576) 576
      ++ [inval (fl / 16 != 0) 312, inval (fld d 311 256 % idxBytes fl != 0) 256, inval (offs % 4 != 0) 320, numCheck (fld d 383 376) 376,
          inval (!(bit fl 1) && fld d 439 384 % wtBytes fl != 0) 384, inval (bit fl 3 && fld d 503 448 % 4 != 0) 448,
          inval (decide (16777216 < bags)) 512, inval (offs == 0 && bags != nidx) 544]
      ++ trefChecks out bags width true ++ [inval (isIntFmt out.fmt) 696]
    uses := [{ va := fld d 311 256, n := nidx * idxBytes fl, wr := false, need := .pinned, off := 32 },
             { va := offs, n := if offs = 0 || nidx = 0 || bags = 0 then 0 else 4 * (bags + 1), wr := false, need := .pinned, off := 40 },
             { va := fld d 439 384, n := if bit fl 1 then 0 else nidx * wtBytes fl, wr := false, need := .pinned, off := 48 },
             { va := fld d 503 448, n := if bit fl 3 then 4 * bags else 0, wr := true, need := .pinned, off := 56 },
             out.use bags width true .pinned]
    total := if bags = 0 then 0 else bandsOf bags (out.band bags)
    outs := [(out, bags, width)] }

/-- What one bag comes to: its terms, each a combined weight and a row with its taint, the valid indices, the dropped ones, and whether
the bag itself is tainted. -/
structure Bag where
  terms : List (Val × List Val × List Bool) := []
  valid : Nat := 0
  dropped : Nat := 0
  all : Bool := false
  deriving Repr, Inhabited

/-- A later occurrence of an index in a window adds its weight to that of the first (R315). -/
def addWeight (n x : Nat) (wt : Val) : List (Nat × Val) → List (Nat × Val)
  | [] => [(x, wt)]
  | y :: l => if y.1 = x then (x, fadd n y.2 wt) :: l else y :: addWeight n x wt l

/-- One index position of a window; `acc` has the indices of the window so far, in the order of their first valid occurrences, with their
combined weights. -/
def bagStep (v : TblVer) (acc : (Bag × List (Nat × Val)) × Work) (pos : Nat) : (Bag × List (Nat × Val)) × Work :=
  let d := acc.2.cmd.desc
  let fl := fld d 319 312
  let ((b, xs), w) := acc
  let (x, ib, w) := w.entry (fld d 311 256) (idxBytes fl) pos
  if !(idxValid fl v.rows x) then (({ b with dropped := b.dropped + 1, all := b.all || ib }, xs), w)
  else
    let (wt, wb, w) := w.weightAt fl (fld d 439 384) pos
    let (n, w) := w.draws 1
    (({ b with valid := b.valid + 1, all := b.all || ib || wb }, addWeight n x wt xs), w)

/-- One window of a bag: its weights are combined, and each of its indices issues one row read (R315). -/
def bagWindow (t : Nat) (v : TblVer) (bag : Nat) (acc : Bag × Work) (win : List Nat × Nat) : Bag × Work :=
  let r := win.1.foldl (bagStep v) ((acc.1, []), acc.2)
  let x := overRows r.2 r.1.2.unzip.1 (fun w i => w.rdTableRow t v bag win.2 i)
  ({ r.1.1 with terms := r.1.1.terms ++ (r.1.2.zip x.1).map (fun y => (y.1.2, y.2.1, y.2.2)) }, x.2)

/-- One bag over index positions `a` to `b - 1`, in windows of 4,096 (R314, R315). -/
def runBag (w : Work) (t : Nat) (v : TblVer) (bag a b : Nat) : Bag × Work :=
  let ps := (List.range (b - a)).map (a + ·)
  (chunks 4096 ps.length ps).zipIdx.foldl (bagWindow t v bag) ({}, w)

/-- A list in an order that is drawn. -/
def shuffle {α : Type} (n : Nat) : Nat → List α → List α
  | 0, _ => []
  | _ + 1, [] => []
  | fuel + 1, x :: xs =>
    let i := Config.free n % (xs.length + 1)
    nth (x :: xs) i x :: shuffle (n + 1) fuel ((x :: xs).eraseIdx i)

/-- Add one weighted element to an FP32 sum; whether the product is rounded by itself the manual leaves open (R314). -/
def addTerm (n : Nat) (acc wt x : Val) : Val :=
  if Config.free n % 2 = 1 then ffma (n + 1) wt x acc else fadd (n + 1) acc (fmul wt x)

/-- The row of a bag: its terms added in FP32 in the order their rows arrive (R314). -/
def bagRow (n width : Nat) (terms : List (Val × List Val × List Bool)) : List Val × List Bool :=
  let ts := shuffle n terms.length terms
  let m := n + terms.length
  ((List.range width).map (fun j => ts.zipIdx.foldl (fun acc t => addTerm (m + 2 * (t.2 * width + j)) acc t.1.1 (nth t.1.2.1 j (.of 0))) (.of 0)),
    terms.foldl (fun pz t => orTaint width pz t.2.2) [])

/-- The row of one bag and its entry in CNT, each with its taint (R219, R312, R313). -/
def gatherBag (w : Work) (t : Nat) (v : TblVer) (bag : Nat) : (List Val × List Bool) × (Nat × Bool) × Work :=
  let d := w.cmd.desc
  let nidx := fld d 575 544
  let offs := fld d 375 320
  let zero : List Val := List.replicate v.width (.of 0)
  if nidx = 0 then ((zero, []), (0, false), w)
  else
    let (a, ab, w) := if offs = 0 then (bag, false, w) else w.entry offs 4 bag
    let (b, bb, w) := if offs = 0 then (bag + 1, false, w) else w.entry offs 4 (bag + 1)
    if b < a || nidx < b then ((zero, if ab || bb then List.replicate v.width true else []), (0xFFFF_FFFF, ab || bb), { w with part := true })
    else
      let (x, w) := runBag w t v bag a b
      let (n, w) := w.draws (x.terms.length * (1 + 2 * v.width))
      let (vs, pz) := bagRow n v.width x.terms
      let pz := if ab || bb || x.all then List.replicate v.width true else pz
      let w := { w with r1 := w.r1 + x.dropped, part := w.part || decide (0 < x.dropped) }
      ((vs, pz), (min x.dropped 0xFFFF_FFFE, ab || bb || x.all), w)

/-- Count dropped indices (R313, R401, R402). -/
def Work.countDropped (w : Work) (n : Nat) : Work :=
  if n = 0 then w else { w with s := (w.s.bump cDropIdx n).bumpCount w.comp pDropIdx n }

/-- One band of bags of GATHER_POOL. -/
def itemGather (w : Work) (i : Nat) : Work :=
  let d := w.cmd.desc
  let bags := fld d 543 512
  let out := trefAt d 640
  let nc := fld d 383 376
  match w.s.boundVer w.cmd with
  | none => { w.fail 2 with halt := true }
  | some (t, v) =>
    let rs := bandRows bags (out.band bags) i
    let (xs, w) := overRows w rs (fun w b =>
      let (row, cnt, w) := gatherBag w t v b
      ((row, cnt), w))
    if w.blocked then w
    else
      let w := (w.countDropped w.r1).writeActive out bags v.width nc (i * out.band bags) (xs.map (fun x => some x.1))
      let w := if bit d 315 then (rs.zip xs).foldl (fun w x => w.wr (fld d 503 448 + 4 * x.1) 4 x.2.2.1 x.2.2.2) w else w
      { w with r0 := w.r0 + rs.length }

/-! ### SCATTER_ADD (R317, R318) -/

/-- The operand check of SCATTER_ADD. -/
def checkScatter (s : State) (c : Cmd) (comp : Nat) : OpCheck :=
  let d := c.desc
  let fl := fld d 319 312
  let nidx := fld d 415 384
  let src := trefAt d 512
  let v := (s.boundVer c).map (·.2)
  let width := (v.map (·.width)).getD 0
  { fails := tableChecks s c comp (fld d 431 416) 416
      ++ [unsup (v.any (fun x => isMx x.fmt)) 416, inval (fl / 8 != 0) 312, inval (fld d 311 256 % idxBytes fl != 0) 256,
          inval (!(bit fl 1) && fld d 375 320 % wtBytes fl != 0) 320, numCheck (fld d 383 376) 376]
      ++ trefChecks src nidx width false
    uses := [{ va := fld d 311 256, n := nidx * idxBytes fl, wr := false, need := .pinned, off := 32 },
             { va := fld d 375 320, n := if bit fl 1 then 0 else nidx * wtBytes fl, wr := false, need := .pinned, off := 40 },
             src.use nidx width false .pinned]
    total := nidx * max 1 (linesTouched 0 (rowBytes ((v.map (·.fmt)).getD 0) width)) }

/-- One line of a table row, updated by one read-modify-write at its home Keystone (R318). -/
def scatterLine (fmt nc : Nat) (wt : Val) (srcs : List Val) (pz : List Bool) (a : Nat) (w : Work) (p : Nat × Nat) : Work :=
  let ln := p.1 / 64
  let keep := w.pz
  let (old, w) := ({ w with pz := false }).rdLine ln false true
  let e := elemBits fmt / 8
  let first := (p.1 - a) / e
  let k := p.2 / e
  let olds := (unpackRow fmt k (fld old.toNat (8 * p.2 - 1) 0)).map vecVal
  let (n, w) := w.draws k
  let vs := olds.mapIdx (fun j x => ffma (n + j) wt (nth srcs (first + j) (.of 0)) x)
  let (q, w) := w.pack fmt nc vs
  let bad := w.pz || taintBytes fmt pz (p.1 - a) p.2
  { w with pz := keep || w.pz }.wrLine ln (BitVec.ofNat 512 q) (beRange 0 p.2) (p.2 == 64) bad

/-- Where a SCATTER_ADD keeps what its updates need from one line to the next: the lines of update `u` done, its index, its weight as
read, and its SRC row as format, packed elements and taint; and a position of the order of its line updates. -/
def keyUpd (u k : Nat) : Nat := 2 ^ 100 + 8 * u + k
def keyOrder (i : Nat) : Nat := 2 ^ 140 + i

/-- The line update that comes next: of those left, the one `pick` names (R318). -/
def Work.nextUpdate (w : Work) (k total : Nat) : Nat × Work :=
  let r := k + w.pick % (total - k)
  let at_ (i : Nat) : Nat := w.cmd.scratch.getD (keyOrder i) i
  (at_ r, w.keep (keyOrder r) (at_ k))

/-- The taint of a row as bits, and back. -/
def taintBits (pz : List Bool) : Nat := pz.foldr (fun b n => 2 * n + b2n b) 0
def bitsTaint (cols n : Nat) : List Bool := if n = 0 then [] else (List.range cols).map (fun j => bit n j)

/-- Read what one update needs, with its first line: its index, and, where that is valid, its weight and its SRC row. -/
def Work.openUpdate (w : Work) (v : TblVer) (u : Nat) : Work :=
  let d := w.cmd.desc
  let fl := fld d 319 312
  if w.cmd.scratch.has (keyUpd u 0) then w
  else
    let (x, ib, w) := w.entry (fld d 311 256) (idxBytes fl) u
    let w := (w.keep (keyUpd u 0) 0).keep (keyUpd u 1) x
    if !(idxValid fl v.rows x) then { w with r1 := 1, part := true }.countDropped 1
    else
      let (wt, wb, w) := if bit fl 1 then (0, false, w) else w.entry (fld d 375 320) (wtBytes fl) u
      let (row, w) := w.readRow (trefAt d 512) (fld d 415 384) v.width u
      let pz := if ib || wb then 2 ^ v.width - 1 else taintBits row.pz
      (((w.keep (keyUpd u 2) wt).keep (keyUpd u 3) row.fmt).keep (keyUpd u 4) row.packed).keep (keyUpd u 5) pz

/-- The weight of an update, by the flags of R317. -/
def weightOf (fl x : Nat) : Val := if bit fl 1 then .of 1 else if bit fl 2 then bf16.decode x else ofFp32 x

/-- Line `j` of update `u` of SCATTER_ADD; the update counts as applied with the last of its `n` lines (R310, R318). -/
def Work.updateLine (w : Work) (v : TblVer) (u j n : Nat) : Work :=
  let d := w.cmd.desc
  let fl := fld d 319 312
  if !(idxValid fl v.rows (w.kept (keyUpd u 1))) then w
  else
    let a := v.base + w.kept (keyUpd u 1) * v.stride
    let vs := (unpackRow (w.kept (keyUpd u 3)) v.width (w.kept (keyUpd u 4))).map vecVal
    let w := (((Work.pieces a (rowBytes v.fmt v.width)).drop j).take 1).foldl
      (scatterLine v.fmt (fld d 383 376) (weightOf fl (w.kept (keyUpd u 2))) vs (bitsTaint v.width (w.kept (keyUpd u 5))) a) w
    let done := w.kept (keyUpd u 0) + 1
    if done < n then w.keep (keyUpd u 0) done
    else { w with r0 := 1, s := w.s.modCmd w.cid (fun c => { c with scratch := Tab.filter c.scratch (fun k _ => !(keyUpd u 0 ≤ k && k ≤ keyUpd u 5)) }) }

/-- One line update of SCATTER_ADD (R318). -/
def itemScatter (w : Work) (k : Nat) : Work :=
  match w.s.boundVer w.cmd with
  | none => { w.fail 2 with halt := true }
  | some (_, v) =>
    let n := max 1 (linesTouched 0 (rowBytes v.fmt v.width))
    let (x, w) := w.nextUpdate k w.cmd.total
    let w := w.openUpdate v (x / n)
    if w.blocked || w.halt then w else w.updateLine v (x / n) (x % n) n

/-! ### TABLE_PUBLISH and TABLE_RETIRE (R303, R306 to R308) -/

/-- The operand check of TABLE_PUBLISH at step 7 (R302, R307). -/
def checkPublish (s : State) (comp d : Nat) : OpCheck :=
  let t := fld d 335 320
  { fails := [inval (fld d 311 256 % 64 != 0) 256,
              inval (decide (4095 < t) || (s.eng.tbls.get? t).any (fun x => x.comp != comp)) 320]
    uses := [{ va := fld d 311 256, n := 64, wr := false, need := .pinned, off := 32 }]
    total := 1 }

/-- The first field of a table descriptor at fault, as RESULT0 names it (R307). -/
def descFault (s : State) (comp t v : Nat) : Option Nat :=
  let base := fld v 42 0
  let rows := fld v 104 64
  let width := fld v 143 128
  let fmt := fld v 147 144
  let stride := fld v 191 160
  let rb := rowBytes fmt width
  let held := ((s.eng.tbls.get? t).map (·.vers)).getD []
  let cs : List (Bool × Nat) :=
    [ (decide (4095 < t) || (s.eng.tbls.get? t).any (fun x => x.comp != comp), 40), (decide (8 < fmt), 64 + 18),
      (decide (16384 < width) || (isMx fmt && width % 32 != 0), 64 + 16), (decide (2 ^ 40 < rows), 64 + 8),
      (base % 64 != 0, 64), (stride % 64 != 0 || (decide (1 < rows) && decide (stride < rb)), 64 + 20),
      (rows != 0 && width != 0 && !(s.inOwnSoft comp base ((rows - 1) * stride + rb)), 64),
      (held.any (fun y => y.ver == fld v 223 192), 64 + 24), (decide (4 ≤ held.length), 40) ]
  (cs.find? (·.1)).map (·.2)

/-- The version a descriptor describes. -/
def verOf (s : State) (v : Nat) : TblVer :=
  let x := if fld v 104 64 ≠ 0 && fld v 143 128 ≠ 0 then s.extAt (lineOf (fld v 42 0)) else none
  { ver := fld v 223 192, state := 1, base := fld v 42 0, rows := fld v 104 64, width := fld v 143 128, stride := fld v 191 160
    fmt := fld v 147 144, ext := (x.map (·.1)).getD 65536, gen := (x.map (·.2.gen)).getD 0 }

/-- TABLE_PUBLISH at its owning Keystone. -/
def itemPublish (w : Work) (_ : Nat) : Work :=
  let d := w.cmd.desc
  let t := fld d 335 320
  let (v, w) := w.rd (fld d 311 256) 64
  if w.blocked then w
  else if w.bad ≠ 0 then { w with halt := true }
  else match descFault w.s w.comp t v with
    | some off => { w.fail 2 with r0 := off, halt := true }
    | none =>
      let old : Tbl := w.s.eng.tbls.getD t { comp := w.comp }
      let vers := old.vers.map (fun y => if y.state = 1 then { y with state := 2 } else y) ++ [verOf w.s v]
      let s := { w.s with eng := { w.s.eng with tbls := w.s.eng.tbls.set t { old with comp := w.comp, vers := vers } } }
      { w with s := s, r0 := fld v 223 192, r1 := vers.length }

/-- The operand check of TABLE_RETIRE at step 7 (R308). -/
def checkRetire (s : State) (comp d : Nat) : OpCheck :=
  let t := fld d 303 288
  let drop := bit d 304
  let v := s.tblVer t (fld d 287 256)
  { fails := [inval (match v with
                | none => true
                | some x => x.state == 3 || (x.state == 1 && !drop) || (x.state != 1 && drop)) 256,
              inval (decide (4095 < t) || !((s.eng.tbls.get? t).any (fun x => x.comp == comp))) 288, inval (fld d 311 305 != 0) 304]
    total := 1 }

/-- TABLE_RETIRE is dispatched: the version retires, and RESULT0 counts the commands bound to it (R306, R310). -/
def State.startRetireTable (s : State) (cid : Nat) : State :=
  match s.cmds.get? cid with
  | none => s
  | some c =>
    let t := fld c.desc 303 288
    let v := fld c.desc 287 256
    let n := ((s.tblVer t v).map (·.bound)).getD 0
    (s.modVer t v (fun x => { x with state := 3 })).modCmd cid (fun c => { c with r0 := n, waitFrom := s.now })

/-- TABLE_RETIRE ends when no command is bound to its version (R306). -/
def itemRetire (w : Work) (_ : Nat) : Work :=
  let t := fld w.cmd.desc 303 288
  let v := fld w.cmd.desc 287 256
  if (w.s.tblVer t v).any (fun x => decide (0 < x.bound)) then w.block
  else
    let (n, s) := w.s.releaseVer t v
    { w with s := s, r1 := n }

/-- GATHER_POOL. -/
def execGatherPool (cid : Nat) (run : RunEnv) (s : State) : Outcome State Fault Refusal := .next (s.runItems cid run 0x28 isGather itemGather)

/-- SCATTER_ADD. -/
def execScatterAdd (cid : Nat) (run : RunEnv) (s : State) : Outcome State Fault Refusal := .next (s.runItems cid run 0x29 isGather itemScatter)

/-- TABLE_PUBLISH. -/
def execTablePublish (cid : Nat) (run : RunEnv) (s : State) : Outcome State Fault Refusal :=
  .next (s.runItems cid run 0x2A isKeystone itemPublish)

/-- TABLE_RETIRE. -/
def execTableRetire (cid : Nat) (run : RunEnv) (s : State) : Outcome State Fault Refusal :=
  .next (s.runItems cid run 0x2B isKeystone itemRetire)

end Sys2Proof.Machine
end

