-- ==== Sys2Proof/Machine/Index.lean ====
section
/-! DEFINITION. Search indexes: their windows and commits, node records, allocation, side list, epochs, distances, the walk
and the edits of edge lists (R323 to R332, R336 to R346, R350). -/

namespace Sys2Proof.Machine

open Host (Outcome)

/-! ### The index window (R324) -/

namespace Idx

def word (x : Idx) (off : Nat) : Nat := (x.words.getD off 0).toNat
def nodes (x : Idx) : Nat := fld (x.word offIdxGeom) 63 32
def dim (x : Idx) : Nat := fld (x.word offIdxGeom) 28 16
def subs (x : Idx) : Nat := fld (x.word offIdxGeom) 15 7
def rdeg (x : Idx) : Nat := fld (x.word offIdxGeom) 6 0
def vfmt (x : Idx) : Nat := fld (x.word offIdxAttr) 55 52
def classL (x : Idx) : Bool := bit (x.word offIdxAttr) 51
def metric (x : Idx) : Nat := fld (x.word offIdxAttr) 50 49
def nbase (x : Idx) : Nat := fld (x.word offIdxMem) 42 0
def cbase (x : Idx) : Nat := fld (x.word (offIdxMem + 8)) 42 0
def sbase (x : Idx) : Nat := fld (x.word (offIdxMem + 16)) 42 0

/-- Lines of code, of edges and of vector in a record, and bytes of a record (R326). -/
def codeLines (x : Idx) : Nat := cdiv x.subs 64
def edgeLines (x : Idx) : Nat := cdiv x.rdeg 12
def vecBytes (x : Idx) : Nat := rowBytes x.vfmt x.dim
def stride (x : Idx) : Nat := 64 * (1 + x.codeLines + x.edgeLines + cdiv x.vecBytes 64)

/-- First line of slot `i` (R326). -/
def slotLine (x : Idx) (i : Nat) : Nat := (x.nbase + i * x.stride) / 64

/-- Address of side-list entry `i`, counted since CREATE (R345). -/
def sideAddr (x : Idx) (i : Nat) : Nat := x.sbase + 16 * (i % 1048576)

/-- Entries the side list holds. -/
def side (x : Idx) : Nat := x.sideTail - x.sideHead

end Idx

/-- The null node (R324, R328). -/
def nullNode : Nat := 0xFFFF_FFFF

/-! Fields of a node header (R327). -/
def nodeKey (h : Nat) : Nat := fld h 511 448
def nodeLabels (h : Nat) : Nat := fld h 447 384
def nodeTe (h : Nat) : Nat := fld h 383 336
def nodeCe (h : Nat) : Nat := fld h 335 288
def nodeNorm (h : Nat) : Nat := fld h 287 256
def nodeGen (h : Nat) : Nat := fld h 15 8
def nodeLive (h : Nat) : Bool := fld h 1 0 == 1

/-- Traversed, and let be a result, at epoch `e` (R336). -/
def nodeSeen (e h : Nat) : Bool := nodeLive h && decide (nodeCe h ≤ e)
def nodeCounts (e h : Nat) : Bool := nodeSeen e h && (nodeTe h == 0 || decide (e < nodeTe h))

/-- An index opcode, and the index it names (R334, R343, R347 to R349). -/
def indexNamed (d : Nat) : Option Nat := match hdrOpcode d with
  | 0x30 => some (fld d 625 616)
  | 0x31 => some (fld d 673 664)
  | 0x32 => some (fld d 361 352)
  | 0x33 => some (fld d 265 256)
  | 0x34 => some (fld d 265 256)
  | _ => none

/-- Whether an opcode reserves an epoch (R342). -/
def reservesEpoch (op : Nat) : Bool := op == 0x31 || op == 0x32 || op == 0x33

namespace State

/-- An index. -/
def idxAt (s : State) (i : Nat) : Idx := s.eng.idxs.getD i {}

/-- Change an index. -/
def modIdx (s : State) (i : Nat) (f : Idx → Idx) : State := { s with eng := { s.eng with idxs := s.eng.idxs.set i (f (s.idxAt i)) } }

/-! ### Commits (R323 to R325) -/

/-- The checks of an index CREATE (R325). -/
def idxCreateChecks (s : State) (f : Frame) : List Check :=
  let g := f.word offIdxGeom
  let a := f.word offIdxAttr
  let dim := fld g 28 16
  let m := fld g 15 7
  let rdeg := fld g 6 0
  let nodes := fld g 63 32
  let vf := fld a 55 52
  let comp := fld a 63 56
  let x : Idx := { words := f.words }
  let out (b n : Nat) : Bool := !(s.inOwnSoft comp b n)
  let known := s.comps.has comp
  [ ⟨.zero, offIdxGeom, nodes == 0 || dim == 0 || m == 0 || rdeg == 0⟩,
    ⟨.encoding, offIdxGeom, decide (4096 < dim) || (m != 0 && (decide (m < 8) || decide (256 < m) || dim % m != 0)) || decide (64 < rdeg)
      || (!(bit a 51) && decide (67108864 < nodes))⟩,
    ⟨.encoding, offIdxAttr, !([1, 2, 3, 4, 9].contains vf) || fld a 50 49 == 3 || (isMx vf && dim % 32 != 0)⟩,
    ⟨.encoding, offIdxMem, x.nbase % 64 != 0 || x.cbase % 64 != 0 || (!x.classL && x.sbase % 64 != 0)⟩,
    ⟨.composition, offIdxAttr, !known⟩,
    ⟨.range, offIdxMem, known && (out x.nbase (nodes * x.stride) || out x.cbase (1024 * dim) || (!x.classL && out x.sbase 16777216))⟩,
    ⟨.state, offIdxAttr, (s.idxAt f.sel).state != 0⟩ ]

/-- Apply a frame of the IDX domain (R323 to R325). -/
def applyIdx (s : State) (f : Frame) : State :=
  let i := f.sel
  match f.fld offIdxAttr 2 0 with
  | 0 => s.decide_ .idx [] (fun s => s)
  | 1 => s.decide_ .idx (s.idxCreateChecks f) (fun s =>
      let x : Idx := { state := 1, comp := f.fld offIdxAttr 63 56, words := f.words }
      let ext (a : Nat) : List (Nat × Nat) := match s.extAt (lineOf a) with | some (k, e) => [(k, e.gen)] | none => []
      let exts := (ext x.nbase ++ ext x.cbase ++ (if x.classL then [] else ext x.sbase)).eraseDups
      { s with eng := { s.eng with idxs := s.eng.idxs.set i { x with exts := exts } } })
  | 2 => s.decide_ .idx [⟨.state, offIdxAttr, (s.idxAt i).state == 0 || decide (0 < (s.idxAt i).bound)⟩] (fun s =>
      { s with eng := { s.eng with idxs := s.eng.idxs.erase i } })
  | _ => s.decide_ .idx [⟨.encoding, offIdxAttr, true⟩] (fun s => s)

/-- Indexes with memory in an extent become DEAD when it enters Draining, and cached lines of the extent are invalidated
(R332, R350). -/
def killIndexes (s : State) (ext gen : Nat) (e : Extent) : State :=
  { s with eng := { s.eng with
      idxs := s.eng.idxs.mapV (fun _ (x : Idx) => if x.exts.contains (ext, gen) then { x with state := 2 } else x)
      searchCache := Tab.filter s.eng.searchCache (fun ln _ => !(e.covers ln)) } }

/-! ### Binding and epochs (R336, R342) -/

/-- Where a command keeps what it bound: epoch, entry node, side-list head and tail, slots. -/
def keyEpoch : Nat := 0
def keyNode : Nat := 1
def keyHead : Nat := 2
def keyTail : Nat := 3
def keySlots : Nat := 4

/-- Step 7 of an index command: it binds the index and, for some opcodes, reserves an epoch (R336, R342). -/
def bindIndex (s : State) (cid : Nat) : State :=
  match s.cmds.get? cid with
  | none => s
  | some c =>
    match indexNamed c.desc with
    | none => s
    | some i =>
      let x := s.idxAt i
      let op := hdrOpcode c.desc
      let e := x.reserved + 1
      let s := s.modIdx i (fun x =>
        let x := { x with bound := x.bound + 1 }
        if reservesEpoch op then { x with reserved := e, open_ := x.open_ ++ [(e, cid)] } else x)
      s.modCmd cid (fun c => { c with
        bound := i + 1, epoch := if reservesEpoch op then e else 0
        scratch := ((((c.scratch.set keyEpoch x.epoch).set keyNode x.entry).set keyHead x.sideHead).set keyTail x.sideTail).set keySlots x.hwm })

/-- A command that names an index is dispatched: it takes its place in the index's order (R333, R348, R349). -/
def queueIndex (s : State) (cid : Nat) : State :=
  match s.cmds.get? cid with
  | some c => if c.bound = 0 || (indexNamed c.desc).isNone then s
      else (s.modIdx (c.bound - 1) (fun x => { x with disp := x.disp ++ [cid] })).modCmd cid (fun c => { c with waitFrom := s.now })
  | none => s

/-- The command's record lands: it no longer counts for the index (R324). -/
def unbindIndex (s : State) (cid : Nat) (c : Cmd) : State :=
  if c.bound = 0 || (indexNamed c.desc).isNone then s
  else s.modIdx (c.bound - 1) (fun x =>
    { x with bound := x.bound - 1, disp := x.disp.filter (· != cid) })

/-- The published epoch advances as far as every reserving command has completed and its writes have landed (R342, R344). -/
def publishEpoch (s : State) (i : Nat) : State :=
  let x := s.idxAt i
  if x.state = 0 then s
  else
    let open_ := x.open_.filter (fun o => s.cmds.has o.2 || s.remotes.any (fun _ r => r.write && r.cid == some o.2))
    let e := match open_ with | (e, _) :: _ => e - 1 | [] => x.reserved
    let now := x.deltas.filter (fun d => decide (d.1 ≤ e))
    let live := x.live + now.foldl (fun n d => n + d.2.1) 0 - now.foldl (fun n d => n + d.2.2) 0
    let entry := (x.firsts.filter (fun f => decide (f.1 ≤ e))).foldl (fun n f => if n = nullNode then f.2 else n) x.entry
    s.modIdx i (fun x => { x with epoch := e, live := live, entry := entry, open_ := open_
                                  deltas := x.deltas.filter (fun d => decide (e < d.1)), firsts := x.firsts.filter (fun f => decide (e < f.1)) })

end State

/-! ### Reading records (R326 to R328, R332, R341) -/

namespace Work

/-- The index a command works on. -/
def idx (w : Work) : Idx := w.s.idxAt (w.cmd.bound - 1)

/-- Change it. -/
def modIdx (w : Work) (f : Idx → Idx) : Work := { w with s := w.s.modIdx (w.cmd.bound - 1) f }

/-- The general region of a line's Keystone, with room for one more line: in a full one the line buffer's lowest-numbered line gives way
(R11; DESIGN CHOICE, log entry 64). -/
def general (s : State) (ln : Nat) : State :=
  if s.generalUsed (lineHome ln) < State.generalLines then s
  else match s.lineBuf.keys.find? (fun l => lineHome l == lineHome ln) with
    | some x => { s with lineBuf := Tab.erase s.lineBuf x }
    | none => s

/-- Note a line in the search cache; a full set of 16 drops its least recently used line. -/
def cacheIdx (w : Work) (ln : Nat) : Work :=
  let t := w.s.eng.searchCache
  let mates := t.rows.filter (fun r => lineHome r.1 == lineHome ln && r.1 % 16384 == ln % 16384)
  let t := if t.has ln || mates.length < 16 then t
    else match mates.foldl (fun (b : Option (Nat × Nat)) r => match b with
        | some x => if r.2 < x.2 then some r else b
        | none => some r) none with
      | some x => t.erase x.1
      | none => t
  let s := if w.s.eng.searchCache.has ln then w.s
    else general { w.s with eng := { w.s.eng with searchCache := t } } ln
  { w with s := { s with eng := { s.eng with searchCache := s.eng.searchCache.set ln s.eng.searchUse, searchUse := s.eng.searchUse + 1 } } }

/-- Whether a line lies in the extents of the command's index, as they stood at its CREATE (R332). -/
def inIndex (w : Work) (ln : Nat) : Bool := match w.s.extAt ln with
  | some (k, e) => w.idx.exts.contains (k, e.gen)
  | none => false

/-- Count stale edges that a walker skips (R328, R401, R402). -/
def countStale (w : Work) (n : Nat) : Work :=
  if n = 0 then w else { w with s := (w.s.bump cStaleEdge n).bumpCount w.comp pStaleEdge n }

/-- Read an index line; `none` when it is poisoned or uncorrectable, which is noted for the status only (R341). A line on a failed
channel, whose writes land elsewhere, is read as any other read of it (R140). A line outside the index's extents ends the command with
FAULT (R332; DESIGN CHOICE, log entry 70). -/
def rdIdx (w : Work) (ln : Nat) (cached : Bool) : Option Nat × Work :=
  let cached := cached && !(w.s.chanFailed (lineChan ln))
  if !(w.inIndex ln) then (none, w.dead)
  else if cached && w.s.eng.searchCache.has ln then
    let w := { w with s := w.s.charge (cmdCharge w.cid w.comp) 1 }.cacheIdx ln
    if w.s.poison.has ln || w.s.lost.has ln then (none, w.fail 6) else (some (w.s.rawLine ln).toNat, w)
  else
    let keep := w.pz
    let (d, w) := ({ w with pz := false }).rdLine ln false true
    let bad := w.pz
    let w := { w with pz := keep }
    let w := if cached && !w.blocked then w.cacheIdx ln else w
    (if bad then none else some d.toNat, w)

/-- Read `n` consecutive index lines as one number. -/
def rdIdxRun (w : Work) (ln n : Nat) (cached : Bool) : Option Nat × Work :=
  (List.range n).foldl (fun (acc : Option Nat × Work) i =>
    let (d, w) := acc.2.rdIdx (ln + i) cached
    ((match acc.1, d with | some v, some x => some (v + x <<< (512 * i)) | _, _ => none), w)) (some 0, w)

/-- The header of a slot. -/
def header (w : Work) (i : Nat) : Option Nat × Work := w.rdIdx (w.idx.slotLine i) true

/-- The code bytes of a slot. -/
def codeOf (w : Work) (i : Nat) : Option (List Nat) × Work :=
  let x := w.idx
  let (v, w) := w.rdIdxRun (x.slotLine i + 1) x.codeLines true
  (v.map (bytesOf x.subs), w)

/-- The edges of a slot: node and generation, null ones included. -/
def edgesOf (w : Work) (i : Nat) : Option (List (Nat × Nat)) × Work :=
  let x := w.idx
  let (v, w) := w.rdIdxRun (x.slotLine i + 1 + x.codeLines) x.edgeLines true
  (v.map (fun v => (List.range x.rdeg).map (fun e =>
    let o := 8 * (64 * (e / 12) + 5 * (e % 12))
    (fld v (o + 31) o, fld v (o + 39) (o + 32)))), w)

/-- The decoded vector of a slot. -/
def vectorOf (w : Work) (i : Nat) : Option (List Val) × Work :=
  let x := w.idx
  let (v, w) := w.rdIdxRun (x.slotLine i + 1 + x.codeLines + x.edgeLines) (cdiv x.vecBytes 64) false
  (v.map (fun v => (unpackRow x.vfmt x.dim v).map vecVal), w)

/-- The target of an edge: `none` when it is stale or cannot be read, with whether it is stale (R328). -/
def edgeTarget (w : Work) (e : Nat × Nat) : Option Nat × Bool × Work :=
  if w.idx.hwm ≤ e.1 then (none, true, w)
  else
    let (h, w) := w.header e.1
    match h with
    | none => (none, false, w)
    | some h => if nodeLive h && nodeGen h == e.2 then (some h, false, w) else (none, true, w)

/-! ### Writing records (R328, R329, R345 to R347) -/

/-- Write an index line, which has to lie in the index's extents (R332; log entry 70). -/
def wrIdx (w : Work) (ln : Nat) (d : Line) (be : ByteEn) (full pz : Bool) : Work :=
  if w.halt then w else if w.inIndex ln then w.wrLine ln d be full pz else w.dead

/-- Write bytes of index lines. -/
def wrIdxLoc (w : Work) (a n v : Nat) : Work :=
  (pieces a n).foldl (fun w p =>
    let d := BitVec.ofNat 512 (fld v (8 * (p.1 - a + p.2) - 1) (8 * (p.1 - a)) <<< (8 * (p.1 % 64)))
    w.wrIdx (p.1 / 64) d (beRange (p.1 % 64) p.2) (p.2 == 64) false) w

/-- Write the header of a slot. -/
def putHeader (w : Work) (i h : Nat) : Work := w.wrIdx (w.idx.slotLine i) (BitVec.ofNat 512 h) beAll true false

/-- The header of a LIVE node. -/
def liveHeader (key labels ce norm gen : Nat) : Nat := put key 511 448 + put labels 447 384 + put ce 335 288 + put norm 287 256 + put gen 15 8 + 1

/-- Write the edges of a slot; the rest are null (R328). -/
def putEdges (w : Work) (i : Nat) (es : List (Nat × Nat)) : Work :=
  let x := w.idx
  (List.range x.edgeLines).foldl (fun w l =>
    let v := (List.range 12).foldl (fun a k =>
      let e := nth es (12 * l + k) (nullNode, 0)
      a + put e.1 31 0 <<< (40 * k) + put e.2 7 0 <<< (40 * k + 32)) 0
    w.wrIdx (x.slotLine i + 1 + x.codeLines + l) (BitVec.ofNat 512 v) beAll true false) w

/-- Allocate a slot: its number and generation. A DEAD index allocates none; a free list that leads to no slot below HWM ends the
command with FAULT (R329, R350; DESIGN CHOICE, log entry 70). -/
def takeSlot (w : Work) : Option (Nat × Nat) × Work :=
  let x := w.idx
  if x.state ≠ 1 then (none, w)
  else if x.freeHead ≠ nullNode then
    if x.hwm ≤ x.freeHead then (none, w.dead)
    else
      let (h, w) := w.header x.freeHead
      match h with
      | some h => (some (x.freeHead, nodeGen h), w.modIdx (fun y => { y with freeHead := nodeKey h % 2 ^ 32 }))
      | none => (none, w)
  else if x.hwm < x.nodes then (some (x.hwm, 0), w.modIdx (fun y => { y with hwm := y.hwm + 1 }))
  else (none, w)

/-- Free a slot of generation `gen` (R329). -/
def freeSlot (w : Work) (i gen : Nat) : Work :=
  let f := w.idx.freeHead
  (w.putHeader i (put f 511 448 + put (gen + 1) 15 8)).modIdx (fun y => { y with freeHead := i })

/-- Append a side-list entry (R345). -/
def appendSide (w : Work) (del : Bool) (node gen : Nat) : Work :=
  let x := w.idx
  let v := put w.cmd.epoch 127 80 + put (b2n del) 40 40 + put gen 39 32 + put node 31 0
  (w.wrIdxLoc (x.sideAddr x.sideTail) 16 v).modIdx (fun y => { y with sideTail := y.sideTail + 1 })

/-- Read side-list entry `i`. -/
def sideEntry (w : Work) (i : Nat) : Option Nat × Work :=
  let a := w.idx.sideAddr i
  let (v, w) := w.rdIdx (a / 64) false
  (v.map (fun v => fld v (8 * (a % 64) + 127) (8 * (a % 64))), w)

end Work

/-! ### Distances (R331, R338, R339) -/

/-- A vector as exact numbers, when all are finite. -/
def exactVec (vs : List Val) : Option (List Rat) := finites vs

/-- Σ aᵢbᵢ. -/
def dotR (a b : List Rat) : Rat := (a.zip b).foldl (fun s x => s + x.1 * x.2) 0

/-- The full-vector distance of R331 within the bound of R339. -/
def fullDist (n metric : Nat) (q x : List Val) (norm2 : Nat) : Val :=
  match exactVec q, exactVec x with
  | some q, some x =>
    let dim : Rat := ((q.length : Nat) : Rat)
    let mags := (q.zip x).foldl (fun s p => s + rabs (p.1 * p.2)) 0
    (match metric with
    | 0 =>
      let d := (q.zip x).foldl (fun s p => s + (p.1 - p.2) * (p.1 - p.2)) 0
      bounded n d ((dim + 2) * pow2 (-23) * d)
    | 1 => bounded n (-(dotR q x)) (dim * pow2 (-23) * mags)
    | _ =>
      (match ofFp32 norm2 with
      | .num nx _ =>
        let nq := dotR q q
        if nq = 0 || nx ≤ 0 then .of 1
        else
          let den := sqrtR nq * sqrtR nx
          bounded n (1 - dotR q x / den) ((dim + 4) * pow2 (-23) * mags / den + pow2 (-21) + slack * pow2 (-21))
      | _ => anyVal n))
  | _, _ => if q.any isNan || x.any isNan then .nan else anyVal n

/-- The tables of a query (R338): for each sub-space its 256 FP32 entries and their least one; the step of the quantisation and the
quantised entries; and the first draw of the distances. -/
structure Lut where
  cosine : Bool
  tabs : List (List Rat)
  low : List Rat
  step : Rat
  quant : List (List Nat)
  draw : Nat
  deriving Repr, Inhabited

/-- The code distance of a code: the same for nodes of equal code, within M × s / 2 of what the table comes to (R338). -/
def codeDist (n : Nat) (lut : Option Lut) (code : List Nat) : Val := match lut with
  | none => anyVal n
  | some l =>
    let one : Rat := if l.cosine then 1 else 0
    let m : Rat := ((l.tabs.length : Nat) : Rat)
    let exact := (l.tabs.zip code).foldl (fun s x => s + nth x.1 x.2 0) one
    let u := (l.quant.zip code).foldl (fun s x => s + nth x.1 x.2 0) 0
    let su := l.step * ((u : Nat) : Rat)
    let v := l.low.foldl (· + ·) one + su
    let mags := l.low.foldl (fun s x => s + rabs x) one + su
    holdTo exact (m * l.step / 2) (bounded (l.draw + u) v ((m + 3) * pow2 (-23) * mags))

/-- Whether a candidate stands before another: nearer, or as near with the lower node ID; NaN comes last (R335, R337). -/
def nearer (a b : Val × Nat) : Bool :=
  if isNan a.1 then isNan b.1 && decide (a.2 < b.2)
  else if isNan b.1 then true
  else vlt a.1 b.1 || (!(vlt b.1 a.1) && decide (a.2 < b.2))

/-- Put an element into a list sorted by distance. -/
def putNear {α : Type} (key : α → Val × Nat) (c : α) : List α → List α
  | [] => [c]
  | x :: t => if nearer (key c) (key x) then c :: x :: t else x :: putNear key c t

/-- A list sorted by distance. -/
def sortNear {α : Type} (key : α → Val × Nat) (l : List α) : List α := l.foldl (fun acc c => putNear key c acc) []

namespace Work

/-- The centroids of one sub-space of the codebook (R330). -/
def centroids (w : Work) (m : Nat) : Option (List (List Val)) × Work :=
  let x := w.idx
  let ds := x.dim / max 1 x.subs
  let a := x.cbase + m * 256 * ds * 4
  let ln := a / 64
  let (v, w) := w.rdIdxRun ln ((a + 1024 * ds + 63) / 64 - ln) false
  (v.map (fun v => (List.range 256).map (fun c => (List.range ds).map (fun j =>
    let o := 8 * (a % 64) + 32 * (c * ds + j)
    ofFp32 (fld v (o + 31) o)))), w)

/-- The whole codebook, by sub-space. -/
def codebook (w : Work) : Option (List (List (List Val))) × Work :=
  (List.range w.idx.subs).foldl (fun (acc : Option (List (List (List Val))) × Work) m =>
    let (c, w) := acc.2.centroids m
    ((match acc.1, c with | some l, some x => some (l ++ [x]) | _, _ => none), w)) (some [], w)

/-- An entry of the table of a query, for a part of the query and a centroid, in FP32 within the bound of R202 or R339 (R338). -/
def lutEntry (n metric : Nat) (sub c : List Rat) : Val :=
  let ds : Rat := ((sub.length : Nat) : Rat)
  let mags := (sub.zip c).foldl (fun s p => s + rabs (p.1 * p.2)) 0
  match metric with
  | 0 => let e := (sub.zip c).foldl (fun s p => s + (p.1 - p.2) * (p.1 - p.2)) 0; bounded n e ((ds + 2) * pow2 (-23) * e)
  | 1 => bounded n (-(dotR sub c)) (ds * pow2 (-23) * mags)
  | _ => bounded n (-(dotR sub c)) ((ds + 4) * pow2 (-23) * mags)

/-- A number rounded to the nearest integer, ties to even. -/
def roundEven (q : Rat) : Int :=
  let f := q.floor
  let r := q - (f : Rat)
  if r < 1 / 2 then f else if 1 / 2 < r then f + 1 else if f % 2 = 0 then f else f + 1

/-- Build the tables of a query (R338); `none` when an entry is not finite or the query has no direction. `n` numbers its draws. -/
def buildLut (n metric : Nat) (q : List Val) (book : List (List (List Val))) : Option Lut :=
  match exactVec q with
  | none => none
  | some qs =>
    let nq := dotR qs qs
    if metric = 2 && nq = 0 then none
    else
      let qs := if metric = 2 then qs.map (fun v => v / sqrtR nq) else qs
      let ds := q.length / max 1 book.length
      let tabs := book.mapIdx (fun m cs => finites (cs.mapIdx (fun i c => match finites c with
        | some c => lutEntry (n + 256 * m + i) metric ((qs.drop (m * ds)).take ds) c
        | none => .nan)))
      if tabs.any (·.isNone) then none
      else
        let ts := tabs.map (fun t => t.getD [])
        let low := ts.map (fun t => t.foldl min (t.headD 0))
        let s0 := ((ts.zip low).map (fun t => t.1.foldl max (t.1.headD 0) - t.2)).foldl max 0 / 255
        let s := if s0 = 0 then 1 else (match toFp32 (.of s0) with | .num q _ => if q = 0 then s0 else q | _ => s0)
        let quant := (ts.zip low).map (fun t => t.1.map (fun e => min 255 (roundEven ((e - t.2) / s)).toNat))
        some { cosine := metric == 2, tabs := ts, low := low, step := s, quant := quant, draw := n + 256 * book.length }

/-- Encode a vector (R330): the code byte of each sub-space, in FP32. -/
def encodeVec (metric norm2 : Nat) (v : List Val) (book : List (List (List Val))) : List Nat :=
  let unit : List Val := match metric, ofFp32 norm2 with
    | 2, .num n _ => if n ≤ 0 then v else v.map (fun (x : Val) => match x with | .num q z => toFp32 (if q = 0 then .num q z else .of (q / sqrtR n)) | y => y)
    | _, _ => v
  let ds := v.length / max 1 book.length
  book.mapIdx (fun m cs =>
    let sub := (unit.drop (m * ds)).take ds
    let dist (c : List Val) : Val := (sub.zip c).foldl (fun (a : Val) (p : Val × Val) =>
      let d := fadd 0 p.1 (fneg p.2)
      fadd 0 a (fmul d d)) (.of 0)
    (cs.mapIdx (fun i c => (dist c, i))).foldl (fun (b : Option (Val × Nat)) x => match b with
      | some y => if nearer x y then some x else b
      | none => some x) none |>.elim 0 (·.2))

/-! ### The walk (R336, R337) -/

end Work

/-- A candidate of a walk. -/
structure Cand where
  id : Nat
  d : Val
  hdr : Nat
  done : Bool := false
  deriving Repr, Inhabited

/-- Where a walk stands: its queue, the nodes marked seen, the expanded nodes, and the stale edges met. -/
structure Walk where
  cand : List Cand := []
  seen : List Nat := []
  expanded : List Cand := []
  stale : Nat := 0
  deriving Repr, Inhabited

/-- What a walk works with: its tables, its queue length, the bound epoch, nodes it traverses besides, and its first draw
for distances and for the seen filter. -/
structure WalkArgs where
  lut : Option Lut
  len : Nat
  epoch : Nat
  extra : List Nat
  draw : Nat
  deriving Repr, Inhabited

/-- Whether the seen filter answers yes: the node was marked, or the filter hits falsely, which is left open (R337). -/
def filterHit (a : WalkArgs) (k : Walk) (id : Nat) : Bool :=
  k.seen.contains id || (!k.seen.isEmpty && Config.free (a.draw + 2 * id + 1) % 2 == 1)

namespace Work

/-- Score a node and put it into the queue. -/
def score (w : Work) (a : WalkArgs) (k : Walk) (id hdr : Nat) : Walk × Work :=
  let (code, w) := w.codeOf id
  match code with
  | none => (k, w)
  | some code =>
    let c : Cand := { id := id, d := codeDist (a.draw + 2 * id) a.lut code, hdr := hdr }
    ({ k with seen := id :: k.seen, cand := (putNear (fun c => (c.d, c.id)) c k.cand).take a.len }, w)

/-- Follow one edge of an expanded node. -/
def follow (a : WalkArgs) (acc : Walk × Work) (e : Nat × Nat) : Walk × Work :=
  let (k, w) := acc
  if e.1 = nullNode then (k, w)
  else
    let (h, stale, w) := w.edgeTarget e
    if stale then ({ k with stale := k.stale + 1 }, w.countStale 1)
    else match h with
      | none => (k, w)
      | some h =>
        if !(nodeSeen a.epoch h || a.extra.contains e.1) || filterHit a k e.1 then (k, w) else w.score a k e.1 h

/-- Expand the best unexpanded node until none is left. -/
def walkOn (a : WalkArgs) : Nat → Walk × Work → Walk × Work
  | 0, r => r
  | fuel + 1, (k, w) =>
    match k.cand.find? (fun c => !c.done) with
    | none => (k, w)
    | some c =>
      let k := { k with cand := k.cand.map (fun x => if x.id = c.id then { x with done := true } else x), expanded := k.expanded ++ [c] }
      let (es, w) := w.edgesOf c.id
      if w.blocked then (k, w) else walkOn a fuel ((es.getD []).foldl (follow a) (k, w))

/-- A whole walk from the bound entry node. -/
def walk (w : Work) (a : WalkArgs) (entry : Nat) : Walk × Work :=
  if w.idx.hwm ≤ entry then ({}, w)
  else
    let (h, w) := w.header entry
    match h with
    | none => ({}, w)
    | some h =>
      if !(nodeSeen a.epoch h || a.extra.contains entry) then ({}, w)
      else walkOn a (w.idx.hwm + 1) (w.score a {} entry h)

/-! ### Edges (R344, R346, R349) -/

end Work

/-- A node with its generation and its vector, as pruning uses it. -/
structure Nbr where
  id : Nat
  gen : Nat
  vec : List Val
  norm : Nat
  d : Val
  deriving Repr, Inhabited

/-- Whether a product with ALPHA is at most a distance. -/
def scaledLe (alpha : Rat) (a b : Val) : Bool := match a, b with
  | .num x _, .num y _ => decide (alpha * x ≤ y)
  | .inf true, _ => !(isNan b)
  | _, .inf false => !(isNan a)
  | _, _ => false

/-- The pruning rule of R344 over a list sorted by distance. -/
def pruneNear (n metric : Nat) (alpha : Rat) (rdeg : Nat) : Nat → List Nbr → List Nbr → List Nbr
  | 0, kept, _ => kept
  | fuel + 1, kept, set => match set with
    | [] => kept
    | p :: t =>
      if rdeg ≤ kept.length then kept
      else pruneNear n metric alpha rdeg fuel (kept ++ [p])
        (t.filter (fun c => !(scaledLe alpha (fullDist (n + 2 ^ 32 * (p.id % 2 ^ 32) + c.id) metric p.vec c.vec c.norm) c.d)))

namespace Work

/-- Gather the vectors and distances of nodes around a vector; nodes that cannot be read are left out. -/
def neighbours (w : Work) (n : Nat) (v : List Val) (ids : List (Nat × Nat)) : List Nbr × Work :=
  let metric := w.idx.metric
  ids.foldl (fun (acc : List Nbr × Work) e =>
    let (h, stale, w) := acc.2.edgeTarget e
    let w := w.countStale (b2n stale)
    let (x, w) := w.vectorOf e.1
    match h, x with
    | some h, some x =>
      (putNear (fun (b : Nbr) => (b.d, b.id)) { id := e.1, gen := e.2, vec := x, norm := nodeNorm h, d := fullDist (n + e.1) metric v x (nodeNorm h) } acc.1, w)
    | _, _ => (acc.1, w)) ([], w)

/-- Prune a set of nodes to the edges of a node with vector `v` (R344). -/
def prune (w : Work) (v : List Val) (alpha : Rat) (ids : List (Nat × Nat)) : List (Nat × Nat) × Work :=
  let (n, w) := w.draws (2 ^ 64 + 2 ^ 33)
  let (ns, w) := w.neighbours n v ids
  ((pruneNear (n + 2 ^ 33) w.idx.metric alpha w.idx.rdeg ns.length [] ns).map (fun b => (b.id, b.gen)), w)

/-- Add a back edge from neighbour `m` to a node (R344, R346). -/
def backEdge (w : Work) (alpha : Rat) (node gen : Nat) (m : Nat × Nat) : Work :=
  let (h, _, w) := w.edgeTarget m
  let (es, w) := w.edgesOf m.1
  match h, es with
  | some _, some es =>
    (match firstIdx (fun e => e.1 == nullNode) es with
    | some i => w.putEdges m.1 (setNth es i (node, gen))
    | none =>
      let (v, w) := w.vectorOf m.1
      match v with
      | none => w
      | some v =>
        let (new, w) := w.prune v alpha ((es.filter (fun e => e.1 != nullNode && e.1 != node)) ++ [(node, gen)])
        w.putEdges m.1 new)
  | _, _ => w

/-- Link a node into the graph (R344 steps 4 to 6). Answers the work done; a node the walk cannot reach keeps null edges. -/
def link (w : Work) (node gen : Nat) (v : List Val) (book : List (List (List Val))) (len : Nat) (alpha : Rat) (linked : List Nat) : Work :=
  let (n, w) := w.draws (2 ^ 33 + 2 ^ 18)
  let a : WalkArgs := { lut := buildLut (n + 2 ^ 33 + 2) w.idx.metric v book, len := len, epoch := w.kept State.keyEpoch, extra := linked, draw := n }
  let (k, w) := w.walk a (w.kept State.keyNode)
  let set := (k.expanded.filter (fun c => nodeTe c.hdr == 0 && c.id != node)).map (fun c => (c.id, nodeGen c.hdr))
  let (es, w) := w.prune v alpha set
  let w := w.putEdges node es
  es.foldl (fun w m => w.backEdge alpha node gen m) w

/-- RELINK one slot (R349): edges removed, 0 when the node was left as it was. -/
def relink (w : Work) (i : Nat) (alpha : Rat) : Nat × Work :=
  let e := w.kept State.keyEpoch
  let (h, w) := w.header i
  match h with
  | none => (0, w)
  | some h =>
    if !(nodeSeen e h) then (0, w)
    else
      let (es, w) := w.edgesOf i
      match es with
      | none => (0, w)
      | some es =>
        let (good, dead, gone, w) := es.foldl (fun (acc : List (Nat × Nat) × List (Nat × Nat) × Nat × Work) ed =>
          let (good, dead, gone, w) := acc
          if ed.1 = nullNode then (good ++ [ed], dead, gone, w)
          else
            let (t, stale, w) := w.edgeTarget ed
            match t with
            | some t =>
              if nodeTe t ≠ 0 && nodeTe t ≤ e then (good ++ [(nullNode, 0)], dead ++ [ed], gone + 1, w) else (good ++ [ed], dead, gone, w)
            | none => if stale then (good ++ [(nullNode, 0)], dead, gone + 1, w) else (good ++ [ed], dead, gone, w)) ([], [], 0, w)
        if gone = 0 then (0, w)
        else if dead.isEmpty then (gone, w.putEdges i good)
        else
          let (v, w) := w.vectorOf i
          match v with
          | none => (gone, w.putEdges i good)
          | some v =>
            let (more, w) := dead.foldl (fun (acc : List (Nat × Nat) × Work) ed =>
              let (ds, w) := acc.2.edgesOf ed.1
              (ds.getD []).foldl (fun (acc : List (Nat × Nat) × Work) x =>
                if x.1 = nullNode || x.1 = i then acc
                else
                  let (t, stale, w) := acc.2.edgeTarget x
                  (if t.any (nodeCounts e) then acc.1 ++ [x] else acc.1, w.countStale (b2n stale))) (acc.1, w)) ([], w)
            let (new, w) := w.prune v alpha ((good.filter (fun x => x.1 != nullNode)) ++ more).eraseDups
            (gone, w.putEdges i new)

/-- Whether every command of the index dispatched before this one has completed (R348, R349). -/
def indexFront (w : Work) : Bool := w.idx.disp.head? == some w.cid

/-- Whether the command may work on its index now: its epoch is within the 1,024 not yet published, and for MERGE and
REPAIR no earlier one of the two is running (R333, R342). -/
def indexTurn (w : Work) : Bool :=
  decide (w.cmd.epoch ≤ w.idx.epoch + 1024) &&
    (!(hdrOpcode w.cmd.desc == 0x33 || hdrOpcode w.cmd.desc == 0x34) ||
      (w.idx.disp.takeWhile (fun c => c != w.cid)).all (fun c =>
        !((w.s.cmds.get? c).any (fun x => hdrOpcode x.desc == 0x33 || hdrOpcode x.desc == 0x34))))

end Work

/-- INDEX_CREATE. A commit with no OP, or with a reserved one, is decided here. -/
def execIndexCreate (s : State) : Outcome State Fault Refusal :=
  .next (match s.takeFrame .idx (fun f => f.fld offIdxAttr 2 0 != 2) with | some (f, s) => s.applyIdx f | none => s)

/-- INDEX_DESTROY. -/
def execIndexDestroy (s : State) : Outcome State Fault Refusal :=
  .next (match s.takeFrame .idx (fun f => f.fld offIdxAttr 2 0 == 2) with | some (f, s) => s.applyIdx f | none => s)

/-- EPOCH_PUBLISH. -/
def execEpochPublish (idx : Nat) (s : State) : Outcome State Fault Refusal := .next (s.publishEpoch idx)

end Sys2Proof.Machine
end

