-- ==== Sys2Proof/Machine/Search.lean ====
section
/-! DEFINITION. SEARCH, INSERT, DELETE, MERGE and REPAIR (R333 to R349). -/

namespace Sys2Proof.Machine

open Host (Outcome)

/-- The check that a command's index is its composition's and ACTIVE; a DEAD one is met at step 9 (R323, R350). -/
def indexCheck (s : State) (comp i bitLo : Nat) : Bool × Nat × Nat :=
  inval ((s.idxAt i).state == 0 || (s.idxAt i).comp != comp) bitLo

/-- The check that an index has an epoch left to reserve (R342). -/
def epochCheck (s : State) (i : Nat) : Bool × Nat × Nat := (decide (2 ^ 48 - 1 ≤ (s.idxAt i).reserved), 10, 0)

/-- A finite pruning factor of at least 1 (R343, R349). -/
def alphaOk (v : Nat) : Bool := match ofFp32 v with | .num q _ => decide (1 ≤ q) | _ => false

/-- A pruning factor as a number. -/
def alphaOf (v : Nat) : Rat := match ofFp32 v with | .num q _ => q | _ => 1

/-! ### SEARCH (R334 to R341) -/

/-- The operand check of SEARCH (R335). -/
def checkSearch (s : State) (comp d : Nat) : OpCheck :=
  let i := fld d 625 616
  let x := s.idxAt i
  let q := trefAt d 256
  let nq := fld d 543 512
  let k := fld d 559 544
  let l := fld d 575 560
  let rr := fld d 591 576
  let p := fld d 599 592
  let mode := fld d 607 600
  let graph := mode == 0
  { fails := [inval (fld d 439 384 % 16 != 0) 384, inval (decide (65536 < nq)) 512, inval (decide (1024 < k)) 544,
              inval (graph && (l == 0 || decide (4096 < l) || decide (l < k))) 560, inval (graph && rr != 0 && (decide (rr < k) || decide (l < rr))) 576,
              inval (graph && (p == 0 || decide (16 < p))) 592, inval (decide (1 < mode)) 600, inval (fld d 615 610 != 0) 608,
              indexCheck s comp i 616]
      ++ trefChecks q nq x.dim false ++ [inval (q.enc = 0 && decide (2 < q.fmt)) 312]
    uses := [q.use nq x.dim false .pinned, { va := fld d 439 384, n := nq * k * 16, wr := true, need := .pinned, off := 48 }]
    total := if k = 0 then 0 else if mode = 1 then cdiv nq 256 else nq }

/-- Whether a node's labels pass the filter of R331. -/
def labelsPass (d labels : Nat) : Bool :=
  let m := fld d 511 448
  if !(bit d 608) then true else if bit d 609 then labels &&& m == m else labels &&& m != 0

/-- One result before it is written: distance, node, key. -/
structure Hit where
  d : Val
  id : Nat
  key : Nat
  deriving Repr, Inhabited

namespace Work

/-- Score one node by its full vector (R339). -/
def fullScore (w : Work) (n : Nat) (q : List Val) (id h : Nat) : Option Hit × Work :=
  let (x, w) := w.vectorOf id
  (x.map (fun x => { d := fullDist (n + id) w.idx.metric q x (nodeNorm h), id := id, key := nodeKey h }), w)

/-- Add the side list of a class S index to a query's results (R345). -/
def sideHits (w : Work) (n e : Nat) (q : List Val) : List Hit × Work :=
  if w.idx.classL then ([], w)
  else (List.range (w.kept State.keyTail - w.kept State.keyHead)).foldl (fun (acc : List Hit × Work) i =>
    let (v, w) := acc.2.sideEntry (w.kept State.keyHead + i)
    match v with
    | none => (acc.1, w)
    | some v =>
      if bit v 40 then (acc.1, w)
      else
        let (h, _, w) := w.edgeTarget (fld v 31 0, fld v 39 32)
        match h with
        | some h =>
          if nodeCounts e h && labelsPass w.cmd.desc (nodeLabels h) then
            let (x, w) := w.fullScore n q (fld v 31 0) h
            (acc.1 ++ x.toList, w)
          else (acc.1, w)
        | none => (acc.1, w)) ([], w)

/-- The results of a graph query, by distance; `n` numbers its draws (R337 to R339). -/
def graphHits (w : Work) (n e : Nat) (q : List Val) (book : List (List (List Val))) : List Hit × Work :=
  let d := w.cmd.desc
  let a : WalkArgs := { lut := buildLut (n + 2 ^ 34) w.idx.metric q book, len := fld d 575 560, epoch := e, extra := [], draw := n }
  let (k, w) := w.walk a (w.kept State.keyNode)
  let w := { w with r1 := w.r1 + k.stale }
  let ok := k.cand.filter (fun c => nodeCounts e c.hdr && labelsPass d (nodeLabels c.hdr) && !(isNan c.d))
  if fld d 591 576 = 0 then (ok.map (fun c => { d := c.d, id := c.id, key := nodeKey c.hdr }), w)
  else (ok.take (fld d 591 576)).foldl (fun (acc : List Hit × Work) c =>
    let (x, w) := acc.2.fullScore (n + 2 ^ 33) q c.id c.hdr
    (acc.1 ++ x.toList, w)) ([], w)

/-- The results of a batch of exhaustive queries, each with its first draw, from one pass over the node array. The nodes of the side list
stand below HWM, and are scored with the others (R340). -/
def allHits (w : Work) (e : Nat) (qs : List (Nat × List Val)) : List (List Hit) × Work :=
  (List.range w.idx.hwm).foldl (fun (acc : List (List Hit) × Work) i =>
    let (h, w) := acc.2.header i
    match h with
    | some h =>
      if nodeCounts e h && labelsPass w.cmd.desc (nodeLabels h) then
        let (x, w) := w.vectorOf i
        match x with
        | some x => ((acc.1.zip qs).map (fun y =>
            y.1 ++ [{ d := fullDist (y.2.1 + i) w.idx.metric y.2.2 x (nodeNorm h), id := i, key := nodeKey h }]), w)
        | none => (acc.1, w)
      else (acc.1, w)
    | none => (acc.1, w)) (qs.map (fun _ => []), w)

end Work

/-- Keep one hit for each node, the nearer one, sorted and without NaN (R335, R345). -/
def bestHits (hs : List Hit) : List Hit :=
  let l := sortNear (fun (x : Hit) => (x.d, x.id)) (hs.filter (fun x => !(isNan x.d)))
  l.foldl (fun acc x => if acc.any (fun y => y.id == x.id) then acc else acc ++ [x]) []

/-- A result entry (R335). -/
def hitBits (n : Nat) : Option Hit → Nat
  | some h => put h.key 127 64 + put (packRow 0 0 false n [h.d]).bits 63 32 + put h.id 31 0
  | none => put 0x7F80_0000 63 32 + nullNode

/-- Write the results of query `j` of SEARCH: the best K of its hits (R335). -/
def Work.putHits (w : Work) (j : Nat) (hits : List Hit) (pz : Bool) : Work :=
  let d := w.cmd.desc
  let k := fld d 559 544
  let best := (bestHits hits).take k
  let out := catBits 128 ((List.range k).map (fun i => hitBits 0 best[i]?))
  { w with r0 := w.r0 + best.length }.wr (fld d 439 384 + j * k * 16) (16 * k) out pz

/-- Query `j` of SEARCH: its vector, and its taint. -/
def Work.queryVec (w : Work) (j : Nat) : (List Val × List Bool) × Work :=
  w.readVecOf (fun f => decide (f < 3)) (trefAt w.cmd.desc 256) (fld w.cmd.desc 543 512) w.idx.dim j

/-- One query of a graph SEARCH (R337). -/
def searchGraph (w : Work) (j : Nat) : Work :=
  let e := w.kept State.keyEpoch
  let ((q, qp), w) := w.queryVec j
  if w.halt then w else
  let (n, w) := w.draws (2 ^ 34 + 2 ^ 18)
  let (book, w) := w.codebook
  let (hits, w) := match book with
    | none => ([], w)
    | some book =>
      let (g, w) := w.graphHits n e q book
      let (sd, w) := w.sideHits (n + 2 ^ 33) e q
      (g ++ sd, w)
  if w.blocked then w else w.putHits j hits (anyTaint qp)

/-- One batch of queries of an exhaustive SEARCH (R340). -/
def searchAll (w : Work) (i : Nat) : Work :=
  let js := (List.range 256).filterMap (fun k => if 256 * i + k < fld w.cmd.desc 543 512 then some (256 * i + k) else none)
  let (qs, w) := overRows w js (fun w j => w.queryVec j)
  if w.halt then w else
  let (n, w) := w.draws (2 ^ 41)
  let (hits, w) := w.allHits (w.kept State.keyEpoch) (qs.zipIdx.map (fun q => (n + 2 ^ 32 * q.2, q.1.1)))
  if w.blocked || w.halt then w
  else ((js.zip qs).zip hits).foldl (fun w x => w.putHits x.1.1 x.2 (anyTaint x.1.2.2)) w

/-- One item of SEARCH: a query, or a batch of them. -/
def itemSearch (w : Work) (i : Nat) : Work := if fld w.cmd.desc 607 600 = 1 then searchAll w i else searchGraph w i

/-! ### INSERT (R343 to R345) -/

/-- The operand check of INSERT (R343). -/
def checkInsert (s : State) (comp d : Nat) : OpCheck :=
  let i := fld d 673 664
  let x := s.idxAt i
  let n := fld d 607 576
  let v := trefAt d 256
  let lb := fld d 623 608
  let lbls := fld d 503 448
  { fails := [inval (decide (65536 < n)) 576, inval (x.classL && (decide (lb < 16) || decide (1024 < lb))) 608,
              inval (x.classL && !(alphaOk (fld d 655 624))) 624, numCheck (fld d 663 656) 656, indexCheck s comp i 664]
      ++ trefChecks v n x.dim false ++ [inval (v.enc = 0 && (v.fmt == 10 || v.fmt == 11)) 312, epochCheck s i]
    uses := [v.use n x.dim false .pinned, { va := fld d 439 384, n := 8 * n, wr := false, need := .pinned, off := 48 },
             { va := lbls, n := if lbls = 0 then 0 else 8 * n, wr := false, need := .pinned, off := 56 },
             { va := fld d 567 512, n := 8 * n, wr := true, need := .pinned, off := 64 }]
    total := max 1 (2 * n) }

namespace Work

/-- Nodes of this command that are linked already (R344), and the lowest it inserted. -/
def keyLinked (i : Nat) : Nat := 16 + i

/-- The nodes linked so far. -/
def linkedSoFar (w : Work) (i : Nat) : List Nat := (List.range i).filterMap (fun j => w.cmd.scratch.get? (keyLinked j))

/-- Note an inserted node: it becomes visible, and may become the entry node, when its epoch is published. -/
def noteInsert (w : Work) (node : Nat) : Work :=
  let e := w.cmd.epoch
  w.modIdx (fun x =>
    let x := { x with deltas := x.deltas ++ [(e, 1, 0)] }
    if !(x.classL) then x
    else if x.firsts.any (fun f => f.1 == e) then { x with firsts := x.firsts.map (fun f => if f.1 = e then (e, min f.2 node) else f) }
    else { x with firsts := (x.firsts ++ [(e, node)]).mergeSort (fun a b => decide (a.1 ≤ b.1)) })

/-- What an INSERT keeps of the item in hand: its slot, plus 1, with its generation above, and what its header will say. -/
def keySlot : Nat := 5
def keyPacked : Nat := 6
def keyNorm : Nat := 7
def keyKey : Nat := 8
def keyLabel : Nat := 9

/-- Write the code, the vector and null edges of a new node (R344 step 2). -/
def writeBody (w : Work) (node packed : Nat) (code : List Nat) : Work :=
  let x := w.idx
  let l := x.slotLine node
  let cb := catBits 8 code
  let w := (List.range x.codeLines).foldl (fun w i => w.wrIdx (l + 1 + i) (BitVec.ofNat 512 (fld cb (512 * i + 511) (512 * i))) beAll true false) w
  (w.wrIdxLoc (64 * (l + 1 + x.codeLines + x.edgeLines)) x.vecBytes packed).putEdges node []

/-- Item `k` of an INSERT of `n` is not inserted. -/
def notInserted (w : Work) (k : Nat) : Work := { w with part := true }.wr (fld w.cmd.desc 567 512 + 8 * k) 8 nullNode false

/-- An INSERT stops before the header of item `k` is written: its items left are not inserted (R341, R344). -/
def stopInsert (w : Work) (k n : Nat) : Work :=
  { (List.range (n - k)).foldl (fun w j => w.notInserted (k + j)) w with halt := true, pz := false }

/-- Free the slot taken for the item in hand, whose header has not been written (R344, R345). -/
def giveBack (w : Work) : Work :=
  let t := w.kept keySlot
  if t = 0 then w else ((w.freeSlot ((t - 1) % 2 ^ 32) ((t - 1) / 2 ^ 32)).keep keySlot 0)

end Work

/-- The first half of item `k` of INSERT: its slot, its code, its vector and null edges (R344 steps 1 and 2). -/
def insertBody (w : Work) (k n : Nat) : Work :=
  let d := w.cmd.desc
  let x := w.idx
  let (slot, w) := w.takeSlot
  match slot with
  | none => if w.halt || w.blocked then w else w.notInserted k
  | some (node, gen) =>
    let w := w.keep Work.keySlot (1 + node + gen <<< 32)
    let ((vs, _), w) := w.readVecOf (fun f => f != 10 && f != 11) (trefAt d 256) n x.dim k
    let (key, w) := w.rd (fld d 439 384 + 8 * k) 8
    let (labels, w) := if fld d 503 448 = 0 then (0, w) else w.rd (fld d 503 448 + 8 * k) 8
    let (book, w) := w.codebook
    if w.blocked || w.halt then w
    else match (if w.pz || w.bad ≠ 0 then none else book) with
      | none => w.stopInsert k n
      | some book =>
        let (packed, w) := w.pack x.vfmt (fld d 663 656) vs
        let stored := (unpackRow x.vfmt x.dim packed).map vecVal
        let (dr, w) := w.draws 1
        let norm := (packRow 0 0 false dr [accum dr x.dim (sumVals (stored.map (fun v => exactMul v v))) 0]).bits
        ((((w.writeBody node packed (Work.encodeVec x.metric norm stored book)).keep Work.keyPacked packed).keep Work.keyNorm norm).keep
          Work.keyKey key).keep Work.keyLabel labels

/-- The second half of item `k` of INSERT: its header, and its place in the graph or in the side list (R344 steps 3 to 6, R345). -/
def insertHead (w : Work) (k n : Nat) : Work :=
  let d := w.cmd.desc
  let x := w.idx
  let t := w.kept Work.keySlot
  if t = 0 then w
  else if !(x.classL) && decide (1048576 ≤ x.side) then w.giveBack.notInserted k
  else
    let node := (t - 1) % 2 ^ 32
    let gen := (t - 1) / 2 ^ 32
    let (book, w) := if x.classL then w.codebook else (some [], w)
    if w.blocked || w.halt then w
    else match book with
      | none => w.stopInsert k n
      | some book =>
        let w := w.putHeader node (Work.liveHeader (w.kept Work.keyKey) (w.kept Work.keyLabel) w.cmd.epoch (w.kept Work.keyNorm) gen)
        let w := if x.classL then
            w.link node gen ((unpackRow x.vfmt x.dim (w.kept Work.keyPacked)).map vecVal) book (fld d 623 608) (alphaOf (fld d 655 624))
              (w.linkedSoFar k)
          else w.appendSide false node gen
        let w := ((w.noteInsert node).keep (Work.keyLinked k) node).keep Work.keySlot 0
        { w with r0 := 1 }.wr (fld d 567 512 + 8 * k) 8 (node + gen <<< 32) false

/-- Half an item of INSERT; one without items has only its turn to wait for (R333, R342). -/
def itemInsert (w : Work) (i : Nat) : Work :=
  let n := fld w.cmd.desc 607 576
  if !w.indexTurn then w.block
  else if n = 0 then w
  else if i % 2 = 0 then insertBody w (i / 2) n
  else insertHead w (i / 2) n

/-- Whether an INSERT that stopped has to give back the slot of an item whose header it had not written: under REVOKED and FAULT the slot
is lost (R344; DESIGN CHOICE for the statuses the rule does not name, log entry 70). -/
def givesBack (c : Cmd) : Bool :=
  hdrOpcode c.desc == 0x31 && c.scratch.getD Work.keySlot 0 != 0 && c.status != 4 && c.status != 11

/-- It gives it back, before its completion record (R344). -/
def State.giveBack (s : State) (cid : Nat) (c : Cmd) : State :=
  (Work.giveBack { s := s, cid := cid, src := 1244 + c.bound.pred % 4, comp := s.cmdComp c }).s

/-! ### DELETE (R347) -/

/-- The operand check of DELETE. -/
def checkDelete (s : State) (comp d : Nat) : OpCheck :=
  let i := fld d 361 352
  let n := fld d 351 320
  { fails := [inval (decide (65536 < n)) 320, indexCheck s comp i 352, epochCheck s i]
    uses := [{ va := fld d 311 256, n := 8 * n, wr := false, need := .pinned, off := 32 }]
    total := max 1 n }

/-- One entry of DELETE. -/
def itemDelete (w : Work) (i : Nat) : Work :=
  if !w.indexTurn then w.block
  else if fld w.cmd.desc 351 320 = 0 then w
  else
    let skip (w : Work) : Work := { w with r1 := 1, part := true }
    let (v, w) := w.rd (fld w.cmd.desc 311 256 + 8 * i) 8
    if w.blocked then w
    else if w.pz then { skip w with pz := false }
    else
      let id := fld v 31 0
      let (h, _, w) := w.edgeTarget (id, fld v 39 32)
      match h with
      | none => skip w
      | some h =>
        if !(nodeSeen (w.kept State.keyEpoch) h) || nodeTe h ≠ 0 || (!(w.idx.classL) && decide (1048576 ≤ w.idx.side)) then skip w
        else
          let e := w.cmd.epoch
          let w := w.wrIdx (w.idx.slotLine id) (BitVec.ofNat 512 (put e 383 336)) (beRange 42 6) false false
          let w := if w.idx.classL then w else w.appendSide true id (nodeGen h)
          { w.modIdx (fun x => { x with tomb := x.tomb + 1, deltas := x.deltas ++ [(e, 0, 1)] }) with r0 := 1 }

/-! ### MERGE (R348) -/

/-- The operand check of MERGE. Its items are the covered entries, the slots of a RELINK, and the freeing. -/
def checkMerge (s : State) (comp d : Nat) : OpCheck :=
  let i := fld d 265 256
  let x := s.idxAt i
  let lb := fld d 287 272
  { fails := [indexCheck s comp i 256, inval x.classL 256, inval (decide (lb < 16) || decide (1024 < lb)) 272,
              inval (!(alphaOk (fld d 319 288))) 288, epochCheck s i]
    total := if x.side = 0 then 1 else x.side + x.hwm + 1 }

namespace Work

/-- Whether a covered entry is a delete (R348 step 2). -/
def anyDelete (w : Work) : Bool × Work :=
  (List.range (w.kept State.keyTail - w.kept State.keyHead)).foldl (fun (acc : Bool × Work) i =>
    let (v, w) := acc.2.sideEntry (acc.2.kept State.keyHead + i)
    (acc.1 || v.any (fun v => bit v 40), w)) (false, w)

/-- Free one node, unless it is the entry node (R329, R348, R349). -/
def freeNode (w : Work) (id h : Nat) : Work :=
  if w.idx.entry = id then w
  else { (w.freeSlot id (nodeGen h)).modIdx (fun x => { x with tomb := x.tomb - 1 }) with r1 := w.r1 + 1 }

/-- MERGE links one covered insert entry (R348 step 1). -/
def mergeLink (w : Work) (i : Nat) : Work :=
  let d := w.cmd.desc
  let (v, w) := w.sideEntry (w.kept State.keyHead + i)
  match v with
  | none => w
  | some v =>
    let w := { w with r0 := 1 }
    if bit v 40 then w
    else
      let id := fld v 31 0
      let (h, _, w) := w.edgeTarget (id, fld v 39 32)
      match h with
      | none => w
      | some h =>
        let w := if w.idx.entry = nullNode then (w.modIdx (fun x => { x with entry := id })).keep State.keyNode id else w
        let w := if w.kept State.keyNode = nullNode then w.keep State.keyNode w.idx.entry else w
        let (x, w) := w.vectorOf id
        let (book, w) := w.codebook
        match x, book with
        | some x, some book =>
          (w.link id (nodeGen h) x book (fld d 287 272) (alphaOf (fld d 319 288)) (w.linkedSoFar i)).keep (keyLinked i) id
        | _, _ => w

/-- MERGE frees the covered delete entries' nodes and advances the head (R348 steps 3 and 4). -/
def mergeFree (w : Work) : Work :=
  let w := (List.range (w.kept State.keyTail - w.kept State.keyHead)).foldl (fun w i =>
    let (v, w) := w.sideEntry (w.kept State.keyHead + i)
    match v with
    | some v =>
      if !(bit v 40) then w
      else
        let (h, _, w) := w.edgeTarget (fld v 31 0, fld v 39 32)
        (match h with
        | some h => if nodeTe h = 0 then w else w.freeNode (fld v 31 0) h
        | none => w)
    | none => w) w
  let t := w.kept State.keyTail
  w.modIdx (fun x => { x with sideHead := t })

end Work

/-- One item of MERGE: linking an entry, relinking a slot, or freeing. -/
def itemMerge (w : Work) (i : Nat) : Work :=
  let n := w.kept State.keyTail - w.kept State.keyHead
  let slots := w.kept State.keySlots
  if !w.indexTurn then w.block
  else if n = 0 then w
  else if i < n then w.mergeLink i
  else if i < n + slots then
    let (del, w) := if i = n then w.anyDelete else (true, w)
    if !del then { w with s := w.s.modCmd w.cid (fun c => { c with pos := n + slots }) }
    else (w.relink (i - n) (alphaOf (fld w.cmd.desc 319 288))).2
  else if !w.indexFront then w.block
  else w.mergeFree

/-! ### REPAIR (R349) -/

/-- Slots REPAIR acts on. -/
def repairSlots (x : Idx) (d : Nat) : Nat := min (fld d 351 320) (x.hwm - fld d 319 288)

/-- The operand check of REPAIR. -/
def checkRepair (s : State) (comp d : Nat) : OpCheck :=
  let i := fld d 265 256
  let mode := fld d 279 272
  { fails := [indexCheck s comp i 256, inval (decide (2 < mode)) 272, inval (mode == 0 && !(alphaOk (fld d 447 416))) 416]
    total := if mode = 2 then 1 else max 1 (repairSlots (s.idxAt i) d) }

/-- One item of REPAIR. -/
def itemRepair (w : Work) (i : Nat) : Work :=
  let d := w.cmd.desc
  let id := fld d 319 288 + i
  if !w.indexTurn then w.block
  else if fld d 279 272 ≠ 2 && (fld d 351 320 = 0 || w.idx.hwm ≤ id) then w
  else match fld d 279 272 with
    | 0 =>
      let (gone, w) := w.relink id (alphaOf (fld d 447 416))
      if gone = 0 then w else { w with r0 := 1, r1 := gone }
    | 1 =>
      if !w.indexFront then w.block
      else
        let (h, w) := w.header id
        (match h with
        | some h =>
          if nodeLive h && nodeTe h ≠ 0 && nodeTe h ≤ fld d 399 352 && w.idx.entry ≠ id then { w.freeNode id h with r0 := 1, r1 := 0 } else w
        | none => w)
    | _ =>
      if w.idx.hwm ≤ id then { w.fail 2 with r0 := 36, halt := true }
      else
        let (h, w) := w.header id
        (match h with
        | some h =>
          if nodeCounts (w.kept State.keyEpoch) h && nodeTe h == 0 then w.modIdx (fun x => { x with entry := id })
          else { w.fail 2 with r0 := 36, halt := true }
        | none => { w with halt := true })

/-- SEARCH. -/
def execSearch (cid : Nat) (run : RunEnv) (s : State) : Outcome State Fault Refusal := .next (s.runItems cid run 0x30 isWalker itemSearch)

/-- INSERT. -/
def execInsert (cid : Nat) (run : RunEnv) (s : State) : Outcome State Fault Refusal := .next (s.runItems cid run 0x31 isWalker itemInsert)

/-- DELETE. -/
def execDeleteOp (cid : Nat) (run : RunEnv) (s : State) : Outcome State Fault Refusal := .next (s.runItems cid run 0x32 isWalker itemDelete)

/-- MERGE. -/
def execMerge (cid : Nat) (run : RunEnv) (s : State) : Outcome State Fault Refusal := .next (s.runItems cid run 0x33 isWalker itemMerge)

/-- REPAIR. -/
def execRepair (cid : Nat) (run : RunEnv) (s : State) : Outcome State Fault Refusal := .next (s.runItems cid run 0x34 isWalker itemRepair)

end Sys2Proof.Machine
end

