-- ==== Sys2Proof/Machine/Sync.lean ====
section
/-! DEFINITION. The opcodes of the tile set and of synchronisation as commands of the block: NOP to SAMPLE, ACQUIRE, RELEASE,
WAIT, SIGNAL, FLAG_WRITE and DUMP_WATCH (R221, R238 to R244), and local and remote signals (R179, R180). -/

namespace Sys2Proof.Machine

open Host (Outcome)

/-! ### Signals and flags of the controller's own (R179, R180, R240) -/

namespace State

/-- Whether a local signal or flag of a command has not landed. -/
def signalPending (s : State) (cid : Nat) : Bool :=
  let mine (r : LineReq) : Bool := r.kind == .signal && r.cls == .wr && r.tag == cid
  s.trans.any (fun _ t => mine t.req) || s.waitQ.any (fun _ l => l.any mine) || s.mirReads.any (fun _ r => mine r)

/-- Whether the partner write of one still has to complete. -/
def signalOwed (s : State) (cid : Nat) : Bool := s.owed.any (fun _ l => l.any (fun r => r.kind == .signal && r.tag == cid))

/-- Send a local signal or flag of a command to its line, whose extent is Active. -/
def localFlag (s : State) (cid ln action payload be : Nat) : State :=
  s.submit { kind := .signal, cls := .wr, src := s.port, tag := cid, line := ln, data := BitVec.ofNat 512 payload, be := BitVec.ofNat 64 be
             action := action, note := s.flagBody s.port 0 0 ln }

/-- Send a flagged store of a command to a peer; `none` when it fails at once. -/
def remoteFlag (s : State) (cid port ln action payload be : Nat) (p : Purpose) : Option Nat × State :=
  s.issue { head := 0, host := false, port := port, write := true, addr := 64 * ln, len := 64, data := payload, be := be
            flag := some (0, 0, action), purpose := p, cid := some cid, issued := 0, limit := 0 }

end State

/-! ### Operand checks -/

/-- NOP, RELEASE and WAIT have no operands (R238, R244). -/
def checkNone (_ : Nat) : OpCheck := { total := 1 }

/-- SIGNAL (R238). -/
def checkSignal (d : Nat) : OpCheck := { fails := [inval (decide (1 < fld d 263 256)) 256], total := 1 }

/-- FLAG_WRITE (R239, R240). -/
def checkFlagWrite (d : Nat) : OpCheck :=
  let t := fld d 311 256
  let act := fld d 327 320
  { fails := [inval (t % 64 != 0) 256, inval (decide (3 < act)) 320, inval ((act == 1 || act == 3) && fld d 343 336 != 0xFF) 336]
    uses := [{ va := t, n := 64, wr := true, need := .store, off := 32 }]
    total := 2 }

/-- DUMP_WATCH (R241, R242). -/
def checkWatch (s : State) (ring d : Nat) : OpCheck :=
  let n := fld d 383 320
  let idle := fld d 463 448 = 0 || fld d 511 480 = 0 || n = 0
  { fails := [inval (ring != 0) 0, inval (fld d 311 256 % 64 != 0) 256, inval (!(s.comps.has (fld d 391 384))) 384,
              inval (fld d 415 400 == 0) 400]
    uses := [{ va := fld d 311 256, n := n, wr := true, need := .local_, off := 32 }]
    total := if idle then 0 else 1 }

/-! ### Items -/

/-- NOP, WAIT and SIGNAL do nothing of their own. -/
def itemNone (w : Work) (_ : Nat) : Work := w

/-- ACQUIRE (R238). -/
def itemAcquire (w : Work) (_ : Nat) : Work :=
  let dies := fld w.cmd.desc 271 256
  let on (src : Nat) : Bool := match courseOf src with | some c => bit dies c | none => false
  let stale (src : Nat) (t : Tab CopyLine) : Bool := on src && t.any (fun _ x => x.comp == w.comp)
  let e := w.s.eng
  let e := { e with readCache := Tab.filter e.readCache (fun k t => !(stale k t)), prefetch := Tab.filter e.prefetch (fun k t => !(stale k t)) }
  let s := (List.range 16).foldl (fun (s : State) c => if bit dies c then s.dropStaged c w.comp else s) { w.s with eng := e }
  { w with s := s, r0 := popcount 16 dies }

/-- Whether a command of the same ring dispatched earlier may still issue writes (R238). -/
def State.ringWorking (s : State) (ring cid : Nat) : Bool :=
  s.cmds.any (fun k (c : Cmd) => decide (k < cid) && c.ring == ring && !(c.phase == .ended || c.phase == .signalled))

/-- Whether a write of an earlier command of the ring has not completed (R210). -/
def State.ringWriting (s : State) (ring cid : Nat) : Bool :=
  s.remotes.any (fun _ r => r.write && r.ring == some ring && (match r.cid with | some c => decide (c < cid) | none => false))

/-- Host writes of a ring's earlier commands that have gone out behind no flush yet, by head: how many (R210). -/
def State.hostWritesOf (s : State) (ring cid : Nat) : List (Nat × Nat) :=
  (s.ringAt ring).hostOut.rows.map (fun x => (x.1, (x.2.rows.filter (fun y => decide (y.1 < cid))).foldl (fun n y => n + y.2) 0))

/-- RELEASE (R221, R238): it waits, flushes host writes with zero-length reads, counts the writes it waited for, and reports failed
ones. It counts writes to hosts, to peers and to mirrors, not local lines that land meanwhile (DESIGN CHOICE, log entry 75). -/
def itemRelease (w : Work) (_ : Nat) : Work :=
  let i := w.cmd.ring
  if w.s.ringWorking i w.cid || w.s.ringWriting i w.cid then w.block
  else
    let outs := (w.s.hostWritesOf i w.cid).filter (fun x => x.2 != 0)
    let open_ := outs.filter (fun x => !(w.cmd.prefetch.has (flushKey x.1)))
    if !open_.isEmpty then { w with blocked := true, wants := open_.map (fun x => { place := .host x.1 0, len := 0 }) }
    else
      let failed := outs.any (fun x => (w.cmd.prefetch.getD (flushKey x.1) {}).status != 0)
        || (w.s.ringAt i).lateFail.any (fun c => decide (c < w.cid))
      let s := w.s.modRing i (fun r => { r with hostOut := r.hostOut.mapV (fun _ t => Tab.filter t (fun c _ => decide (w.cid ≤ c)))
                                                lateFail := r.lateFail.filter (fun c => decide (w.cid ≤ c)) })
      let w := { w with s := s, r0 := outs.foldl (fun n x => n + x.2) 0 }
      if failed then w.fail 7 else w

/-- FLAG_WRITE: the flag is sent, then it has to have been applied (R240). -/
def itemFlagWrite (w : Work) (i : Nat) : Work :=
  let d := w.cmd.desc
  let act := fld d 327 320
  match segHolding w.cmd.segs (fld d 311 256) 64 with
  | none => { w.fail 11 with halt := true }
  | some g =>
    match g.place w.s.port (fld d 311 256) with
    | .loc a =>
      let ln := a / 64
      if i = 0 then
        (if !(w.s.activeAt ln) then { ({ w with s := w.s.dropWrite ln }).fail 4 with halt := true }
        else if !(w.s.flagReady w.s.port ln) then w.block
        else { w with s := w.s.localFlag w.cid ln act (fld d 959 512) (fld d 391 336) })
      else if w.s.signalPending w.cid then w.block
      else if w.s.eng.kvDue.any (fun q => 64 * ((w.s.comps.getD (q.key / 64) {}).kv.base) + q.key % 64 == ln) then w.block
      else w
    | .fab p a =>
      if i = 0 then
        (match w.s.remoteFlag w.cid p (a / 64) act (fld d 959 512) (fld d 391 336) (.flag w.cid) with
        | (some _, s) => { w with s := s }
        | (none, s) => { w with s := s }.fail 11)
      else if w.s.remotes.any (fun _ r => r.purpose == .flag w.cid) then w.block
      else w
    | .host _ _ => { w.fail 2 with halt := true }

/-! ### DUMP_WATCH (R241 to R243) -/

namespace State

/-- Arm waiting watches while fewer than 64 are armed. -/
def armWatches (s : State) : State :=
  let r := s.eng.watches.foldl (fun (acc : Nat × List Watch) (x : Watch) =>
    if x.armed then (acc.1, acc.2 ++ [x])
    else if acc.1 < 64 then (acc.1 + 1, acc.2 ++ [{ x with armed := true }])
    else (acc.1, acc.2 ++ [x])) ((s.eng.watches.filter (·.armed)).length, [])
  let ws := r.2
  { s with eng := { s.eng with watches := ws } }

/-- A DUMP_WATCH is dispatched. -/
def startWatch (s : State) (cid : Nat) : State :=
  let x : Watch := { cid := cid, since := s.now }
  ({ s with eng := { s.eng with watches := s.eng.watches ++ [x] } }).armWatches

/-- A watch ends (R242). A dump of it that is still being written is dropped, and no result counts it (DESIGN CHOICE, log entry 75). -/
def endWatch (s : State) (cid : Nat) : State :=
  match s.eng.watches.find? (fun x => x.cid == cid), s.cmds.get? cid with
  | some x, some c =>
    let short := decide (x.taken < fld c.desc 463 448) || decide (0 < x.skipped)
    let s := s.modCmd cid (fun c => { c with r0 := x.taken, r1 := x.skipped, pos := c.total, status := if short && c.status == 0 then 1 else c.status })
    (({ s with eng := { s.eng with watches := s.eng.watches.filter (fun y => y.cid != cid) } }).armWatches).finish cid
  | _, _ => s

/-- DUMP_WATCH takes its dumps: it ends once it has them all. -/
def watchRuns (s : State) (cid : Nat) : State :=
  match s.cmds.get? cid with
  | some c =>
    if c.phase == .running && hdrOpcode c.desc == 0x48 then
      (if c.total = 0 then s.finish cid
      else if s.eng.watches.any (fun x => x.cid == cid && decide (fld c.desc 463 448 ≤ x.taken)) then s.endWatch cid else s)
    else s
  | none => s

/-- LIMIT_US of a watch has elapsed (R242). -/
def watchExpires (s : State) (cid : Nat) : State :=
  match s.cmds.get? cid with
  | some c =>
    if s.eng.watches.any (fun x => x.cid == cid && decide (x.since + 1000 * fld c.desc 511 480 ≤ s.now)) then s.endWatch cid else s
  | none => s

end State

/-! ### The commands -/

/-- NOP. -/
def execNop (cid : Nat) (run : RunEnv) (s : State) : Outcome State Fault Refusal := .next (s.runItems cid run 0x00 isKeystone itemNone)

/-- MOVE: tile movers run its tiles, which pass through codec units where R246 has them do so. -/
def execMove (cid : Nat) (run : RunEnv) (s : State) : Outcome State Fault Refusal :=
  .next (s.runItems cid run 0x01 isMover itemMove)

/-- FILL. -/
def execFill (cid : Nat) (run : RunEnv) (s : State) : Outcome State Fault Refusal :=
  .next (s.runItems cid run 0x02 isMover itemFill)

/-- Whether a check unit may scan for a command: it is the command's one unit, and scans for no other (R9, R356). -/
def State.checkFree (s : State) (cid u : Nat) : Bool :=
  isCheck u && (s.cmds.get? cid).any (fun c => c.begun.size == 0 || c.begun.has u)
    && !(s.cmds.any (fun k (c : Cmd) => k != cid && c.phase == .running && c.begun.has u))

/-- CHECK: one check unit computes it (R356). -/
def execCheck (cid : Nat) (run : RunEnv) (s : State) : Outcome State Fault Refusal :=
  .next (s.runItems cid run 0x08 (s.checkFree cid) itemCheck)

/-- MATMUL. -/
def execMatmul (cid : Nat) (run : RunEnv) (s : State) : Outcome State Fault Refusal := .next (s.runItems cid run 0x10 isEngine (itemMatmul false))

/-- MATMUL_ACC. -/
def execMatmulAcc (cid : Nat) (run : RunEnv) (s : State) : Outcome State Fault Refusal := .next (s.runItems cid run 0x11 isEngine (itemMatmul true))

/-- EWISE. -/
def execEwise (cid : Nat) (run : RunEnv) (s : State) : Outcome State Fault Refusal := .next (s.runItems cid run 0x18 isEngine itemEwise)

/-- REDUCE. -/
def execReduce (cid : Nat) (run : RunEnv) (s : State) : Outcome State Fault Refusal := .next (s.runItems cid run 0x19 isEngine itemReduce)

/-- NORM. -/
def execNormOp (cid : Nat) (run : RunEnv) (s : State) : Outcome State Fault Refusal := .next (s.runItems cid run 0x1A isEngine itemNorm)

/-- TOPK. -/
def execTopk (cid : Nat) (run : RunEnv) (s : State) : Outcome State Fault Refusal := .next (s.runItems cid run 0x1B isEngine itemTopk)

/-- SAMPLE. -/
def execSample (cid : Nat) (run : RunEnv) (s : State) : Outcome State Fault Refusal := .next (s.runItems cid run 0x1C isEngine itemSample)

/-- ACQUIRE. -/
def execAcquire (cid : Nat) (run : RunEnv) (s : State) : Outcome State Fault Refusal := .next (s.runItems cid run 0x38 isKeystone itemAcquire)

/-- RELEASE. -/
def execRelease (cid : Nat) (run : RunEnv) (s : State) : Outcome State Fault Refusal := .next (s.runItems cid run 0x39 isKeystone itemRelease)

/-- WAIT. -/
def execWait (cid : Nat) (run : RunEnv) (s : State) : Outcome State Fault Refusal := .next (s.runItems cid run 0x3A isKeystone itemNone)

/-- SIGNAL: its signal is that of its header. -/
def execSignalOp (cid : Nat) (run : RunEnv) (s : State) : Outcome State Fault Refusal := .next (s.runItems cid run 0x3B isKeystone itemNone)

/-- FLAG_WRITE. -/
def execFlagWrite (cid : Nat) (run : RunEnv) (s : State) : Outcome State Fault Refusal := .next (s.runItems cid run 0x3C isKeystone itemFlagWrite)

/-- DUMP_WATCH. -/
def execDumpWatch (cid : Nat) (run : RunEnv) (s : State) : Outcome State Fault Refusal :=
  .next (if isKeystone run.src || isMover run.src then s.watchRuns cid else s)

/-- DUMP_WATCH_LIMIT. -/
def execDumpWatchLimit (cid : Nat) (s : State) : Outcome State Fault Refusal := .next (s.watchExpires cid)

end Sys2Proof.Machine
end

