-- ==== Sys2Proof/Machine/Dispatching.lean ====
section
/-! DEFINITION. The dispatcher: the stages a descriptor passes, waits and shares, the end of tiles, and the completion of
commands (R168 to R182, R191, R192, R242, R243). -/

namespace Sys2Proof.Machine

open Host (Outcome)

/-! ### Opcodes (R166, R167, R221) -/

/-- The opcodes of one slot, of two, and of four (R166, R221, R286, R310, R333). -/
def oneSlot : List Nat := [0x00, 0x02, 0x08, 0x2A, 0x2B, 0x32, 0x33, 0x34, 0x38, 0x39, 0x3A, 0x3B, 0x48, 0x50]
def twoSlots : List Nat :=
  [0x01] ++ (List.range 2).map (0x10 + ·) ++ (List.range 5).map (0x18 + ·) ++ [0x21, 0x28, 0x29, 0x30, 0x31, 0x3C, 0x40]

/-- The slots an opcode's span must have, as its SPAN code; `none` for a value that names no opcode. -/
def opSpan (op : Nat) : Option Nat :=
  if oneSlot.contains op then some 0 else if twoSlots.contains op then some 1 else if op = 0x20 then some 2 else none

/-- Whether an opcode exists in a descriptor version (R167). -/
def opInVersion (op ver : Nat) : Bool :=
  (opSpan op).isSome && (ver == 2 || (ver == 1 && !(op == 0x33 || op == 0x34 || op == 0x48)))

/-- Whether an opcode runs on engines or units of the Course dies (R221, R286, R310, R333). -/
def opOnCourse (op : Nat) : Bool :=
  !([0x00, 0x2A, 0x2B, 0x38, 0x39, 0x3A, 0x3B, 0x3C, 0x50].contains op)

/-- Whether an opcode's outputs are matched by dump watches (R242). -/
def opDumps (op : Nat) : Bool := [0x01, 0x02, 0x10, 0x11, 0x18, 0x19, 0x1A, 0x1B, 0x1C].contains op

/-- The operand check of TIME_SET (R368). -/
def checkTimeSet (s : State) (d : Nat) : OpCheck :=
  let v := fld d 319 256
  let mode := fld d 327 320
  { fails := [inval (bit v 63 || (mode == 1 && v % 2 ^ 26 != 0)) 256, inval (decide (1 < mode)) 320, inval (s.cfgF offTimCfg 1 0 == 1) 0]
    total := 1 }

/-- The operand check of a command (R168 step 7). -/
def opCheck (s : State) (c : Cmd) : OpCheck :=
  let d := c.desc
  let comp := s.cmdComp c
  match hdrOpcode d with
  | 0x01 => checkMove s c
  | 0x02 => checkFill d
  | 0x08 => checkCheck d
  | 0x10 => checkMatmul d
  | 0x11 => checkMatmul d
  | 0x18 => checkEwise d
  | 0x19 => checkReduce d
  | 0x1A => checkNorm d
  | 0x1B => checkTopk d
  | 0x1C => checkSample d
  | 0x20 => checkAttend s d
  | 0x21 => checkKvAppend s d
  | 0x28 => checkGather s c comp
  | 0x29 => checkScatter s c comp
  | 0x2A => checkPublish s comp d
  | 0x2B => checkRetire s comp d
  | 0x30 => checkSearch s comp d
  | 0x31 => checkInsert s comp d
  | 0x32 => checkDelete s comp d
  | 0x33 => checkMerge s comp d
  | 0x34 => checkRepair s comp d
  | 0x3B => checkSignal d
  | 0x3C => checkFlagWrite d
  | 0x40 => checkColl s comp d
  | 0x48 => checkWatch s c.ring d
  | 0x50 => checkTimeSet s d
  | _ => checkNone d

namespace State

/-! ### Dump watches (R242) -/

/-- Bytes of a tensor's dump before padding (R243). -/
def dumpBytes (t : Tref) (rows cols : Nat) : Nat := if t.enc = 1 then t.bytes rows cols else rows * rowBytes t.fmt cols

/-- Bytes of a dump with its padding, without its header. -/
def padded (n : Nat) : Nat := cdiv n 64 * 64

/-- Whether a watch matches an output of a command. -/
def watchMatches (s : State) (c : Cmd) (t : Tref) (x : Watch) : Bool :=
  match s.cmds.get? x.cid with
  | some wc =>
    let w := wc.desc
    x.armed && fld w 391 384 == s.cmdComp c && fld w 415 400 == t.tid && (bit w 392 || fld w 447 416 == hdrStep c.desc)
      && decide (x.claimed < fld w 463 448)
  | none => false

/-- Reserve room for one output in every watch that matches it; without room it is skipped. -/
def reserveDump (s : State) (cid : Nat) (o : Tref × Nat × Nat) : State :=
  (s.eng.watches.map (·.cid)).foldl (fun s wid =>
    match s.cmds.get? cid, s.cmds.get? wid, s.eng.watches.find? (fun x => x.cid == wid) with
    | some c, some wc, some x =>
      if !(s.watchMatches c o.1 x) then s
      else
        let n := padded (dumpBytes o.1 o.2.1 o.2.2) + 64
        let fits := decide (x.next + n ≤ fld wc.desc 383 320)
        let x' : Watch := if fits then { x with claimed := x.claimed + 1, next := x.next + n } else { x with skipped := x.skipped + 1 }
        let s := { s with eng := { s.eng with watches := s.eng.watches.map (fun (y : Watch) => if y.cid = wid then x' else y) } }
        if fits then s.modCmd cid (fun c => { c with dumpAt := c.dumpAt ++ [(wid, o.1.off, x.next)] }) else s
    | _, _, _ => s) s

/-- Whether a command has bound a dead table version or a DEAD index (R305, R350). -/
def boundDead (s : State) (c : Cmd) : Bool :=
  (s.boundVer c).any (fun v => v.2.dead) || (match indexNamed c.desc with | some i => (s.idxAt i).state == 2 | none => false)

/-! ### Steps 10 and 11 and the start of a command (R168, R177, R178) -/

/-- The two result counts of a command that has no work at all: a CHECK of no bytes answers its folded initial value
(R226, R355). -/
def emptyResult (c : Cmd) : Nat × Nat :=
  let d := c.desc
  if hdrOpcode d = 0x08 then
    let a := match segHolding c.segs (fld d 311 256) 1 with
      | some g => g.tbase + (fld d 311 256 - g.vbase)
      | none => 0
    let v := crcEnd (fld d 423 416) (crcStart (fld d 423 416) a (fld d 415 384))
    (fld v 31 0, fld v 63 32)
  else (0, 0)

/-- A command without work completes at dispatch, so that its record shows START equal to END (R171, R355). -/
def endsEmpty (s : State) (cid : Nat) (c : Cmd) : State :=
  (s.modCmd cid (fun x => { x with dispAt := none, r0 := (emptyResult c).1, r1 := (emptyResult c).2 })).finish cid

/-- What a command writes through its operands: the rows of a plain tensor, or a range as it stands (R218). -/
def spansOf (own : Nat) (segs : List Seg) (k : OpCheck) : List Span :=
  (k.uses.filter (fun u => u.wr && u.n != 0)).filterMap (fun u =>
    (segHolding segs u.va u.n).map (fun g =>
      let base := (g.place own u.va).key
      match k.outs.find? (fun o => o.1.off == u.off && o.1.enc == 0) with
      | some o => { off := u.off, base := base, row := rowBytes o.1.fmt o.2.2, stride := o.1.stride, rows := o.2.1 }
      | none => { off := u.off, base := base, row := u.n }))

/-- A command goes to the units it runs on, unless an extent it maps has entered Draining since step 9 (R46, R168, R170). -/
def startCmd (s : State) (i cid : Nat) : State :=
  match s.cmds.get? cid with
  | none => s
  | some c =>
    if c.stopping || s.boundDead c then s.refuse i cid 4 0 else
    let s := s.passOn i cid (hdrChain c.desc)
    let s := s.modCmd cid (fun c => { c with phase := .running, dispAt := some s.now, start := s.stamp40, waitFrom := s.now })
    let s := s.queueIndex cid
    match hdrOpcode c.desc with
    | 0x2B => s.startRetireTable cid
    | 0x40 => s.modGrp (fld c.desc 559 552) (fun g => { g with queue := g.queue ++ [cid] })
    | 0x48 => if c.total = 0 then s.endsEmpty cid c else s.startWatch cid
    | op =>
      let s := if c.total ≠ 0 then s.modCmd cid (fun x => { x with outAt := spansOf s.port c.segs (opCheck s c) }) else s
      let s := if opDumps op && c.total ≠ 0 then (opCheck s c).outs.foldl (fun s o => s.reserveDump cid o) s else s
      if c.total = 0 && decide (op < 0x30) then s.endsEmpty cid c else s

/-- Step 11: the engine share of the bond period (R57). -/
def tryShare (s : State) (i cid : Nat) : State :=
  match s.cmds.get? cid with
  | none => s
  | some c =>
    if opOnCourse (hdrOpcode c.desc) && s.shareSpent (s.cmdComp c) then s.modCmd cid (fun c => { c with phase := .share })
    else s.startCmd i cid

/-- Step 10: compare the wait counter with WAIT_THRESH, when a watch slot is held or free; a landing that ended the wait has compared it
already (R177, R178). -/
def tryWait (s : State) (i cid : Nat) (media : List (Nat × Media)) : State :=
  match s.cmds.get? cid with
  | none => s
  | some c =>
    let s := s.modCmd cid (fun c => { c with phase := .waiting, waitFrom := if c.phase == .fetched then s.now else c.waitFrom })
    if c.met = some 0 then (s.modCmd cid (fun c => { c with watched := false, met := none })).tryShare i cid
    else if c.met.isSome then s.refuse i cid (c.met.getD 0) 0
    else if !c.watched && 65536 ≤ s.watchedAt (lineHome c.waitLine) then s
    else
      let ((v, st), s) := s.ownRead media (64 * c.waitLine) 8
      if st = readWaits then s
      else if st ≠ 0 then s.refuse i cid st 0
      else if v < hdrThresh c.desc then s.modCmd cid (fun c => { c with watched := true })
      else (s.modCmd cid (fun c => { c with watched := false })).tryShare i cid

/-! ### Steps 1 to 9 (R168) -/

/-- A counter-map entry: its status, port and line (R176). -/
def counterEntry (s : State) (r : Ring) (idx : Nat) (wait : Bool) (media : List (Nat × Media)) : (Nat × Nat × Nat) × State :=
  if r.ctrCount ≤ idx then ((2, 0, 0), s)
  else
    let ((e, st), s) := s.ownRead media (r.ctrBase * 4096 + 8 * idx) 8
    let port := fld e 49 38
    let ln := fld e 36 0
    let own := match s.extAt ln with
      | some (_, x) => x.state == .active && x.comp == r.comp
      | none => false
    if st ≠ 0 then ((st, 0, 0), s)
    else if !(bit e 63) || (wait && port != s.port) || (port == s.port && !own) then ((2, 0, 0), s)
    else ((0, port, ln), s)

/-- Step 6 for one index of a descriptor: its status, port and line; a read that fails puts the ring into ERROR (R159). -/
def readCounter (s : State) (i idx : Nat) (wait : Bool) (media : List (Nat × Media)) : (Nat × Nat × Nat) × State :=
  let (x, s) := s.counterEntry (s.ringAt i) idx wait media
  (x, if x.1 = 5 || x.1 = 6 then s.ringError i 4 else s)

/-- The segment table of a ring's context, each entry judged as it stands (R203 to R205). -/
def readSegs (s : State) (i : Nat) (media : List (Nat × Media)) : (List Seg × Nat) × State :=
  let x := s.eng.ctxs.getD (s.ringAt i).ctx {}
  let ((v, st), s) := s.ownRead media (x.segBase * 4096) (32 * x.segCount)
  let segs := (List.range x.segCount).map (fun j =>
    let g := segOf (fld v (256 * j + 255) (256 * j))
    { g with ok := s.segUsable x g })
  ((segs, st), s)

/-- Whether a LOCAL segment of a command maps any part of an extent that is leaving Active (R46). -/
def segsDraining (s : State) (segs : List Seg) : Bool :=
  segs.any (fun g => g.kind == 1 && s.exts.any (fun _ (e : Extent) => e.state != .active && e.state != .free &&
    decide (e.base * 2 ^ 21 < g.tbase + g.size) && decide (g.tbase < (e.base + e.len) * 2 ^ 21)))

/-- The first failure of step 7 that the descriptor itself shows: its status and byte offset. -/
def operandFault (c : Cmd) (k : OpCheck) : Option (Nat × Nat) :=
  if opSpan (hdrOpcode c.desc) ≠ some (hdrSpan c.desc) then some (2, 1)
  else match k.fails.find? (·.1) with
    | some f => some (f.2.1, if f.2.1 = 2 then f.2.2 else 0)
    | none => (k.uses.find? (fun u => !(u.ok c.segs))).map (fun u => (2, u.off))

/-- Bind the KV blocks an attention opcode names: `none` while reads it waits for are outstanding (R277). -/
def bindBlocks (s : State) (i cid : Nat) (media : List (Nat × Media)) : Option Nat × State :=
  match s.cmds.get? cid with
  | none => (none, s)
  | some c =>
    if !(hdrOpcode c.desc == 0x20 || hdrOpcode c.desc == 0x21) then (some 0, s)
    else
      let w : Work := { s := s, cid := cid, src := 1244 + (s.ringAt i).owner, comp := s.cmdComp c, media := media }
      let w := w.bindKv
      if w.blocked then (none, s.issueWants cid w.wants)
      else (some w.bad, w.s.modCmd cid (fun c => { c with prefetch := Tab.empty }))

/-- Steps 7 to 11 of R168. -/
def examineOperands (s : State) (i cid : Nat) (media : List (Nat × Media)) : State :=
  let ((segs, st), s) := s.readSegs i media
  if st = readWaits then s
  else if st ≠ 0 then s.refuse i cid st 0
  else
    let s := s.modCmd cid (fun c => { c with segs := segs, ctx := (s.ringAt i).ctx })
    match s.cmds.get? cid with
    | none => s
    | some c =>
      let k := opCheck s c
      match operandFault c k with
      | some (st, off) => s.refuse i cid st off
      | none =>
        match s.bindBlocks i cid media with
        | (none, s) => s
        | (some bad, s) =>
          if bad ≠ 0 then s.refuse i cid bad (if bad = 2 then 32 else 0)
          else
            let s := (s.modCmd cid (fun c => { c with total := k.total })).bindIndex cid
            let comp := s.comps.getD (s.cmdComp c) {}
            if opOnCourse (hdrOpcode c.desc) && (comp.shareNow == 0 || comp.budgetNow == 0) then
              (s.bumpMeter (s.cmdComp c) mRefused 1).refuse i cid 10 0
            else if s.segsDraining segs || s.boundDead c then s.refuse i cid 4 0
            else if hdrThresh c.desc = 0 then s.tryShare i cid
            else s.tryWait i cid media

/-- The failures of a descriptor's header, in order: the status and offset of the first, if any (R168 steps 1 to 5). The
wait for the end of a chain's predecessor is not a failure and stands apart, after the first two. -/
def headerFault (s : State) (i : Nat) (c : Cmd) : Option (Nat × Nat) :=
  let r := s.ringAt i
  let op := hdrOpcode c.desc
  if r.chainHead && r.chainFail then some (8, 0)
  else if c.group ≠ 0 && !((s.grpAt (c.group - 1)).state == .active) then some (8, 0)
  else if hdrVersion c.desc ≠ r.version then some (3, 0)
  else if !(opInVersion op r.version) then some (12, 0)
  else if op = 0x50 && i ≠ 0 then some (2, 0)
  else none

/-- The signal counter of a descriptor, where it names one (R168 step 6). -/
def signalCounter (s : State) (i d : Nat) (media : List (Nat × Media)) : (Nat × Nat × Nat) × State :=
  if hdrSignal d then s.readCounter i (hdrSigCtr d) false media else ((0, 0, 0), s)

/-- The wait counter of a descriptor, where it waits (R168 step 6). -/
def waitCounter (s : State) (i d : Nat) (media : List (Nat × Media)) : (Nat × Nat × Nat) × State :=
  if hdrThresh d = 0 then ((0, 0, 0), s) else s.readCounter i (hdrWaitCtr d) true media

/-- Steps 6 and on of R168. -/
def examineCounters (s : State) (i cid : Nat) (d : Nat) (media : List (Nat × Media)) : State :=
  let x := s.signalCounter i d media
  if x.1.1 = readWaits then x.2
  else if x.1.1 ≠ 0 then x.2.refuse i cid x.1.1 (if x.1.1 = 2 then 14 else 0)
  else
    let y := x.2.waitCounter i d media
    if y.1.1 = readWaits then y.2
    else if y.1.1 ≠ 0 then y.2.refuse i cid y.1.1 (if y.1.1 = 2 then 12 else 0)
    else
      (y.2.modCmd cid (fun c => { c with sigPort := x.1.2.1, sigLine := x.1.2.2, waitLine := y.1.2.2 })).examineOperands i cid
        media

/-- Take up a descriptor's examination (R168). -/
def examine (s : State) (i cid : Nat) (c : Cmd) (media : List (Nat × Media)) : State :=
  if c.readFail ≠ 0 then s.refuse i cid c.readFail 0
  else if hdrSpan c.desc = 3 then s.refuse i cid 2 1
  else if (s.ringAt i).chainHead && (s.ringAt i).chainWait.isSome then s
  else match s.headerFault i c with
    | some f => s.refuse i cid f.1 f.2
    | none => s.examineCounters i cid c.desc media

/-- The dispatcher takes up the first descriptor of a ring that has not been dispatched (R168). -/
def dispatchRing (s : State) (i : Nat) (media : List (Nat × Media)) : State :=
  match s.undispatched i with
  | [] => s
  | cid :: _ =>
    match s.cmds.get? cid with
    | none => s
    | some c =>
      if c.phase == .fetched then s.examine i cid c media
      else if c.phase == .waiting then s.tryWait i cid media
      else s.tryShare i cid

/-- A wait is examined again after a landing on its line (R177). -/
def waitAgain (s : State) (cid : Nat) : State :=
  match s.cmds.get? cid with
  | some c => if c.phase == .waiting then s.tryWait c.ring cid [] else s
  | none => s

/-- The ring's wait limit has passed for a command: at step 10, in the order of COLLs, for a version still bound, for a
RECLAIM, or for a TIME_SET that waits for lock (R177, R292, R306, R349, R368). -/
def waitExpires (s : State) (cid : Nat) : State :=
  match s.cmds.get? cid with
  | none => s
  | some c =>
    if s.now < c.waitFrom + 2 ^ (s.ringAt c.ring).waitExp then s
    else if c.phase == .waiting then (if c.met.isSome then s else s.refuse c.ring cid 7 0)
    else if !(c.phase == .running) then s
    else match hdrOpcode c.desc with
      | 0x40 => if s.collWaits cid c then s.abandonCmd cid 7 else s
      | 0x2B =>
        let t := fld c.desc 303 288
        let v := fld c.desc 287 256
        if (s.tblVer t v).any (fun x => x.state == 3 && decide (0 < x.bound)) then
          (s.modVer t v (fun x => { x with state := 2 })).abandonCmd cid 7
        else s
      | 0x34 =>
        if fld c.desc 279 272 = 1 && c.pos = 0 && c.bound ≠ 0 && (s.idxAt (c.bound - 1)).disp.head? != some cid then s.abandonCmd cid 7 else s
      | 0x50 =>
        if fld c.desc 327 320 = 1 && !s.time.lock then
          ({ s with time := { s.time with atSync := if s.time.atSync = some cid then none else s.time.atSync } }).abandonCmd cid 7
        else s
      | _ => s

/-! ### Tiles (R191, R192, R59) -/

/-- A tile ends: an engine's time is charged, and the command ends with its last tile (R59, R191). -/
def tileEnds (s : State) (cid src : Nat) : State :=
  match s.cmds.get? cid with
  | none => s
  | some c =>
    if !(c.phase == .running && c.busy.has src) then s
    else
      let s := (noteTile cid (chargeEngine cid s src) src).modCmd cid (fun c =>
        { c with tiles := c.tiles.set src (c.tiles.getD src 0 + 1), busy := c.busy.erase src, mid := c.mid.erase src })
      match s.cmds.get? cid with
      | some c => if workLeft c && !c.stopping then s else if c.busy.size = 0 then s.finish cid else s.markEnds cid
      | none => s

/-- A tile that has not ended 40 µs after the stop reached its die is abandoned (R192). -/
def abandonLate (s : State) (cid : Nat) : State :=
  match s.cmds.get? cid with
  | some c => if c.phase == .running && c.stopping && decide (c.stopAt + 40000 ≤ s.now) then s.abandonCmd cid 4 else s
  | none => s

/-! ### Completion (R170 to R173, R179, R180, R210, R211, R243) -/

/-- Whether every write a command issued has completed; zero-length reads behind its host writes are sent and their
failures noted (R210). -/
def writesDone (s : State) (cid : Nat) (c : Cmd) : Bool × State :=
  if c.writesOut ≠ 0 || s.signalOwed cid then (false, s)
  else
    let open_ := c.hostHeads.keys.filter (fun h => !(c.prefetch.has (flushKey h)))
    if !open_.isEmpty then (false, s.issueWants cid (open_.map (fun h => { place := .host h 0, len := 0 })))
    else
      let bad := (c.hostHeads.keys.map (fun h => c.prefetch.getD (flushKey h) {})).filter (fun x => x.status != 0)
      let s := s.modRing c.ring (fun r => { r with hostOut := r.hostOut.mapV (fun _ t => t.erase cid) })
      (true, s.modCmd cid (fun c =>
        bad.foldl (fun c b => failWith b.time b.status c) { c with hostHeads := Tab.empty, prefetch := Tab.empty }))

/-- The header of a dump (R243). -/
def dumpHeader (s : State) (c : Cmd) (o : Tref × Nat × Nat) : Nat :=
  put 1 511 511 + put c.status 299 292 + put c.ring 291 280 + put c.seq 279 256 + put (dumpBytes o.1 o.2.1 o.2.2) 255 192
    + put o.2.2 191 160 + put o.2.1 159 128 + put o.1.enc 127 124 + put o.1.fmt 123 120 + put (s.cmdComp c) 119 112
    + put o.1.tid 111 96 + put (hdrStep c.desc) 95 64 + put s.stamp 63 0

/-- Land the padding and header of one dump, and mark it (R243, R414). -/
def landDump (s : State) (c : Cmd) (d : Nat × Nat × Nat) : State :=
  match s.cmds.get? d.1, (opCheck s c).outs.find? (fun o => o.1.off == d.2.1) with
  | some wc, some o =>
    let buf := fld wc.desc 311 256
    (match segHolding wc.segs buf 1 with
    | none => s
    | some g =>
      let a := g.tbase + (buf - g.vbase) + d.2.2
      let n := dumpBytes o.1 o.2.1 o.2.2
      let (free, s) := s.draw
      let s := s.ownWrite (a + n) (bytesOf (padded n - n) free)
      let s := s.ownWrite (a + padded n) (bytesOf 64 (s.dumpHeader c o))
      let s := { s with eng := { s.eng with watches := s.eng.watches.map (fun (x : Watch) => if x.cid = d.1 then { x with taken := x.taken + 1 } else x) } }
      s.mark (1244 + (s.ringAt 0).owner) 0x08 (s.cmdComp c) false
        (put (hdrStep c.desc) 143 112 + put o.1.tid 111 96 + put c.seq 95 72 + put c.ring 71 60 + put (min n 0xFFFF_FFFF) 59 28))
  | _, _ => s

/-- A completion record (R171). A descriptor whose slots could not be read shows TAG 0 and OPCODE 0; what version and
INTERRUPT flag a first slot that failed holds is open. -/
def recordOf (c : Cmd) (n m endAt free : Nat) : Nat :=
  let start := if c.dispAt.isSome then c.start else endAt
  let hurt := c.readFail != 0
  put c.r1 255 224 + put c.r0 223 192 + put (min (c.energy / 1000) 0xFFFF_FFFF) 191 160 + put endAt 159 120 + put start 119 80
    + put (if hurt then 0 else hdrTag c.desc) 79 48 + put c.seq 47 24 + put (phaseOf n m) 23 23
    + put (if c.firstFail then free else hdrVersion c.desc) 19 16 + put (if hurt then 0 else hdrOpcode c.desc) 15 8 + put c.status 7 0

/-- What the end of a command gives back: its blocks, bindings, place in its group and its ring's holds. -/
def releaseCmd (s : State) (cid : Nat) (c : Cmd) : State :=
  let s := ((s.kvRelease c).unbindTable c).unbindIndex cid c
  let s := (s.grpNote c c.engNs).collDone cid
  let s := { s with cmds := s.cmds.erase cid }.reapVersions
  let s := if c.group = 0 then s else s.grpDrained (c.group - 1)
  s.modRing c.ring (fun r => { r with
    publishHold := if r.publishHold = some cid then none else r.publishHold
    chainFail := if r.chainWait = some cid then decide (1 < c.status) else r.chainFail
    chainWait := if r.chainWait = some cid then none else r.chainWait })

/-- Pages a command has placed in EVICTING and not seen to their end (R264). -/
def evictedBy (s : State) (cid : Nat) : List Nat :=
  s.eng.pages.keys.filter (fun k => (s.eng.pages.get? k).any (fun (p : MigPage) => p.state == .evicting && p.waiters == [cid]))

/-- Write the completion record of a command and what follows it. Its writes have completed, and with them the evictions it had begun; a
CHECK that failed answers 0 (R171, R173, R182, R264, R358, R402, R406). -/
def writeRecord (s : State) (cid : Nat) : State :=
  match s.cmds.get? cid with
  | none => s
  | some c =>
    let ks := s.evictedBy cid
    let s := ks.foldl (fun s k => s.pageGone k) s
    let c := { c with ended := s.stamp40, r0 := if hdrOpcode c.desc = 0x08 && 1 < c.status then 0 else min (c.r0 + ks.length) 0xFFFF_FFFF
                      r1 := if hdrOpcode c.desc = 0x08 && 1 < c.status then 0 else min c.r1 0xFFFF_FFFF }
    let s := c.dumpAt.foldl (fun s d => s.landDump c d) s
    let r := s.ringAt c.ring
    let (free, s) := if c.firstFail then s.draw else (0, s)
    let s := s.ownWrite (r.cqBase * 4096 + 32 * (r.cqTail % r.cqEntries)) (bytesOf 32 (recordOf c r.cqTail r.cqEntries c.ended free))
    let s := s.modRing c.ring (fun r => { r with cqTail := (r.cqTail + 1) % 2 ^ 32 })
    let s := if (if c.firstFail then bit free 4 else hdrInterrupt c.desc) && r.intEn then s.sendMsix r.intHead r.intVec else s
    let s := s.bumpCount r.comp (if c.status ≤ 1 then pCmdOk else pCmdFail) 1
    let s := if c.status = 4 then s.bumpMeter r.comp mRevoked 1 else s
    let s := s.mark (1244 + r.owner) 0x03 r.comp false (cmdMark c c.status c.begun.size)
    s.releaseCmd cid c

/-- Apply the signal of a command that ended with OK or PARTIAL (R170, R179, R180); it waits while its line cannot take
it. -/
def applySignal (s : State) (cid : Nat) (c : Cmd) : State :=
  let action := if hdrOpcode c.desc = 0x3B && fld c.desc 263 256 = 1 then 3 else 1
  let gone (s : State) : State := s.modCmd cid (fun c => { c with phase := .signalled, signalled := true })
  if c.sigPort = s.port then
    if !(s.activeAt c.sigLine) then gone ((s.dropWrite c.sigLine).modCmd cid (failWith s.stamp 4))
    else if !(s.flagReady s.port c.sigLine) then s
    else gone (s.localFlag cid c.sigLine action (hdrSigAdd c.desc) 0xFF)
  else match s.remoteFlag cid c.sigPort c.sigLine action (hdrSigAdd c.desc) 0xFF (.signal cid) with
    | (some _, s) => gone s
    | (none, s) => gone (s.modCmd cid (failWith s.stamp 11))

/-- Carry the end of a command as far as it can go: release, signal, record (R170). -/
def completeCmd (cid : Nat) : Nat → State → State
  | 0, s => s
  | n + 1, s =>
    match s.cmds.get? cid with
    | none => s
    | some c =>
      if c.phase == .signalled && (s.signalPending cid || s.remotes.any (fun _ r => r.purpose == .signal cid)) then s
      else if !(c.phase == .ended || c.phase == .signalled) then s
      else if givesBack c then completeCmd cid n (s.giveBack cid c)
      else
        let (ok, s) := if 1 < c.status || hdrRelease c.desc then s.writesDone cid c else (true, s)
        if !ok then s
        else match s.cmds.get? cid with
          | none => s
          | some c =>
            if hdrSignal c.desc && c.status ≤ 1 && !c.signalled && c.readFail = 0 then completeCmd cid n (s.applySignal cid c)
            else s.writeRecord cid

/-- A write to an MSI-X vector's control word; unmasking sends the pending message (R182). -/
def vectorControl (s : State) (head vec : Nat) (mask : Bool) : State :=
  if !(s.headUp head) || 2048 ≤ vec then s
  else
    let key := 2048 * head + vec
    let v := s.msix.getD key {}
    let s := { s with msix := s.msix.set key { v with masked := mask, pend := v.pend && mask } }
    if v.masked && !mask && v.pend then s.sendMsix head vec else s

end State

/-- DISPATCH. -/
def execDispatch (ring : Nat) (media : List (Nat × Media)) (s : State) : Outcome State Fault Refusal := .next (s.dispatchRing ring media)

/-- WAIT_SATISFIED. -/
def execWaitSatisfied (cid : Nat) (s : State) : Outcome State Fault Refusal := .next (s.waitAgain cid)

/-- WAIT_LIMIT_EXPIRY. -/
def execWaitLimitExpiry (cid : Nat) (s : State) : Outcome State Fault Refusal := .next (s.waitExpires cid)

/-- TILE_END. -/
def execTileEnd (cid src : Nat) (s : State) : Outcome State Fault Refusal := .next (s.tileEnds cid src)

/-- TILE_ABANDON_TIMEOUT. -/
def execTileAbandonTimeout (cid : Nat) (s : State) : Outcome State Fault Refusal := .next (s.abandonLate cid)

/-- COMMAND_COMPLETE. -/
def execCommandComplete (cid : Nat) (s : State) : Outcome State Fault Refusal := .next (State.completeCmd cid 4 s)

/-- MSIX_VECTOR_CONTROL. -/
def execMsixVectorControl (head vec : Nat) (mask : Bool) (s : State) : Outcome State Fault Refusal := .next (s.vectorControl head vec mask)

end Sys2Proof.Machine
end

