-- ==== Sys2Proof/Machine/RemoteEnd.lean ====
section
/-! DEFINITION. The end of the controller's own requests to peers and host memory, and of the reads that fill migration pages
(R84, R85, R136 to R139, R210, R213, R264, R265, R441). -/

namespace Sys2Proof.Machine

open Host (Outcome)

namespace State

/-! ### Migration pages (R264, R265) -/

/-- A piece of a page is in hand: it is written into the frames. -/
def putPiece (s : State) (k : Nat) (p : MigPage) (j data : Nat) : State :=
  (s.ownWrite (s.pageBase p + 4096 * j) (bytesOf 4096 data)).modPage k (fun p => { p with pieces := p.pieces.erase j })

/-- A read of a fill has returned (R264, R265, R441). -/
def fillArrives (s : State) (k addr st data : Nat) : State :=
  match s.eng.pages.get? k with
  | none => s
  | some p =>
    if st ≠ 0 then (s.fillFails k st).pumpFaults
    else match p.sealing with
      | none => s.putPiece k p ((addr - p.host) / 4096) data
      | some (key, ctx, e) =>
        let body := decide (p.host ≤ addr) && decide (addr < p.host + pageSize p.big)
        let j := if body then (addr - p.host) / 4096 else (addr - e) / 32
        let held := p.held.set (2 * j + b2n (!body)) data
        let s := s.modPage k (fun p => { p with held := held })
        match held.get? (2 * j), held.get? (2 * j + 1) with
        | some ct, some ent =>
          (match Config.aesOpen key (fld ent 223 128) (Work.sealAad ctx p.head (p.host + 4096 * j)) ct (fld ent 127 0) with
          | some d => (s.putPiece k p j d).modPage k (fun p => { p with held := (p.held.erase (2 * j)).erase (2 * j + 1) })
          | none => (s.fillFails k 11).pumpFaults)
        | _, _ => s

/-- Every read of a fill has completed: the page is RESIDENT and clean, and waiting accesses retry (R264). -/
def pageFilled (s : State) (k : Nat) : State :=
  match s.eng.pages.get? k with
  | none => s
  | some p =>
    if p.state == .filling && p.pieces.size == 0 then
      (s.modPage k (fun p => { p with state := .resident, dirty := false, waiters := [] })).pumpFaults
    else s

/-! ### Completions and timeouts (R84, R85) -/

end State

/-- The target of a request, as the remote-fault alarm names it (R84). -/
def Remote.target (r : Remote) : Nat := if r.host then 0x1000 + r.head else r.port

/-- The status a remote completion gives a command (R85). -/
def RemStatus.code : RemStatus → Nat
  | .ok => 0
  | .unsupportedRequest => 11
  | .completerAbort => 11
  | .poison => 6

namespace State

/-- Raise the remote-fault alarm for the target of a request; a first occurrence for a port aborts the groups with a member
there (R84, R295). -/
def remoteFault (s : State) (r : Remote) : State :=
  let t := r.target
  let newly := !(s.remFault.has t)
  let s := ({ s with remFault := s.remFault.add t }).alarm (4 + r.head) 11 t (some true)
  if newly && !r.host then s.memberFault r.port else s

/-- A completion has returned from a target: its alarm ends (R84). -/
def targetAnswers (s : State) (r : Remote) : State :=
  if s.remFault.has r.target then
    let s := { s with remFault := s.remFault.erase r.target }
    if s.remFault.size = 0 then s.alarmEnd (4 + r.head) 11 else s
  else s

/-- A failed write: its command has the status, or, when it has completed, its ring keeps it for RELEASE (R210, R238). -/
def writeFails (s : State) (r : Remote) (st : Nat) : State :=
  match r.cid with
  | none => s
  | some c =>
    if s.cmds.has c then s.modCmd c (failWith s.stamp st)
    else match r.ring with
      | some i => s.modRing i (fun x => { x with lateFail := x.lateFail ++ [c] })
      | none => s

/-- A write of a command has ended: one fewer is outstanding, and each later RELEASE of its ring counts it (R210, R238). -/
def writeEnds (s : State) (cid ring : Option Nat) : State :=
  match cid with
  | none => s
  | some c =>
    let s := s.modCmd c (fun x => { x with writesOut := x.writesOut - 1 })
    { s with cmds := s.cmds.mapV (fun k (x : Cmd) =>
        if x.phase == .running && hdrOpcode x.desc == 0x39 && decide (c < k) && ring == some x.ring then { x with r0 := x.r0 + 1 } else x) }

/-- A port begins its resynchronisation. Without a route the flag fails at once, which raises the remote-fault alarm too (R84, R213,
R468). -/
def beginSync (s : State) (r : Remote) : State :=
  let s := s.startPeerSync r.port (r.addr / 64)
  if (s.route r.port).isNone then s.remoteFault r else s

/-- A flag to a peer has ended; one that failed starts the resynchronisation of its port (R212, R213). -/
def flagEnds (s : State) (id : Nat) (r : Remote) (st : Nat) : State :=
  let p := s.peer r.port
  if st = 0 then (if p.flag = some id then s.setPeer r.port { p with flag := none } else s)
  else if p.resync then s
  else s.beginSync r

/-- A resynchronising flag has ended (R213). -/
def peerSyncEnds (s : State) (r : Remote) (st : Nat) : State :=
  let p := s.peer r.port
  if st = 0 then
    let seq := match r.flag with | some (_, q, _) => q | none => 0
    s.setPeer r.port { p with count := 0, next := (seq + 1) % 65536, flag := none, resync := false }
  else
    (if st = 7 then s else s.remoteFault r).beginSync r

/-- A write that waited for the partner's copy of its line lands. What waited for it waits for its own partner write now, or
completes (R64, R136, R137). -/
def writeLands (s : State) (id : Nat) (q : LineReq) : State :=
  let n := s.eng.kvDue.length
  let x := s.landNow q.cid q.line q.data q.be q.full q.poison (q.action == 0)
  let s := (x.2.owed.getD id []).foldl (fun s r => s.completeLanded n r x.1) { x.2 with owed := x.2.owed.erase id }
  if x.1.isSome then s else s.writeEnds q.cid (q.cid.bind (fun c => (s.cmds.get? c).map (fun (c : Cmd) => c.ring)))

/-- Serve a request that waited for the partner's copy of its line, which is in hand or not to be had (R137). A read of the
controller's own finds the copy when it asks again; the patrol's has repaired the line. -/
def mirrorServe (s : State) (id : Nat) (q : LineReq) : State :=
  let (d, lost) := match s.mirCopy.get? q.line with
    | some (some d) => (d, false)
    | _ => (0, true)
  if q.kind == .none && q.cls == .wr then s.writeLands id q
  else if q.cls == .wr then s.landHere q
  else if q.kind == .none || q.kind == .signal then s
  else s.respond q d (lost || (s.lineAsHeld q.line d).poison)

/-- A read of the partner's copy has ended: every request that waits for the line is served, in the order of arrival (R65,
R137). -/
def mirrorReadEnds (s : State) (id ln st data : Nat) : State :=
  if !(s.mirReads.has id) then s
  else
    let d : Line := BitVec.ofNat 512 data
    let qs := s.mirReads.rows.filter (fun x => x.2.line == ln)
    let s := { s with mirReads := s.mirReads.filter (fun _ q => q.line != ln) }
    let s := if st = 0 then { s.mirrorRepair ln d with mirCopy := s.mirCopy.set ln (some d) }
      else { s.partnerLost ln with mirCopy := s.mirCopy.set ln none }
    let s := qs.foldl (fun s x => s.mirrorServe x.1 x.2) s
    let own := qs.any (fun x => x.2.kind == .signal && x.2.cls == .unc)
    let s := if own && (st ≠ 0 || s.chanFailed (lineChan ln)) then s else { s with mirCopy := s.mirCopy.erase ln }
    s.ackConflicts

/-- Whether an extent is MIRRORED or RESYNC. -/
def mirrorLive (s : State) (i : Nat) : Bool := (s.exts.get? i).any (fun e => e.state == .active && (e.mir == .mirrored || e.mir == .resync))

/-- A request has ended with a status: 0, 6 POISON, 7 TIMEOUT or 11 FAULT. -/
def endRemote (s : State) (id : Nat) (r : Remote) (st data : Nat) : State :=
  let gone (s : State) : State := { s with remotes := s.remotes.erase id }
  match r.purpose with
  | .mirror i _ =>
    if st ≠ 0 && s.mirrorLive i then gone (s.degrade i) else ((gone s).writeEnds r.cid r.ring).finishOwed id
  | .mirrorRead ln => (gone s).mirrorReadEnds id ln st data
  | .resync i ln =>
    if st = 0 then (gone s).resyncAcked i ln
    else if (s.exts.get? i).any (fun e => e.mir == .resync) then gone (s.degrade i) else gone s
  | .probe i =>
    if st = 0 && bit (s.cfg offMedMirCfg) 16 && (s.exts.get? i).any (fun e => e.state == .active && e.mir == .degraded) then (gone s).enterResync i
    else gone s
  | .read c key =>
    let got : Fetched := { status := st, data := if st = 0 || st = 6 then data % 2 ^ (8 * r.len) else 2 ^ (8 * r.len) - 1, time := s.stamp }
    (gone s).modCmd c (fun x => { x with prefetch := x.prefetch.set key got })
  | .write _ =>
    let s := (gone s).writeEnds r.cid r.ring
    if st = 0 then s else s.writeFails r st
  | .flag _ => ((if st = 0 then gone s else (gone s).writeFails r st)).flagEnds id r st
  | .signal _ => ((if st = 0 then gone s else (gone s).writeFails r st)).flagEnds id r st
  | .coll c =>
    let s := (gone s).writeEnds r.cid r.ring
    let s := if st = 0 then s else if (s.cmds.get? c).any (fun (x : Cmd) => x.phase == .running) then s.abandonCmd c st else s.writeFails r st
    if r.flag.isSome then s.flagEnds id r st else s
  | .abort _ => (gone s).flagEnds id r st
  | .peerSync => (gone s).peerSyncEnds r st
  | .fill k => (gone s).fillArrives k r.addr st data
  | .evict _ => gone s

/-- A completion returns: it is consumed, or discarded and counted when its request has timed out (R84, R85). -/
def remoteReturns (s : State) (id : Nat) (status : RemStatus) (data : Nat) : State :=
  match s.remotes.get? id with
  | some r => if r.sent.isSome then ((s.targetAnswers r).endRemote id r status.code data).pump else s
  | none =>
    match s.timedOut.get? id with
    | some r => (({ s with timedOut := s.timedOut.erase id }).bump cLateCpl 1).targetAnswers r
    | none => s

/-- From when REMOTE_TIMEOUT counts for a request: its transmission, or its issue when its link was down then or its peer is being
resynchronised (R84, R213). -/
def timeoutFrom (s : State) (r : Remote) : Option Nat :=
  if r.early then some r.issued
  else if r.sent.isSome then r.sent
  else if r.ordered && (s.peer r.port).resync && r.purpose != .peerSync then some r.issued
  else none

/-- A request times out (R84). -/
def remoteExpires (s : State) (id : Nat) : State :=
  match s.remotes.get? id with
  | none => s
  | some r =>
    match s.timeoutFrom r with
    | none => s
    | some t =>
      if s.now < t + r.limit then s
      else
        let s := if r.sent.isSome then { s with timedOut := s.timedOut.set id r } else s
        ((s.remoteFault r).endRemote id r 7 (2 ^ (8 * r.len) - 1)).pump

end State

/-- REMOTE_COMPLETION. -/
def execRemoteCompletion (id : Nat) (status : RemStatus) (data : Nat) (s : State) : Outcome State Fault Refusal :=
  .next (s.remoteReturns id status data)

/-- REMOTE_TIMEOUT. -/
def execRemoteTimeout (id : Nat) (s : State) : Outcome State Fault Refusal := .next (s.remoteExpires id)

/-- PAGE_FAULT. -/
def execPageFault (cid addr : Nat) (s : State) : Outcome State Fault Refusal := .next (s.tileFaults cid addr)

/-- PAGE_RESIDENT. -/
def execPageResident (page : Nat) (s : State) : Outcome State Fault Refusal := .next (s.pageFilled page)

end Sys2Proof.Machine
end

