-- ==== Sys2Proof/Machine/Extents.lean ====
section
/-! DEFINITION. The commits of the ADR block and the life of an extent: creation, dynamic capacity, Draining, Revoked,
Scrubbing and Free (R39 to R53, R89, R133, R442). -/

namespace Sys2Proof.Machine

open Host (Outcome)

namespace State

/-! ### Dynamic capacity (R51, R52) -/

/-- Whether the bytes of a head's dynamic-capacity region `w` hold an extent whole (R41, R466). -/
def regionHolds (w base len : Nat) : Bool := bit w 63 && decide (fld w 21 0 ≤ base) && decide (base + len ≤ fld w 21 0 + fld w 54 32)

/-- A head's regions, as committed. -/
def regionsOf (s : State) (h : Nat) : List Nat := (List.range 8).map (fun r => s.cfg (offHed h + 0x100 + 8 * r))

/-- Whether an extent lies in a dynamic-capacity region of a head. -/
def regionCovers (s : State) (h base len : Nat) : Bool := (s.regionsOf h).any (fun w => regionHolds w base len)

/-- Extents presented on a head; one whose Add Capacity is still deferred is not among them (R52; DESIGN CHOICE, log entry 29). -/
def presentedOn (s : State) (h : Nat) : Nat := (s.exts.vals.filter (fun e => e.presented.has h)).length

/-- The heads an access list names (R40). -/
def aclHeads (acl : List Acl) : List Nat := (List.range 12).filter (fun h => acl.any (fun a => a.head == h))

/-- Change an extent. -/
def modExt (s : State) (i : Nat) (f : Extent → Extent) : State := { s with exts := s.exts.modify i f }

/-- The tag a dynamic-capacity record carries (R52). -/
def capTag (i : Nat) (e : Extent) : Nat := put i 15 0 + put e.comp 23 16 + put e.gen 31 24 + put e.tag 127 32

/-- Post Add Capacity on a head, or defer it while no region covers the extent or no place is free (R52). -/
def present (s : State) (i h : Nat) : State :=
  match s.exts.get? i with
  | none => s
  | some e =>
    if s.regionCovers h e.base e.len && s.presentedOn h < 4096 then
      (s.modExt i (fun e => { e with presented := e.presented.add h, deferred := e.deferred.erase h })).emit
        (.addCapacity h i (e.base * 2 ^ 21) (e.len * 2 ^ 21) (capTag i e))
    else s.modExt i (fun e => { e with deferred := e.deferred.add h })

/-- The Add Capacity records deferred on a head, tried again after its commit, or when a presented place of it becomes free (R52,
R466). -/
def postDeferred (s : State) (h : Nat) : State :=
  s.exts.keys.foldl (fun s i =>
    match s.exts.get? i with
    | some e => if e.deferred.has h && (e.state == .active || e.state == .draining) then s.present i h else s
    | none => s) s

/-- End an extent's presentation on a head, posting Forced Capacity Release when it had been posted there; its place goes to an
extent that waits for one (R52). -/
def unpresent (s : State) (i h : Nat) (post : Bool) : State :=
  match s.exts.get? i with
  | none => s
  | some e =>
    let s' := s.modExt i (fun e => { e with presented := e.presented.erase h, deferred := e.deferred.erase h })
    (if post && e.presented.has h then s'.emit (.forcedRelease h i (e.base * 2 ^ 21) (e.len * 2 ^ 21) (capTag i e)) else s').postDeferred h

/-! ### States (R44, R416) -/

/-- The code of an extent's state (R40). -/
def extCode (x : ExtState) : Nat := match x with
  | .free => 0 | .active => 1 | .draining => 2 | .revoked => 3 | .scrubbing => 4

/-- Move an extent to a state, logging the transition (R44, R416). Its source number is K0's, where every transition is logged once (DESIGN
CHOICE, log entry 68). -/
def moveExt (s : State) (i : Nat) (dst : ExtState) : State :=
  match s.exts.get? i with
  | none => s
  | some e =>
    (s.modExt i (fun e => { e with state := dst })).logAt 0 1244 logExtent 0
      (put i 127 114 + put e.gen 113 106 + put e.comp 105 98 + put (extCode e.state) 97 95 + put (extCode dst) 94 92)

/-! ### CREATE (R41, R42, R89, R133, R268) -/

/-- Access-list entry `n` of a frame (R40). -/
def aclEntry (f : Frame) (n : Nat) : Acl :=
  let w := f.word (offAdrAcl + 8 * (n / 2))
  let x := if n % 2 = 0 then fld w 31 0 else fld w 63 32
  { wr := bit x 16, head := fld x 15 12, spid := fld x 11 0 }

/-- The access list of a frame. -/
def aclOf (f : Frame) : List Acl := (List.range (min 256 (f.fld offAdrAttr 40 32))).map (aclEntry f)

/-- The place of the first entry that satisfies `p`, as a register offset; the check fails when there is one. -/
def aclCheck (r : Reason) (acl : List Acl) (p : Acl → Bool) : Check :=
  ⟨r, offAdrAcl + 4 * acl.findIdx p, acl.any p⟩

/-- Whether a range meets the KV pool in force (R268). -/
def meetsKvPool (s : State) (base len : Nat) : Bool :=
  s.kvOn && meets base len (poolBase (s.cfg offKvPool)) (poolLen (s.cfg offKvPool))

/-- The lowest contiguous run of `n` units of the parity reserve that no extent holds (R133). -/
def freeShare (s : State) (n : Nat) : Option Nat :=
  let w := s.cfg offMedPar
  let lo := fld w 21 0
  let hi := lo + fld w 54 32
  let used := s.exts.vals.filterMap (·.share)
  if !(bit w 63) then none
  else
    let starts := (lo :: used.map (fun u => u.1 + u.2)).filter (fun b =>
      decide (lo ≤ b) && decide (b + n ≤ hi) && used.all (fun u => !(meets b n u.1 u.2)))
    starts.foldl (fun (m : Option Nat) b => match m with | some x => some (min x b) | none => some b) none

/-- The extent a frame of the ADR window describes. -/
def extOf (f : Frame) : Extent :=
  { base := f.fld offAdrRange 21 0, len := f.fld offAdrRange 54 32, comp := f.fld offAdrAttr 55 48
    scrub := bit (f.word offAdrAttr) 7, coh := f.fld offAdrAttr 5 4, prot := f.fld offAdrAttr 3 2
    partner := f.fld offAdrMirror 59 48, pbase := f.fld offAdrMirror 21 0
    tag := f.word offAdrTag + (f.word (offAdrTag + 8)) % 2 ^ 32 * 2 ^ 64, acl := aclOf f }

/-- Whether an extent lies in a region of type HDM-H on a head that names it (R89). -/
def inHdmH (s : State) (e : Extent) : Bool :=
  (aclHeads e.acl).any (fun h => (s.regionsOf h).any (fun w => regionHolds w e.base e.len && !(bit w 62)))

/-- The checks of an access list, for an extent that is given (R41). -/
def aclChecks (s : State) (e : Extent) (acl : List Acl) : List Check :=
  let hosts := (s.comps.getD e.comp {}).hosts
  [ aclCheck .encoding acl (fun a => decide (12 ≤ a.head) && decide (a.head ≤ 14)),
    aclCheck .acl acl (fun a => s.comps.has e.comp && !(hosts.contains a.spid) && !(e.prot == 2 && a.spid == e.partner)),
    aclCheck .dcap acl (fun a => decide (a.head < 12) && (!(s.regionCovers a.head e.base e.len)
      || (!(e.presented.has a.head) && decide (4096 ≤ s.presentedOn a.head)))) ]

/-- The checks of a CREATE (R41, R89). -/
def createExtChecks (s : State) (i : Nat) (f : Frame) : List Check :=
  let e := extOf f
  let compOk := s.comps.has e.comp
  let c := s.comps.getD e.comp {}
  let need := s.usable e + parityUnits e.prot e.len
  [ ⟨.zero, offAdrRange, e.len == 0⟩,
    ⟨.encoding, offAdrAttr, decide (1 < e.coh) || e.prot == 3 || decide (256 < f.fld offAdrAttr 40 32)⟩,
    ⟨.encoding, offAdrMirror, e.prot == 2 && e.partner == s.port⟩,
    ⟨.composition, offAdrAttr, !compOk⟩,
    ⟨.range, offAdrRange, decide (2 ^ 22 < e.base + e.len) || decide (s.pUnits < e.base + e.len)⟩,
    ⟨.overlap, offAdrRange, s.meetsExtent e.base e.len || s.meetsReserve e.base e.len || s.meetsPool e.base e.len || s.meetsKvPool e.base e.len⟩,
    ⟨.state, offAdrRange, !(s.scrubPassed e.base e.len)⟩,
    ⟨.state, offAdrAttr, (s.exts.get? i).any (fun x => x.state != .free)⟩,
    ⟨.quota, offAdrRange, compOk && decide (nth c.quota 0 0 < s.extHeld e.comp + need)⟩,
    ⟨.parity, offAdrAttr, e.prot == 1 && (s.freeShare (parityUnits 1 e.len)).isNone⟩,
    ⟨.dcap, offAdrAttr, e.coh == 1 && compOk && (s.inHdmH e || nth c.quota 1 0 == 0)⟩ ] ++ s.aclChecks e e.acl

/-- Apply a CREATE (R41, R44, R52, R133, R138). -/
def createExt (s : State) (i : Nat) (f : Frame) : State :=
  let old := s.exts.getD i {}
  let e := { extOf f with gen := (old.gen + 1) % 256, mir := if f.fld offAdrAttr 3 2 = 2 then MirState.mirrored else .none }
  let n := parityUnits e.prot e.len
  let e := { e with share := if e.prot = 1 then (s.freeShare n).map (fun b => (b, n)) else none }
  let s := ({ s with exts := s.exts.set i e }).moveExt i .active
  (aclHeads e.acl).foldl (fun s h => s.present i h) s

/-! ### Draining (R44 to R46, R79, R159, R192, R264, R306, R350) -/

/-- Stop the commands that satisfy `p`: those running stop at their next tile boundary with REVOKED, those waiting at steps
10 and 11 do not start. -/
def stopCmds (s : State) (p : Cmd → Bool) : State :=
  { s with cmds := s.cmds.mapV (fun _ (c : Cmd) =>
      if !(p c) then c
      else if c.phase == .running then { failWith s.stamp 4 c with stopping := true, stopAt := if c.stopping then c.stopAt else s.now }
      else if c.phase == .waiting || c.phase == .share then { c with stopping := true }
      else c) }

/-- Whether a LOCAL segment of a command maps part of one extent (R46). -/
def segsMap (e : Extent) (segs : List Seg) : Bool :=
  segs.any (fun g => g.kind == 1 && decide (e.base * 2 ^ 21 < g.tbase + g.size) && decide (g.tbase < (e.base + e.len) * 2 ^ 21))

/-- Pages of a pool whose extent enters Draining are lost, and the commands that use them stop (R264). -/
def losePages (s : State) (i gen : Nat) : State :=
  let hit (p : MigPage) : Bool :=
    let m := (s.comps.getD p.comp {}).mig
    m.enable && m.ext == i && m.gen == gen
  let lost := s.eng.pages.vals.filter hit
  let s := { s with eng := { s.eng with pages := Tab.filter s.eng.pages (fun _ p => !(hit p)) } }
  let s := lost.foldl (fun s p => s.logAt 0 1244 logPageLost 3
    (put p.host 127 64 + put p.head 63 60 + put (b2n p.big) 59 59 + put p.comp 58 51)) s
  (s.stopCmds (fun c => c.segs.any (fun g => g.kind == 3 && !g.pin && lost.any (fun p =>
    p.comp == s.cmdComp c && p.head == g.head && meets g.tbase g.size p.host (pageSize p.big))))).pumpFaults

/-- Whether a region of a ring lies in an extent. -/
def ringIn (e : Extent) (r : Ring) : Bool := r.regions.any (fun x => meets x.1 x.2 (e.base * 2 ^ 21) (e.len * 2 ^ 21))

/-- An extent enters Draining at every Keystone (R44 to R46, R48). -/
def startDraining (s : State) (i : Nat) : State :=
  match s.exts.get? i with
  | none => s
  | some e =>
    let s := s.moveExt i .draining
    let mirrored := e.mir == .degraded || e.mir == .resync
    let s := s.modExt i (fun e => { e with drainAt := s.now, mir := .none, dirty := Tab.empty, copied := Tab.empty })
    let s := if mirrored then s.mirrorAlarmEnd i else s
    let s := s.revokeFlags e
    let s := s.rings.keys.foldl (fun s k => if ringIn e (s.ringAt k) then s.ringError k 3 else s) s
    let s := ((s.killVersions i e.gen).killIndexes i e.gen e).dropRows (fun r => e.covers r.dpa)
    let s := s.losePages i e.gen
    s.stopCmds (fun c => segsMap e c.segs || s.boundDead c)

/-! ### Drained, scrubbed, freed (R44, R47 to R49, R133, R442) -/

/-- Clear the tags of every on-chip copy of a composition (R49, R55, R442). -/
def dropComp (s : State) (c : Nat) : State :=
  let keep (t : Tab CopyLine) : Tab CopyLine := Tab.filter t (fun _ x => x.comp != c)
  { s with eng := { s.eng with
      readCache := s.eng.readCache.mapV (fun _ t => keep t), prefetch := s.eng.prefetch.mapV (fun _ t => keep t)
      staged := s.eng.staged.mapV (fun _ t => keep t), rowCache := Tab.filter s.eng.rowCache (fun _ r => r.comp != c)
      spads := Tab.filter s.eng.spads (fun _ x => x.comp != c), partials := Tab.filter s.eng.partials (fun _ x => x.comp != c)
      searchCache := Tab.filter s.eng.searchCache (fun ln _ => s.compAt ln != some c) } }

/-- Whether a command uses pages of the migration pool of an extent and generation, which it lost as the extent entered Draining
(R264). -/
def onPool (s : State) (i gen : Nat) (c : Cmd) : Bool :=
  let m := (s.comps.getD (s.cmdComp c) {}).mig
  m.enable && m.ext == i && m.gen == gen && c.stopping && c.segs.any (fun g => g.kind == 3 && !g.pin)

/-- Whether a request admitted before Draining, or a command that touches the extent, is still under way (R44, R48). -/
def stillTouched (s : State) (i : Nat) (e : Extent) : Bool :=
  s.openReqs.any (fun r => e.covers r.line) || s.fromBuf.any (fun _ l => l.any (fun x => e.covers x.line))
    || s.calAcc.any (fun _ l => l.any (fun x => match x with
      | .write ln => e.covers ln
      | .old ln _ => e.covers ln
      | .side ln _ => e.covers ln
      | .zero _ => false))
    || s.remotes.any (fun _ r => match r.purpose with | .mirror j _ => j == i | _ => false)
    || s.cmds.any (fun _ (c : Cmd) => c.phase == .running && (segsMap e c.segs || s.boundDead c || s.onPool i e.gen c))

/-- The extent becomes Free (R44). -/
def freeExt (s : State) (i : Nat) : State :=
  let s := s.moveExt i .free
  s.modExt i (fun e => { state := .free, gen := e.gen })

/-- Regions of an extent that were being rebuilt are retired at once when it leaves Draining (R142). -/
def endRebuilds (s : State) (e : Extent) : State :=
  (s.med.rebuilds.keys.filter (fun rg => e.covers (rg * regionLines))).foldl retireRegion s

/-- A Draining extent that nothing touches any more is Revoked, and then Scrubbing or Free (R44, R47, R52). -/
def extDrained (s : State) (i : Nat) : State :=
  match s.exts.get? i with
  | none => s
  | some e =>
    if !(e.state == .draining) || s.stillTouched i e then s
    else
      let s := (s.moveExt i .revoked).raiseEvent 0xF0 4 i e.gen
      let s := (e.presented.keys ++ e.deferred.keys).foldl (fun s h => s.unpresent i h true) s
      let s := (s.dropComp e.comp).endRebuilds e
      if e.scrub then s.moveExt i .scrubbing
      else if e.share.isSome then s else s.freeExt i

/-- Make the lines of a range of units zero and clear what marks they carry. -/
def zeroUnits (s : State) (a b : Nat) : State :=
  let inn (ln : Nat) : Bool := decide (a * regionLines ≤ ln) && decide (ln < b * regionLines) && !(s.inHole ln)
  let m := s.med.retired.keys.filter (fun r => a ≤ r && r < b)
  let inHole (x : Nat) : Bool := m.any (fun r => decide (r * 2 ^ 21 ≤ x) && decide (x < (r + 1) * 2 ^ 21))
  let s := { s with
    mem := s.mem.filter (fun c => c.1 < a * 2 ^ 21 || b * 2 ^ 21 ≤ c.1 || inHole c.1)
    lineBuf := Tab.filter s.lineBuf (fun ln _ => !(inn ln))
    poison := Tab.filter s.poison (fun ln _ => !(inn ln)), lost := Tab.filter s.lost (fun ln _ => !(inn ln))
    med := { s.med with ue := Tab.filter s.med.ue (fun ln _ => !(inn ln)), repair := Tab.filter s.med.repair (fun ln _ => !(inn ln)) } }
  s.zeroChans a b

/-- The directory lines of an extent. -/
def dirLines (s : State) (e : Extent) : List Nat := s.dir.keys.filter e.covers

/-- Whether nothing but the parity share keeps a released extent from being Free. -/
def scrubDone (s : State) (e : Extent) : Bool :=
  (e.state == .scrubbing && e.zeroed && (s.dirLines e).isEmpty) || (e.state == .revoked && !e.scrub)

/-- The release scrub: regions that meet an uncorrectable error are retired, every usable line is zeroed, directory
entries are recalled with their dirty data discarded, and the extent becomes Free (R44, R49, R141). -/
def scrubExt (s : State) (i : Nat) (bad : List Nat) : State :=
  match s.exts.get? i with
  | none => s
  | some e =>
    if !(e.state == .scrubbing) then s
    else
      let s := if e.zeroed then s else
        let s := (bad.filter (fun rg => e.base ≤ rg && rg < e.base + e.len)).foldl (fun s rg => s.startRetire rg 2) s
        let s := s.zeroUnits e.base (e.base + e.len)
        let s := match e.share with | some (b, n) => s.zeroUnits b (b + n) | none => s
        s.modExt i (fun e => { e with zeroed := true })
      let s := (s.dirLines e).foldl (fun s ln => if s.transAt (lineHome ln) < 4096 then s.evictLine ln true else s) s
      match s.exts.get? i with
      | some e => if s.scrubDone e && e.share.isNone then s.freeExt i else s
      | none => s

/-- The zeroing of a released parity share ends, and the extent becomes Free (R133). -/
def shareZeroed (s : State) (i : Nat) : State :=
  match s.exts.get? i with
  | none => s
  | some e => match e.share with
    | some (b, n) => if s.scrubDone e then (s.zeroUnits b (b + n)).freeExt i else s
    | none => s

/-! ### SET_ACL and releases (R50, R52) -/

/-- Replace an access list: heads no longer named lose the extent, heads newly named are presented it (R50, R52). It is no change of
state that R44 has logged (DESIGN CHOICE, log entry 29). -/
def changeAcl (s : State) (i : Nat) (acl : List Acl) (post : Bool) : State :=
  match s.exts.get? i with
  | none => s
  | some e =>
    let old := aclHeads e.acl
    let new := aclHeads acl
    let s := s.modExt i (fun e => { e with acl := acl })
    let s := (old.filter (fun h => !(new.contains h))).foldl (fun s h => s.unpresent i h post) s
    (new.filter (fun h => !(e.presented.has h))).foldl (fun s h => s.present i h) s

/-- A host's Release Dynamic Capacity command (R44, R52). -/
def releaseCapacity (s : State) (h tag spid i : Nat) : State :=
  if !(s.headUp h) then s
  else match s.exts.get? i with
    | none => s.emit (.release h tag true)
    | some e =>
      if !(e.state == .active) then s.emit (.release h tag true)
      else if !(e.acl.any (fun a => a.spid == spid)) then s.emit (.release h tag false)
      else
        let acl := e.acl.filter (fun a => a.spid != spid)
        let last := e.acl.any (fun a => a.spid == spid && decide (a.head < 12)) && (aclHeads acl).isEmpty
        let s := (s.changeAcl i acl false).emit (.release h tag true)
        if last then s.startDraining i else s

/-! ### The commit (R41, R456) -/

/-- Apply a frame of the ADR domain. -/
def applyAdr (s : State) (f : Frame) : State :=
  let i := f.sel
  let x := s.exts.getD i {}
  match f.fld offAdrAttr 1 0 with
  | 0 => s.decide_ .adr [] (fun s => s)
  | 1 =>
    let cs := s.createExtChecks i f
    let refused := match faultOf cs with | some c => c.reason == Reason.quota | none => false
    let s := if refused then s.bumpMeter (extOf f).comp mRefused 1 else s
    s.decide_ .adr cs (fun s => s.createExt i f)
  | 2 => s.decide_ .adr [⟨.state, offAdrAttr, x.state != .active⟩] (fun s => s.startDraining i)
  | _ =>
    let live := x.state == .active
    s.decide_ .adr ([⟨.encoding, offAdrAttr, decide (256 < f.fld offAdrAttr 40 32)⟩, ⟨.state, offAdrAttr, !live⟩]
        ++ (s.aclChecks x (aclOf f)).filter (fun c => c.reason == Reason.encoding || live))
      (fun s => s.changeAcl i (aclOf f) true)

end State

/-- Whether a frame of the ADR domain carries an operation. -/
def adrOpIs (op : Nat) (f : Frame) : Bool := f.fld offAdrAttr 1 0 == op

/-- EXTENT_CREATE. An ADR commit without an operation is decided here as well. -/
def execExtentCreate (s : State) : Outcome State Fault Refusal :=
  .next (match s.takeFrame .adr (fun f => adrOpIs 1 f || adrOpIs 0 f) with | some (f, s) => s.applyAdr f | none => s)

/-- EXTENT_REVOKE. -/
def execExtentRevoke (s : State) : Outcome State Fault Refusal :=
  .next (match s.takeFrame .adr (adrOpIs 2) with | some (f, s) => s.applyAdr f | none => s)

/-- SET_ACL. -/
def execSetAcl (s : State) : Outcome State Fault Refusal :=
  .next (match s.takeFrame .adr (adrOpIs 3) with | some (f, s) => s.applyAdr f | none => s)

/-- RELEASE_DYNAMIC_CAPACITY. -/
def execReleaseDynamicCapacity (head tag spid ext : Nat) (s : State) : Outcome State Fault Refusal :=
  .next (s.releaseCapacity head tag spid ext)

/-- EXTENT_DRAINED. -/
def execExtentDrained (ext : Nat) (s : State) : Outcome State Fault Refusal := .next (s.extDrained ext)

/-- RELEASE_SCRUB. -/
def execReleaseScrub (ext : Nat) (bad : List Nat) (s : State) : Outcome State Fault Refusal := .next (s.scrubExt ext bad)

/-- PARITY_SHARE_ZEROED. -/
def execParityShareZeroed (ext : Nat) (s : State) : Outcome State Fault Refusal := .next (s.shareZeroed ext)

end Sys2Proof.Machine
end

