-- ==== Sys2Proof/Machine/Compositions.lean ====
section
/-! DEFINITION. The commits of the CMP block, quotas and over-quota flags, the meter and counter pages, and the bond-period
boundary (R54 to R60, R263, R270, R372, R402, R464, R465). -/

namespace Sys2Proof.Machine

open Host (Outcome)

/-- The largest value of each quota, in the order of R56. -/
def quotaMax : List Nat := [4194304, 25165824, 3145728, 20132659, 4200, 16777215, 64, 16777215]

namespace State

/-! ### Use against quota (R56, R58, R464) -/

/-- Whether a composition uses more of quota `q` than `v` (R58). The power average stands in 2^-32 of a quota unit. -/
def usesOver (s : State) (c q v : Nat) : Bool :=
  let x := s.comps.getD c {}
  match q with
  | 0 => decide (v < s.extHeld c)
  | 1 => decide (v < s.dirCount c)
  | 2 => decide (v < s.rowsHeld c)
  | 3 => decide (v * 1000 < x.engUsed)
  | 4 => decide (v * 2 ^ 32 < s.power.budgetAvg.getD c 0)
  | 5 => decide (v < x.marksUsed)
  | 6 => decide (v < s.ringsOf c)
  | _ => decide (v < s.kvHeld c)

/-- The over-quota flags in force: set by a cut, and clear as soon as use lies within the value (R58). -/
def overqNow (s : State) (c : Nat) : Nat :=
  let x := s.comps.getD c {}
  (List.range 8).foldl (fun n q => if bit x.overq q && s.usesOver c q (nth x.quota q 0) then n + 2 ^ q else n) 0

/-- Drop the flags whose use has come back within its quota. -/
def settleOverq (s : State) : State :=
  s.comps.keys.foldl (fun s c => s.modComp c (fun x => { x with overq := s.overqNow c })) s

/-- Set the over-quota flags of the cuts a new list of quotas makes (R58). -/
def cutQuotas (s : State) (c : Nat) (new : List Nat) : State :=
  let old := (s.comps.getD c {}).quota
  let cuts := (List.range 8).foldl (fun n q =>
    if nth new q 0 < nth old q 0 && s.usesOver c q (nth new q 0) then n + 2 ^ q else n) 0
  s.modComp c (fun x => { x with quota := new, overq := x.overq ||| cuts })

/-! ### Pages (R59, R60, R402) -/

/-- The words of a composition's meter page, the one with PERIOD excepted (R59). -/
def meterWords (s : State) (c time : Nat) : Tab Nat :=
  let x := s.comps.getD c {}
  let m (w : Nat) : Nat := x.meters.getD w 0
  [(0, time), (1, x.periods), (mExt, m mExt * 2 / 1000000), (mEng, m mEng / 1000), (mEnergy, m mEnergy / 1000)
  , (mDir, m mDir / 1000000), (mRow, m mRow / 1000000), (mKv, m mKv / 1000000), (8, s.extHeld c), (9, s.dirCount c)
  , (10, s.overqNow c), (mDropWr, m mDropWr), (mPoisonRd, m mPoisonRd), (mRevoked, m mRevoked)
  , (mThrottle, m mThrottle / 1000), (mRefused, m mRefused)].foldl (fun (t : Tab Nat) w => t.set w.1 w.2) Tab.empty

/-- The words of a composition's counter page (R402). -/
def countWords (s : State) (c time : Nat) : Tab Nat :=
  let x := s.comps.getD c {}
  (x.counts.set 0 time).set 1 x.periods

/-- The bytes of a page from its words. -/
def pageBytes (t : Tab Nat) : List Nat := (List.range 512).flatMap (fun w => bytesOf 8 (t.getD w 0))

/-- Whether the store copy of a page may be written: the extent recorded at commit is still Active, with its generation
(R59). -/
def pageLive (s : State) (p : PageCfg) : Bool :=
  p.enable && (match s.exts.get? p.ext with | some e => e.state == .active && e.gen == p.gen | none => false)

/-- Write the store copy of a page: PERIOD first with bit 63 set, and last with it clear (R60). -/
def writePage (s : State) (p : PageCfg) (t : Tab Nat) : State :=
  if !(s.pageLive p) then s
  else
    let a := p.base * 4096
    let period := t.getD 1 0
    let s := s.ownWrite (a + 8) (bytesOf 8 (period + 2 ^ 63))
    let s := s.ownWrite a (pageBytes (t.set 1 (period + 2 ^ 63)))
    s.ownWrite (a + 8) (bytesOf 8 period)

/-- Write a composition's meter page into BAR2 and into the store (R59). -/
def meterPageWrite (s : State) (c time : Nat) : State :=
  let t := s.meterWords c time
  let s := { s with obs := { s.obs with meterPage := s.obs.meterPage.set c t } }
  s.writePage (s.comps.getD c {}).meter t

/-- Write a composition's counter page into BAR2 and into the store (R402). -/
def countPageWrite (s : State) (c time : Nat) : State :=
  let t := s.countWords c time
  let s := { s with obs := { s.obs with cePage := s.obs.cePage.set c t } }
  s.writePage (s.comps.getD c {}).cnt t

/-! ### CMP commits (R55, R263, R465) -/

/-- The host set of a frame. It is read by membership alone, so a repeated SPID counts once (R464). -/
def frameHosts (f : Frame) : List Nat :=
  (List.range (min 256 (f.fld offCmpCtl 24 16))).map (fun n =>
    let w := f.word (offCmpHosts + 8 * (n / 2))
    if n % 2 = 0 then fld w 11 0 else fld w 43 32)

/-- The quotas of a frame (R464). -/
def quotasOf (f : Frame) : List Nat := (List.range 8).map (fun q => f.fld (offCmpQuota + 8 * q) 31 0)

/-- A page configuration of a frame, with the extent that holds the page now (R59). -/
def pageOf (s : State) (f : Frame) (off : Nat) : PageCfg :=
  let base := f.fld off 30 0
  match s.extHolding (base * 4096) 4096 (· == .active) with
  | some (i, e) => { enable := bit (f.word off) 40, base := base, ext := i, gen := e.gen }
  | none => { enable := bit (f.word off) 40, base := base }

/-- First byte and length of the migration pool a word names (R263). -/
def migSpan (w : Nat) : Nat × Nat := (fld w 21 0 * 2 ^ 21, fld w 48 32 * 65536)

/-- The migration pool of a frame (R263). -/
def migOf (s : State) (f : Frame) : MigCfg :=
  let w := f.word offCmpMig
  match s.extHolding (migSpan w).1 (migSpan w).2 (· == .active) with
  | some (i, e) => { enable := bit w 63, word := w, ext := i, gen := e.gen }
  | none => { enable := bit w 63, word := w }

/-- A page must lie in one Active software-coherent extent of the composition (R59, R270, R402). -/
def pageCheck (s : State) (c : Nat) (f : Frame) (off : Nat) : Check :=
  ⟨.range, off, bit (f.word off) 40 && !(s.inOwnSoft c (f.fld off 30 0 * 4096) 4096)⟩

/-- Whether a composition still owns what keeps it from being deleted (R55, R289, R302, R323). -/
def compBusy (s : State) (c : Nat) : Bool :=
  s.exts.any (fun _ e => e.comp == c && e.state != .free) || decide (0 < s.ringsOf c)
    || s.eng.ctxs.any (fun _ x => x.enable && x.comp == c) || s.eng.kv.any (fun _ b => b.owner == c)
    || s.eng.grps.any (fun _ g => g.state != .free && g.comp == c) || s.eng.tbls.any (fun _ t => t.comp == c)
    || s.eng.idxs.any (fun _ x => x.state != 0 && x.comp == c)

/-- Whether a composition has a page in a state other than ABSENT. -/
def hasPages (s : State) (c : Nat) : Bool := s.eng.pages.any (fun _ p => p.comp == c)

/-- The checks that CREATE and UPDATE share (R263, R465). -/
def compChecks (s : State) (c : Nat) (f : Frame) : List Check :=
  let m := f.word offCmpMig
  let on := bit m 63
  let (a, n) := migSpan m
  let old := (s.comps.getD c {}).mig
  let (oa, on_) := migSpan old.word
  [ ⟨.encoding, offCmpCtl, decide (256 < f.fld offCmpCtl 24 16)⟩,
    ⟨.zero, offCmpMig, on && n == 0⟩,
    ⟨.encoding, offCmpMig, decide (65536 < fld m 48 32)⟩,
    s.pageCheck c f offCmpMeter, s.pageCheck c f offCmpCnt,
    ⟨.range, offCmpMig, on && !(s.inOwnSoft c a n)⟩,
    s.pageCheck c f offCmpKv,
    ⟨.state, offCmpMig, s.hasPages c && old.enable && (!on || a != oa || decide (n < on_))⟩,
    ⟨.state, offCmpMig, on && !(s.scrubPassed (fld m 21 0) (cdiv n (2 ^ 21)))⟩ ]
  ++ (List.range 8).map (fun q => ⟨.encoding, offCmpQuota + 8 * q, decide (nth quotaMax q 0 < f.fld (offCmpQuota + 8 * q) 31 0)⟩)

/-- Apply the host set, the quotas and the page configurations of a frame (R58, R59, R465). -/
def setComp (s : State) (c : Nat) (f : Frame) : State :=
  let kvOld := (s.comps.getD c {}).kv.enable
  let (me, cn, kv, mg) := (s.pageOf f offCmpMeter, s.pageOf f offCmpCnt, s.pageOf f offCmpKv, s.migOf f)
  let s := (s.cutQuotas c (quotasOf f)).modComp c (fun x =>
    { x with hosts := frameHosts f, meter := me, cnt := cn, kv := kv, mig := mg })
  if kv.enable && !kvOld then
    { s with eng := { s.eng with kvSerial := Tab.filter s.eng.kvSerial (fun k _ => k / 64 != c) } }
  else s

/-- CREATE (R55, R465). A new composition has its engine share and its power budget at once. -/
def createComp (s : State) (c : Nat) (f : Frame) : State :=
  let q := quotasOf f
  let x : Comp := { shareNow := nth q 3 0, budgetNow := nth q 4 0, duty := 16 }
  { s with comps := s.comps.set c x, power := { s.power with budgetAvg := s.power.budgetAvg.erase c } }.setComp c f

/-- DELETE (R55, R269, R442). -/
def deleteComp (s : State) (c : Nat) : State :=
  let s := (s.meterPageWrite c s.stamp).dropComp c
  let kv := s.eng.kv.mapV (fun _ (b : KvBlock) => { b with grantees := b.grantees.filter (· != c) })
  { s with comps := s.comps.erase c, eng := { s.eng with kv := kv, kvSerial := Tab.filter s.eng.kvSerial (fun k _ => k / 64 != c) } }

/-- Whether UPDATE takes out of the host set a SPID that an access list of the composition's extents names (R465). -/
def losesNamed (s : State) (c : Nat) (f : Frame) : Bool :=
  let new := frameHosts f
  (s.comps.getD c {}).hosts.any (fun h => !(new.contains h) &&
    s.exts.any (fun _ e => e.comp == c && e.state != .free && e.acl.any (fun a => a.spid == h)))

/-- Apply a frame of the CMP domain (R456, R465). -/
def applyCmp (s : State) (f : Frame) : State :=
  let c := f.sel
  match f.fld offCmpCtl 1 0 with
  | 0 => s.decide_ .cmp [] (fun s => s)
  | 1 => s.decide_ .cmp (⟨.state, offCmpCtl, s.comps.has c⟩ :: s.compChecks c f) (fun s => s.createComp c f)
  | 2 => s.decide_ .cmp [⟨.state, offCmpCtl, !(s.comps.has c) || s.compBusy c⟩] (fun s => s.deleteComp c)
  | _ => s.decide_ .cmp (⟨.state, offCmpCtl, !(s.comps.has c)⟩ :: ⟨.acl, offCmpHosts, s.losesNamed c f⟩ :: s.compChecks c f)
      (fun s => s.setComp c f)

/-! ### Directory cuts (R58) -/

/-- One recall of a composition over its directory quota: its oldest entry at Keystone `k` (R58). -/
def quotaRecall (s : State) (c k : Nat) : State :=
  if decide (nth (s.comps.getD c {}).quota 1 0 < s.dirCount c) && decide (s.transAt k < 4096) then
    match s.dirOldest c k with
    | some ln => s.evictLine ln false
    | none => s
  else s

/-! ### The bond-period boundary (R372) -/

/-- Shares renew: the engine share last committed, and counts of the period from 0 (R57, R58, R408). -/
def renewShares (s : State) : State :=
  { s with comps := s.comps.mapV (fun _ (x : Comp) =>
      { x with shareNow := nth x.quota 3 0, engUsed := 0, marksUsed := 0, periods := x.periods + 1 }) }

/-- A Keystone's SYNC mark (R406, R407). -/
def syncMark (s : State) (n k : Nat) : State :=
  let t := nth s.obs.trace k {}
  let s := s.mark (1244 + k) 0x3F 0 true (put s.port 143 132 + put n 127 80 + put t.sinceSync 79 48)
  { s with obs := { s.obs with trace := setNth s.obs.trace k { t with sinceSync := 0 } } }

/-- The boundary event: shares renew, pages are written, aging may start, generators are reseeded, entries are evaluated for
the period, and each Keystone marks it (R200, R320, R372, R374, R402, R406, R421). -/
def boundary (s : State) : State :=
  if !s.time.boundaryDue then s
  else
    let n := bondOf s.time.counter
    let at_ := s.time.boundaryAt
    let s := { s with time := { s.time with boundaryDue := false, bond := n, slot := slotOf s.time.counter }
                      eng := { s.eng with seeds := s.eng.seeds + 1 }
                      obs := { s.obs with alarmSent := Tab.empty } }
    let s := s.renewShares
    let s := s.comps.keys.foldl (fun s c => (s.meterPageWrite c at_).countPageWrite c at_) s
    let age := s.cfgF offRowc 15 8
    let s := if age ≠ 0 && n % age = 0 then s.ageRows else s
    [0, 1, 2, 3].foldl (fun s k => s.syncMark n k) s

end State

/-- Whether a frame of the CMP domain carries an operation. -/
def cmpOpIs (op : Nat) (f : Frame) : Bool := f.fld offCmpCtl 1 0 == op

/-- BOND_PERIOD_BOUNDARY. -/
def execBondPeriodBoundary (s : State) : Outcome State Fault Refusal := .next s.boundary

/-- DIRECTORY_QUOTA_RECALL. -/
def execDirectoryQuotaRecall (comp k : Nat) (s : State) : Outcome State Fault Refusal := .next (s.quotaRecall comp k)

/-- COMPOSITION_CREATE. A CMP commit without an operation is decided here as well. -/
def execCompositionCreate (s : State) : Outcome State Fault Refusal :=
  .next (match s.takeFrame .cmp (fun f => cmpOpIs 1 f || cmpOpIs 0 f) with | some (f, s) => s.applyCmp f | none => s)

/-- COMPOSITION_DELETE. -/
def execCompositionDelete (s : State) : Outcome State Fault Refusal :=
  .next (match s.takeFrame .cmp (cmpOpIs 2) with | some (f, s) => s.applyCmp f | none => s)

/-- COMPOSITION_UPDATE. -/
def execCompositionUpdate (s : State) : Outcome State Fault Refusal :=
  .next (match s.takeFrame .cmp (cmpOpIs 3) with | some (f, s) => s.applyCmp f | none => s)

end Sys2Proof.Machine
end

