-- ==== Sys2Proof/Machine/Commits.lean ====
section
/-! DEFINITION. The commits of the domains that set registers rather than carry operations: CTL, COH, MED, ENG, TIM, PWR,
OBS, SEC and HED (R454, R456, R463, R466 to R468 and the rules of each register). -/

namespace Sys2Proof.Machine

open Host (Outcome)

/-- Whether a value lies outside a range. -/
def outside (v lo hi : Nat) : Bool := decide (v < lo) || decide (hi < v)

namespace State

/-- Of some checks, those of a register that the frame changes (R456). -/
def whenChanged (s : State) (f : Frame) (off : Nat) (cs : List Check) : List Check := if s.changes f off then cs else []

/-- Apply a frame whose registers are those of `offs`, and then what the change brings with it. -/
def applyRegs (s : State) (f : Frame) (offs : List Nat) (cs : List Check) (after : State → State) : State :=
  s.decide_ f.dom cs (fun s => after (s.adopt f offs))

/-! ### CTL (R83, R186, R463) -/

/-- Whether a new own port ID may not be taken: a group is not FREE, or it is the partner of a mirrored extent (R463). -/
def portBlocked (s : State) (p : Nat) : Bool :=
  s.eng.grps.any (fun _ g => g.state != .free) || s.exts.any (fun _ e => e.state != .free && e.prot == 2 && e.partner == p)

def ctlChecks (s : State) (f : Frame) : List Check :=
  let w := f.word offCtlMortar
  let t := f.word offCtlFlagCfg
  let p := f.fld offCtlPort 11 0
  s.whenChanged f offCtlMaster [⟨.encoding, offCtlMaster, decide (12 ≤ f.fld offCtlMaster 3 0)⟩]
  ++ [⟨.state, offCtlPort, p != s.port && s.portBlocked p⟩]
  ++ s.whenChanged f offCtlMortar [⟨.zero, offCtlMortar, fld w 3 0 == 0 || fld w 7 4 == 0 || fld w 11 8 == 0⟩]
  ++ s.whenChanged f offCtlFlagCfg [⟨.encoding, offCtlFlagCfg, outside (fld t 12 8) 14 30 || outside (fld t 4 0) 10 30⟩]

def applyCtl (s : State) (f : Frame) : State :=
  let old := s.ctrlHead
  s.applyRegs f [offCtlMaster, offCtlPort, offCtlMortar, offCtlFlagCfg] (s.ctlChecks f) (fun s =>
    if s.ctrlHead = old then s else s.raiseEvent 0xF3 0 old s.ctrlHead)

/-! ### COH (R121, R123) -/

def cohChecks (s : State) (f : Frame) : List Check :=
  let w := f.word offCohCfg
  let l := f.word offCohLostCfg
  s.whenChanged f offCohCfg
    [ ⟨.zero, offCohCfg, fld w 47 32 == 0⟩, ⟨.encoding, offCohCfg, decide (60000 < fld w 47 32) || outside (fld w 12 8) 12 30⟩ ]
  ++ s.whenChanged f offCohLostCfg
    [ ⟨.encoding, offCohLostCfg, bit l 40 && outside (fld l 36 32) 8 20⟩,
      ⟨.range, offCohLostCfg, bit l 40 && (s.extHolding (fld l 30 0 * 4096) (16 * 2 ^ fld l 36 32) (· == .active)).isNone⟩ ]

def applyCoh (s : State) (f : Frame) : State := s.applyRegs f [offCohCfg, offCohLostCfg] (s.cohChecks f) (fun s => s)

/-! ### MED (R133, R139, R141, R143, R147 to R149) -/

/-- The checks of a new parity reserve (R133). -/
def parChecks (s : State) (w : Nat) : List Check :=
  let on := bit w 63
  let base := fld w 21 0
  let len := fld w 54 32
  let shares := s.exts.vals.filterMap (·.share)
  [ ⟨.zero, offMedPar, on && len == 0⟩,
    ⟨.range, offMedPar, on && decide (s.pUnits < base + len)⟩,
    ⟨.overlap, offMedPar, on && s.meetsExtent base len⟩,
    ⟨.state, offMedPar, on && shares.any (fun x => decide (x.1 < base) || decide (base + len < x.1 + x.2))⟩,
    ⟨.state, offMedPar, on && !(s.scrubPassed base len)⟩,
    ⟨.state, offMedPar, !on && bit (s.cfg offMedPar) 63 && !shares.isEmpty⟩ ]

/-- Regions that hold rescued data, or are being filled with it (R142, R143). -/
def rescueHeld (s : State) : List Nat :=
  s.med.used.keys ++ s.med.rebuilds.vals.filterMap (fun (b : Rebuild) => b.slot)

/-- The checks of a new rescue pool, against the parity reserve the frame leaves (R143). -/
def rescueChecks (s : State) (w par : Nat) : List Check :=
  let n := fld w 28 22
  let base := fld w 21 0
  [ ⟨.encoding, offMedRescue, decide (64 < n)⟩,
    ⟨.range, offMedRescue, decide (s.pUnits < base + n) && n != 0⟩,
    ⟨.overlap, offMedRescue, n != 0 && (s.meetsExtent base n || (bit par 63 && meets base n (fld par 21 0) (fld par 54 32)))⟩,
    ⟨.state, offMedRescue, !(s.scrubPassed base n)⟩,
    ⟨.state, offMedRescue, s.rescueHeld.any (fun r => decide (r < base) || decide (base + n ≤ r))⟩ ]

def medChecks (s : State) (f : Frame) : List Check :=
  let m := f.fld offMedMirCfg 13 0
  let h := f.fld offMedScrub 5 0
  s.whenChanged f offMedPar (s.parChecks (f.word offMedPar))
  ++ s.whenChanged f offMedMirCfg [⟨.zero, offMedMirCfg, m == 0⟩, ⟨.encoding, offMedMirCfg, decide (10000 < m)⟩]
  ++ s.whenChanged f offMedRescue (s.rescueChecks (f.word offMedRescue) (f.word offMedPar))
  ++ s.whenChanged f offMedRetCfg [⟨.zero, offMedRetCfg, f.fld offMedRetCfg 15 0 == 0⟩]
  ++ s.whenChanged f offMedDist [⟨.encoding, offMedDist, decide (f.fld offMedDist 15 0 < 256)⟩]
  ++ s.whenChanged f offMedScrub [⟨.zero, offMedScrub, h == 0⟩, ⟨.encoding, offMedScrub, decide (48 < h)⟩]
  ++ s.whenChanged f offMedSpeed [⟨.encoding, offMedSpeed, decide (4 < f.fld offMedSpeed 3 0)⟩]

/-- A region's corrected errors held against CE_LIMIT (R141). -/
def ceCount (s : State) (rg : Nat) : Nat := (List.range 8).foldl (fun n f => n + s.med.ceLimitN.getD (8 * rg + f) 0) 0

/-- A region has reached CE_LIMIT: it is retired, or in an unprotected extent advised (R141). -/
def ceReached (s : State) (rg : Nat) : State :=
  match s.extAt (rg * regionLines) with
  | some (_, e) => if e.prot = 0 then s.alarm (footingDie (lineChan (rg * regionLines))) 7 rg else s.startRetire rg 1
  | none => s.startRetire rg 1

/-- A lower CE_LIMIT is reached by every region whose count stands at it already, and stood below the old one (R141). -/
def cutCeLimit (s : State) (old : Nat) : State :=
  let new := s.cfgF offMedRetCfg 15 0
  let rgs := (s.med.ceLimitN.keys.map (· / 8)).eraseDups
  (rgs.filter (fun rg => decide (new ≤ s.ceCount rg) && decide (s.ceCount rg < old))).foldl ceReached s

/-- A new rescue pool takes every slot its range covers, slots released before among them (R143). -/
def applyMed (s : State) (f : Frame) : State :=
  let moved := s.changes f offMedRescue
  let limit := s.cfgF offMedRetCfg 15 0
  s.applyRegs f [offMedPar, offMedMirCfg, offMedRescue, offMedRetCfg, offMedDist, offMedScrub, offMedSpeed] (s.medChecks f) (fun s =>
    let s := s.cutCeLimit limit
    if moved then
      let b := s.cfgF offMedRescue 21 0
      { s with med := { s.med with released := NSet.delRange s.med.released b (b + s.cfgF offMedRescue 28 22) } }
    else s)

/-! ### ENG (R203, R268, R321) -/

/-- A context as its window's word. -/
def ctxWord (c : Ctx) : Nat :=
  put c.comp 63 56 + put (b2n c.enable) 55 55 + put c.segCount 54 48 + put c.hostMask 43 32 + put c.segBase 30 0

/-- A context from its window's word. -/
def ctxOfWord (w : Nat) : Ctx :=
  { comp := fld w 63 56, enable := bit w 55, segCount := fld w 54 48, hostMask := fld w 43 32, segBase := fld w 30 0 }

/-- The checks of a context that changes; the table of a context without segments lies anywhere (R203; DEDUCED, log entry 54). -/
def ctxChecks (s : State) (i : Nat) (c : Ctx) : List Check :=
  let old := s.eng.ctxs.getD i {}
  let named := s.rings.any (fun _ r => r.state != .free && r.ctx == i)
  [ ⟨.zero, offCtx, c.enable && c.segCount == 0⟩,
    ⟨.encoding, offCtx, decide (64 < c.segCount)⟩,
    ⟨.composition, offCtx, !(s.comps.has c.comp)⟩,
    ⟨.range, offCtx, c.segCount != 0 && s.comps.has c.comp && !(s.inOwnSoft c.comp (c.segBase * 4096) (c.segCount * 32))⟩,
    ⟨.state, offCtx, named && (c.comp != old.comp || (old.enable && !c.enable))⟩ ]

/-- The checks of a KV pool that changes (R268). -/
def kvChecks (s : State) (lo hi : Nat) : List Check :=
  let on := poolOn lo
  let (base, len) := (poolBase lo, poolLen lo)
  [ ⟨.zero, offKvPool, on && (poolCount hi == 0 || poolBlk hi == 0 || len == 0)⟩,
    ⟨.range, offKvPool, on && (decide (len * 2 ^ 21 < poolT (poolCount hi) + poolCount hi * poolBlk hi * 64) || decide (s.pUnits < base + len))⟩,
    ⟨.overlap, offKvPool, on && (s.meetsExtent base len || s.meetsReserve base len || s.meetsPool base len)⟩,
    ⟨.state, offKvPool, !(s.eng.kv.rows.isEmpty)⟩,
    ⟨.state, offKvPool, on && !(s.scrubPassed base len)⟩ ]

def engChecks (s : State) (f : Frame) : List Check :=
  let c := ctxOfWord (f.word offCtx)
  (if c = s.eng.ctxs.getD f.sel {} then [] else s.ctxChecks f.sel c)
  ++ (if s.changes f offKvPool || s.changes f (offKvPool + 8) then s.kvChecks (f.word offKvPool) (f.word (offKvPool + 8)) else [])
  ++ s.whenChanged f offRowc [⟨.zero, offRowc, f.fld offRowc 15 8 == 0⟩]

/-- Set a context; its keys are erased when its composition changes or ENABLE clears (R203, R440). -/
def setCtx (s : State) (i : Nat) (c : Ctx) : State :=
  let old := s.eng.ctxs.getD i {}
  let erase := c.comp != old.comp || (old.enable && !c.enable)
  let s := { s with eng := { s.eng with ctxs := s.eng.ctxs.set i c } }
  if erase then
    { s with sec := { s.sec with ctxKeys := Tab.filter s.sec.ctxKeys (fun k _ => k / 16 != i)
                                 sealCtr := Tab.filter s.sec.sealCtr (fun k _ => k / 16 != i) } }
  else s

def applyEng (s : State) (f : Frame) : State :=
  let c := ctxOfWord (f.word offCtx)
  s.applyRegs f [offKvPool, offKvPool + 8, offRowc] (s.engChecks f) (fun s =>
    let s := if c = s.eng.ctxs.getD f.sel {} then s else s.setCtx f.sel c
    if bit (s.cfg offRowc) 0 then s else s.dropRows (fun _ => true))

/-! ### TIM (R370, R373, R376) -/

/-- The checks of one schedule entry (R373). -/
def schedChecks (s : State) (f : Frame) (n : Nat) : List Check :=
  let off := offTimSched + 16 * n
  let hi := f.word (off + 8)
  if !(s.changes f off || s.changes f (off + 8)) || fld hi 3 0 = 0 then []
  else [ ⟨.zero, off, fld hi 55 48 == 0⟩,
         ⟨.encoding, off, decide (fld hi 55 48 ≤ fld hi 63 56) || decide (6 < fld hi 3 0)⟩ ]

def timChecks (s : State) (f : Frame) : List Check :=
  let w := f.word offTimCfg
  s.whenChanged f offTimCfg
    [ ⟨.zero, offTimCfg, (fld w 39 32 == 0 && fld w 1 0 == 1) || fld w 31 16 == 0⟩,
      ⟨.encoding, offTimCfg, outside (fld w 31 16) 16 1024 || decide (1 < fld w 1 0)⟩ ]
  ++ (List.range 256).flatMap (s.schedChecks f)

def timOffs : List Nat :=
  [offTimCfg, offTimOffset] ++ (List.range 512).map (fun i => offTimSched + 8 * i) ++ (List.range 32).map (fun i => offTimQw + 8 * i)

def applyTim (s : State) (f : Frame) : State :=
  s.applyRegs f timOffs (s.timChecks f) (fun s => { s with time := { s.time with quiet := s.quietNow } })

/-! ### PWR (R385, R389, R392, R395) -/

/-- The checks of one rail's limits (R385). -/
def railChecks (s : State) (f : Frame) (n : Nat) : List Check :=
  let off := offPwrRail + 8 * n
  let w := f.word off
  s.whenChanged f off
    [ ⟨.zero, off, fld w 15 0 == 0 || fld w 31 16 == 0 || fld w 47 32 == 0⟩,
      ⟨.encoding, off, decide (fld w 15 0 < fld w 31 16) || decide (fld w 31 16 < fld w 47 32)⟩ ]

def pwrChecks (s : State) (f : Frame) : List Check :=
  let p := f.fld offPwrPkg 10 0
  let d := f.word offPwrDroop
  let t := f.fld offPwrTherm 7 0
  (List.range 24).flatMap (s.railChecks f)
  ++ s.whenChanged f offPwrPkg [⟨.zero, offPwrPkg, p == 0⟩, ⟨.encoding, offPwrPkg, outside p 100 1050⟩]
  ++ s.whenChanged f offPwrDroop
    [ ⟨.zero, offPwrDroop, fld d 25 16 == 0 || fld d 6 0 == 0⟩,
      ⟨.encoding, offPwrDroop, outside (fld d 25 16) 32 1023 || outside (fld d 6 0) 20 120⟩ ]
  ++ s.whenChanged f offPwrTherm [⟨.zero, offPwrTherm, t == 0⟩, ⟨.encoding, offPwrTherm, outside t 70 105⟩]

def applyPwr (s : State) (f : Frame) : State :=
  s.applyRegs f ((List.range 24).map (fun n => offPwrRail + 8 * n) ++ [offPwrPkg, offPwrDroop, offPwrTherm]) (s.pwrChecks f) (fun s => s)

/-! ### OBS (R409, R411, R415, R417, R421) -/

/-- The checks of a log or alarm ring that is in use (R417, R421). -/
def recRingChecks (s : State) (off w hi : Nat) : List Check :=
  [ ⟨.encoding, off, ringOn w && outside (fld w 36 32) 8 hi⟩,
    ⟨.range, off, ringOn w && !(s.inSoft (ringBase w) (32 * ringSize w))⟩ ]

def obsChecks (s : State) (f : Frame) : List Check :=
  let t := f.word offTraceCfg
  let l := f.word offLogCfg
  s.whenChanged f offTraceCfg [⟨.encoding, offTraceCfg, fld t 33 32 == 3 || decide (64 < fld t 47 40)⟩]
  ++ s.whenChanged f offLogCfg (⟨.encoding, offLogCfg, decide (4 < fld l 63 61)⟩ :: s.recRingChecks offLogCfg l 20)
  ++ s.whenChanged f offAlmCfg (s.recRingChecks offAlmCfg (f.word offAlmCfg) 16)

/-- What a new OBS_TRACE_CFG brings: a change of DEST empties every buffer, and the rows of the MARK port are numbered from
0 when PORT_EN goes to 1 (R409, R411). -/
def traceChanged (s : State) (old new : Nat) : State :=
  let s := if fld old 33 32 = fld new 33 32 then s else
    { s with obs := { s.obs with trace := s.obs.trace.map (fun (t : Trace) =>
        { t with marks := Tab.empty, next := 0, stream := [], frozen := false, post := none }) } }
  if !(bit old 1) && bit new 1 then
    { s with obs := { s.obs with port := { s.obs.port with row := 0, crc := [0, 0, 0, 0] } } }
  else s

/-- What new ring configurations bring: zeroing, and SEQ from 0 when the log is enabled (R415, R417, R421). -/
def recRingsChanged (s : State) (logOld almOld : Nat) : State :=
  let (l, a) := (s.cfg offLogCfg, s.cfg offAlmCfg)
  let s := if ringZeroes logOld l then { s with obs := { s.obs with log := { s.obs.log with zeroing := true } } } else s
  let s := if !(ringOn logOld) && ringOn l then { s with obs := { s.obs with logSeq := 0 } } else s
  if ringZeroes almOld a then { s with obs := { s.obs with alarm := { s.obs.alarm with zeroing := true } } } else s

def applyObs (s : State) (f : Frame) : State :=
  let (t, l, a) := (s.cfg offTraceCfg, s.cfg offLogCfg, s.cfg offAlmCfg)
  s.applyRegs f ([offTraceCfg, offLogCfg, offAlmCfg] ++ (List.range 4).map (fun i => offAlertMask + 8 * i)) (s.obsChecks f) (fun s =>
    (((s.traceChanged t (s.cfg offTraceCfg)).recRingsChanged l a).flushLog 1026 |>.flushAlarms 257).updateAlert)

/-! ### SEC (R439) and HED (R52, R466 to R468) -/

def applySec (s : State) (f : Frame) : State := s.applyRegs f [offSecPolicy] [] (fun s => s)

/-- Base and length of a dynamic-capacity region that is enabled. -/
def regionSpan (w : Nat) : Nat × Nat := if bit w 63 then (fld w 21 0, fld w 54 32) else (0, 0)

/-- Whether a region's new word moves, shrinks, disables or retypes it while it holds an extent presented on the head
(R466). -/
def regionHeld (s : State) (h old new : Nat) : Bool :=
  let still := bit new 63 && bit new 62 == bit old 62 && fld new 21 0 == fld old 21 0 && decide (fld old 54 32 ≤ fld new 54 32)
  bit old 63 && !still && s.exts.any (fun _ e => e.presented.has h && regionHolds old e.base e.len)

/-- The checks of one dynamic-capacity region that changes (R466). -/
def regionChecks (s : State) (f : Frame) (h r : Nat) : List Check :=
  let off := offHed h + 0x100 + 8 * r
  let w := f.word off
  let (b, n) := regionSpan w
  s.whenChanged f off
    [ ⟨.zero, off, bit w 63 && fld w 54 32 == 0⟩,
      ⟨.range, off, decide (s.pUnits < b + n)⟩,
      ⟨.overlap, off, (List.range 8).any (fun q => q != r &&
        (let (b', n') := regionSpan (f.word (offHed h + 0x100 + 8 * q)); n != 0 && n' != 0 && meets b n b' n'))⟩,
      ⟨.state, off, s.regionHeld h (s.cfg off) w⟩ ]

/-- A route entry of a frame (R467). -/
def routeEntry (f : Frame) (h i : Nat) : Nat :=
  let w := f.word (offHed h + 0x140 + 8 * (i / 2))
  if i % 2 = 0 then fld w 31 0 else fld w 63 32

def hedChecks (s : State) (f : Frame) (h : Nat) : List Check :=
  (List.range 8).flatMap (s.regionChecks f h)
  ++ (List.range 8).map (fun i =>
    let r := routeEntry f h i
    ⟨.encoding, offHed h + 0x140 + 4 * i, bit r 31 && decide (fld r 27 16 < fld r 11 0)⟩)

/-- Ports that were reached through one head and are reached otherwise now resynchronise before their next flag (R468). -/
def markReroutes (s old : State) : State :=
  (List.range 4096).foldl (fun s q =>
    if (old.route q).isSome && s.route q != old.route q then s.setPeer q { s.peer q with rerouted := true } else s) s

def hedOffs (h : Nat) : List Nat :=
  (List.range 8).map (fun r => offHed h + 0x100 + 8 * r) ++ (List.range 4).map (fun i => offHed h + 0x140 + 8 * i)

def applyHed (s : State) (f : Frame) (h : Nat) : State :=
  let rerouted := (List.range 4).any (fun i => s.changes f (offHed h + 0x140 + 8 * i))
  let old := s
  s.applyRegs f (hedOffs h) (s.hedChecks f h) (fun s =>
    (if rerouted then ((s.markReroutes old).retrySyncs).pump else s).postDeferred h)

/-- The domain of a frame is a head's page. -/
def hedOf (f : Frame) : Option Nat := match f.dom with
  | .hed h => some h
  | _ => none

/-- Take the front frame of a domain and apply it. -/
def commitStep (s : State) (d : Dom) (app : State → Frame → State) : State :=
  match s.takeFrame d (fun _ => true) with
  | some (f, s) => app s f
  | none => s

end State

/-- CTL_COMMIT. -/
def execCtlCommit (s : State) : Outcome State Fault Refusal := .next (s.commitStep .ctl State.applyCtl)

/-- COH_COMMIT. -/
def execCohCommit (s : State) : Outcome State Fault Refusal := .next (s.commitStep .coh State.applyCoh)

/-- MED_COMMIT. -/
def execMedCommit (s : State) : Outcome State Fault Refusal := .next (s.commitStep .med State.applyMed)

/-- ENG_COMMIT. -/
def execEngCommit (s : State) : Outcome State Fault Refusal := .next (s.commitStep .eng State.applyEng)

/-- TIM_COMMIT. -/
def execTimCommit (s : State) : Outcome State Fault Refusal := .next (s.commitStep .tim State.applyTim)

/-- PWR_COMMIT. -/
def execPwrCommit (s : State) : Outcome State Fault Refusal := .next (s.commitStep .pwr State.applyPwr)

/-- OBS_COMMIT. -/
def execObsCommit (s : State) : Outcome State Fault Refusal := .next (s.commitStep .obs State.applyObs)

/-- SEC_COMMIT. -/
def execSecCommit (s : State) : Outcome State Fault Refusal := .next (s.commitStep .sec State.applySec)

/-- HED_COMMIT: the head is the one whose frame stands at the front of the engine. -/
def execHedCommit (s : State) : Outcome State Fault Refusal :=
  .next (match s.regs.queue.head?.bind State.hedOf with
    | some h => s.commitStep (.hed h) (fun s f => s.applyHed f h)
    | none => s)

end Sys2Proof.Machine
end

