-- ==== Sys2Proof/Machine/Registers.lean ====
section
/-! DEFINITION. Writes to the set-up registers and to BAR4: the bits software may write, the windows a selector loads, and
what a write to each offset does when it lands (R4, R6, R452, R453, R457, R460, R462). -/

namespace Sys2Proof.Machine

open Host (Outcome)

/-- The bits [hi:lo] as a mask. -/
def bits (hi lo : Nat) : Nat := (2 ^ (hi + 1 - lo) - 1) <<< lo

/-- The bits of a record-ring configuration that are not reserved (R183, R417, R421). -/
def ringCfgMask : Nat := bits 52 40 + bits 36 32 + bits 30 0

/-- The bits of a range in 2 MiB units with ENABLE (R133, R268, R466). -/
def spanMask : Nat := bits 63 63 + bits 54 32 + bits 21 0

/-- The bits of the RW word at an offset that are not reserved; 0 for a word that is not RW. The controller ignores what is
written to the others (R4, R6). -/
def rwMask (off : Nat) : Nat :=
  let within (a n : Nat) : Bool := decide (a ≤ off) && decide (off < a + n)
  if off % 8 ≠ 0 then 0
  else if within offAdrAcl 1024 then bits 16 0 + bits 48 32
  else if within offCmpHosts 1024 then bits 11 0 + bits 43 32
  else if within offCmpQuota 64 then bits 31 0
  else if within offTimSched 4096 then (if off % 16 = 0 then bits 63 0 else bits 63 32 + bits 3 0)
  else if within offTimQw 256 then (if off % 16 = 0 then bits 62 0 else bits 63 48 + bits 31 0)
  else if within offPwrRail 192 then bits 47 0
  else if within offAlertMask 32 then bits 63 0
  else if within (offHed 0) 0xC000 then
    (let o := off % 0x1000
     if 0x100 ≤ o && o < 0x140 then spanMask + bits 62 62
     else if 0x140 ≤ o && o < 0x160 then bits 31 31 + bits 27 16 + bits 11 0 + bits 63 63 + bits 59 48 + bits 43 32
     else 0)
  else
    let table : List (Nat × Nat) :=
      [ (offCtlMaster, bits 3 0), (offCtlPort, bits 11 0), (offCtlMortar, bits 11 0), (offCtlFlagCfg, bits 12 8 + bits 4 0),
        (offAdrRange, bits 54 32 + bits 21 0), (offAdrAttr, bits 55 48 + bits 40 32 + bits 7 7 + bits 5 0),
        (offAdrMirror, bits 59 48 + bits 21 0), (offAdrTag, bits 63 0), (offAdrTag + 8, bits 31 0),
        (offCmpCtl, bits 24 16 + bits 1 0), (offCmpMeter, bits 40 40 + bits 30 0), (offCmpCnt, bits 40 40 + bits 30 0),
        (offCmpMig, bits 63 63 + bits 48 32 + bits 21 0), (offCmpKv, bits 40 40 + bits 30 0),
        (offCohCfg, bits 47 32 + bits 12 8), (offCohLostCfg, bits 40 40 + bits 36 32 + bits 30 0),
        (offMedPar, spanMask), (offMedMirCfg, bits 16 16 + bits 13 0), (offMedRescue, bits 28 0), (offMedRetCfg, bits 15 0),
        (offMedDist, bits 15 0), (offMedScrub, bits 5 0), (offMedSpeed, bits 3 0),
        (offRngSq, bits 48 32 + bits 30 0), (offRngCq, bits 48 32 + bits 30 0), (offRngLines, bits 36 0), (offRngLines + 8, bits 36 0),
        (offRngCtr, bits 48 32 + bits 30 0), (offRngAttr, bits 63 40 + bits 37 32 + bits 31 17 + bits 15 4 + bits 1 0),
        (offRngEvtCfg, ringCfgMask),
        (offCtx, bits 63 48 + bits 43 32 + bits 30 0), (offKvPool, spanMask), (offKvPool + 8, bits 63 40 + bits 23 8),
        (offRowc, bits 15 8 + bits 0 0),
        (offGrp, bits 63 12 + bits 2 0), (offGrpLoc, bits 63 48 + bits 42 32 + bits 30 0), (offGrpGnext, bits 63 0),
        (offIdxGeom, bits 63 32 + bits 28 0), (offIdxAttr, bits 63 49 + bits 2 0), (offIdxMem, bits 42 0), (offIdxMem + 8, bits 42 0),
        (offIdxMem + 16, bits 42 0),
        (offTimCfg, bits 39 32 + bits 31 16 + bits 8 8 + bits 1 0), (offTimOffset, bits 63 0),
        (offPwrPkg, bits 10 0), (offPwrDroop, bits 25 16 + bits 6 0), (offPwrTherm, bits 7 0),
        (offTraceCfg, bits 47 40 + bits 36 36 + bits 33 32 + bits 12 8 + bits 1 0), (offLogCfg, bits 63 61 + ringCfgMask),
        (offAlmCfg, ringCfgMask), (offSecPolicy, bits 27 16 + bits 11 0) ]
    ((table.find? (fun x => x.1 = off)).map (·.2)).getD 0

namespace State

/-! ### Windows (R40, R154, R203, R287, R324, R457, R464) -/

/-- Two 32-bit entries in a word. -/
def pairWord (lo hi : Nat) : Nat := lo % 2 ^ 32 + hi % 2 ^ 32 * 2 ^ 32

/-- An access-list entry as its register holds it (R40). -/
def aclWord (a : Acl) : Nat := put (b2n a.wr) 16 16 + put a.head 15 12 + put a.spid 11 0

/-- The window words of an extent (R40). A Free extent's registers are at their reset values. -/
def adrWindow (s : State) (i : Nat) : List (Nat × Nat) :=
  let e := s.exts.getD i {}
  let acl (n : Nat) : Nat := ((e.acl[n]?).map aclWord).getD 0
  [ (offAdrRange, put e.len 54 32 + put e.base 21 0),
    (offAdrAttr, put e.comp 55 48 + put e.acl.length 40 32 + put (b2n e.scrub) 7 7 + put e.coh 5 4 + put e.prot 3 2),
    (offAdrMirror, put e.partner 59 48 + put e.pbase 21 0), (offAdrTag, e.tag % 2 ^ 64), (offAdrTag + 8, fld e.tag 95 64) ]
  ++ (List.range 128).map (fun n => (offAdrAcl + 8 * n, pairWord (acl (2 * n)) (acl (2 * n + 1))))

/-- A page configuration as its register holds it. -/
def pageWord (p : PageCfg) : Nat := put (b2n p.enable) 40 40 + put p.base 30 0

/-- The window words of a composition (R464). -/
def cmpWindow (s : State) (c : Nat) : List (Nat × Nat) :=
  let x := s.comps.getD c {}
  [ (offCmpCtl, put x.hosts.length 24 16), (offCmpMeter, pageWord x.meter), (offCmpCnt, pageWord x.cnt),
    (offCmpMig, x.mig.word), (offCmpKv, pageWord x.kv) ]
  ++ (List.range 8).map (fun q => (offCmpQuota + 8 * q, nth x.quota q 0))
  ++ (List.range 128).map (fun n => (offCmpHosts + 8 * n, pairWord (nth x.hosts (2 * n) 0) (nth x.hosts (2 * n + 1) 0)))

/-- The window words of a ring pair (R154). -/
def rngWindow (s : State) (i : Nat) : List (Nat × Nat) :=
  let r := s.ringAt i
  [ (offRngSq, put r.sqEntries 48 32 + put r.sqBase 30 0), (offRngCq, put r.cqEntries 48 32 + put r.cqBase 30 0),
    (offRngLines, put r.doorbell 36 0), (offRngLines + 8, put r.status 36 0),
    (offRngCtr, put r.ctrCount 48 32 + put r.ctrBase 30 0),
    (offRngAttr, put r.comp 63 56 + put (b2n r.intEn) 55 55 + put r.intHead 54 51 + put r.intVec 50 40 + put r.waitExp 37 32
      + put r.verMask 31 16 + put r.ctx 15 4) ]

/-- The window words of a collective group (R287). -/
def grpWindow (s : State) (g : Nat) : List (Nat × Nat) :=
  let x := s.grpAt g
  [ (offGrp, put x.gkey 63 32 + put x.comp 31 24), (offGrpLoc, put x.rxlen 63 48 + put x.size 42 32 + put x.list 30 0), (offGrpGnext, x.base) ]

/-- The window words of an index (R324). -/
def idxWindow (s : State) (i : Nat) : List (Nat × Nat) :=
  let x := s.idxAt i
  [ (offIdxGeom, x.word offIdxGeom), (offIdxAttr, x.word offIdxAttr / 8 * 8), (offIdxMem, x.word offIdxMem),
    (offIdxMem + 8, x.word (offIdxMem + 8)), (offIdxMem + 16, x.word (offIdxMem + 16)) ]

/-- The committed values of a selector's window, OP fields 0 (R457). -/
def window (s : State) (sel n : Nat) : List (Nat × Nat) :=
  if sel = offAdrSel then s.adrWindow n
  else if sel = offCmpSel then s.cmpWindow n
  else if sel = offRngSel then s.rngWindow n
  else if sel = offCtxSel then [(offCtx, ctxWord (s.eng.ctxs.getD n {}))]
  else if sel = offGrpSel then s.grpWindow n
  else if sel = offIdxSel then s.idxWindow n
  else []

/-- The bits of a word that are an OP field, which a selector does not load (R457). -/
def opMask (off : Nat) : Nat :=
  if off = offAdrAttr || off = offCmpCtl || off = offRngAttr then 3 else if off = offGrp || off = offIdxAttr then 7 else 0

/-- Write a staged word. -/
def stage (s : State) (off v : Nat) : State :=
  { s with regs := { s.regs with staged := s.regs.staged.set off (BitVec.ofNat 64 v) } }

/-- Load one word of a window, keeping its OP. -/
def loadWord (s : State) (x : Nat × Nat) : State :=
  let m := opMask x.1
  s.stage x.1 (x.2 - (x.2 &&& m) + ((s.regs.stagedAt x.1).toNat &&& m))

/-- A selector takes a value, and its window is loaded (R457). -/
def select (s : State) (sel v : Nat) : State :=
  let n := v % 2 ^ selBits sel
  let s := { s with regs := { s.regs with imm := s.regs.imm.set sel (BitVec.ofNat 64 n) } }
  (s.window sel n).foldl loadWord s

/-! ### Landing (R452, R453, R460) -/

/-- A write of the halves `m` of a staged word changes its writable bits there (R452, R453). -/
def stageWord (s : State) (off m v : Nat) : State :=
  let k := rwMask off &&& m
  let old := (s.regs.stagedAt off).toNat
  s.stage off (old - (old &&& k) + (v &&& k))

/-- SETUP_SRC is cleared by ones written to it. -/
def clearSetup (s : State) (v32 : Nat) : State :=
  { s with regs := { s.regs with setupSrc := s.regs.setupSrc - (s.regs.setupSrc &&& v32) } }

/-- The read pointer of a record ring takes a value, and records that waited for room are written (R122, R183, R417, R421). -/
def landPointer (s : State) (off v32 : Nat) : State :=
  if off = offCohLostPtr then { s with lostRd := v32 }
  else if off = offRngEvtPtr then ({ s with events := { s.events with rd := v32 } }).flushEvents 257
  else if off = offLogPtr then ({ s with obs := { s.obs with log := { s.obs.log with rd := v32 } } }).flushLog 1026
  else if off = offAlmPtr then ({ s with obs := { s.obs with alarm := { s.obs.alarm with rd := v32 } } }).flushAlarms 257
  else s

/-- The selector of a level 2 window. -/
def selectL2 (s : State) (v32 : Nat) : State :=
  { s with regs := { s.regs with imm := s.regs.imm.set offL2Sel (BitVec.ofNat 64 (v32 &&& (bits 13 8 + bits 3 0))) } }

/-- A write to the last-trip record clears its VALID bit. -/
def clearTrip (s : State) (v32 : Nat) : State :=
  if bit v32 31 then { s with power := { s.power with tripValid := false } } else s

/-- A write of the halves `m` of the word at `off`, the data `v` in place, lands in the register there. -/
def landWord (s : State) (off m v : Nat) : State :=
  if rwMask off ≠ 0 then s.stageWord off m v
  else if !(bit m 0) then s
  else if off = offCtlSetupSrc then s.clearSetup (v % 2 ^ 32)
  else if off = offL2Sel then s.selectL2 (v % 2 ^ 32)
  else if off = offPwrTrip then s.clearTrip (v % 2 ^ 32)
  else s.landPointer off (v % 2 ^ 32)

/-- The halves of a word a write of `size` bytes at `off` covers. -/
def halves (off size : Nat) : Nat := if size = 8 then bits 63 0 else if off % 8 = 0 then bits 31 0 else bits 63 32

/-- Whether an access is one that BAR0 and BAR4 accept: aligned, 32 or 64 bits (R452). -/
def alignedAccess (off size : Nat) : Bool := (size == 4 || size == 8) && off % size == 0

/-- A write to the MSI-X table (R182, R451). -/
def msixWrite (s : State) (h off size v : Nat) : State :=
  let i := off / 16
  let key := 2048 * h + i
  let e := s.msix.getD key {}
  let m := halves off size
  let w := if size = 4 && off % 8 = 4 then v % 2 ^ 32 * 2 ^ 32 else v
  if off / 8 % 2 = 0 then { s with msix := s.msix.set key { e with addr := e.addr - (e.addr &&& m) + (w &&& m) } }
  else
    let s := if bit m 0 then { s with msix := s.msix.set key { e with data := w % 2 ^ 32 } } else s
    if bit m 32 then s.vectorControl h i (bit w 32) else s

/-- A write to a head's CXL component registers, the HDM decoder among them, which are kept as they are written (R451; what they do is the
CXL specification's, log entry 58). -/
def cxlWrite (s : State) (h off size v : Nat) : State :=
  let m := halves off size
  let w := if size = 4 && off % 8 = 4 then v % 2 ^ 32 * 2 ^ 32 else v
  let old := (s.headAt h).cxl.getD (off / 8) 0
  s.modHead h (fun x => { x with cxl := x.cxl.set (off / 8) (old - (old &&& m) + (w &&& m)) })

/-- A write of a host to one of a head's windows (R400, R451, R452). A register with a row of its own is written by that
row. -/
def regWrite (s : State) (h bar off size v : Nat) : State :=
  if !(s.headUp h) || !(alignedAccess off size) then s
  else if bar = 0 then
    let w := if size = 4 && off % 8 = 4 then v % 2 ^ 32 * 2 ^ 32 else if size = 4 then v % 2 ^ 32 else v
    (s.landWord (off / 8 * 8) (halves off size) w).landSetup h
  else if bar = 4 && off < 0x8000 then s.msixWrite h off size v
  else if bar = 4 && 0x10000 ≤ off && off < 0x20000 then s.cxlWrite h off size v
  else s

end State

/-- SELECTOR_WRITE. -/
def execSelectorWrite (head off : Nat) (value : BitVec 32) (s : State) : Outcome State Fault Refusal :=
  .next (s.setupWrite head (fun s => if selBits off = 0 then s else s.select off value.toNat))

/-- REGISTER_WRITE. -/
def execRegisterWrite (head bar off size : Nat) (data : Word) (s : State) : Outcome State Fault Refusal :=
  .next (s.regWrite head bar off size data.toNat)

end Sys2Proof.Machine
end

