-- ==== Sys2Proof/Machine/Time.lean ====
section
/-! DEFINITION. The time base: lock to Plumb, pulses and their residuals, steps, TIME_SET, Precision Time Measurement, slots,
quiet windows, lane samples and telemetry (R361 to R376, R403). -/

namespace Sys2Proof.Machine

open Host (Outcome)

/-- The bond-period boundary nearest a counter value; midway, the later one (R363). -/
def nearestBoundary (c : Nat) : Nat := (c + 2 ^ 25) / 2 ^ 26 * 2 ^ 26

/-- Quarter-nanoseconds between two counter values, whichever is later. -/
def apart (a b : Nat) : Nat := (a - b) + (b - a)

/-- A residual in whole ns, signed (R370). -/
def residNs (c b : Nat) : Int := Int.tdiv ((c : Int) - b) 4

/-- A residual as TIM_STATUS holds it: 16 bits, saturating at ±32,767 (R370). -/
def residField (e : Int) : Nat := ofInt 16 (max (-32767) (min 32767 e))

/-- Whether a pulse at elapsed time `now` follows one at `p` by a bond period, to within 4 ns (R363, R364). -/
def periodAfter (p now : Nat) : Bool := decide (apart now (p + 2 ^ 24) ≤ 4)

namespace State

/-- Whether the time base follows Plumb: PLUMB_EN is 1 and PLUMB_CLK toggles (R363). -/
def plumbIn (s : State) : Bool := s.time.plumbClk && bit (s.cfg offTimCfg) 8

/-- The running estimation interval ends where the counter, just stepped, puts its end (R371, R381). -/
def alignInterval (s : State) : State :=
  if s.power.ends ≤ s.now then s else { s with power := { s.power with ends := s.edgeAfter s.now } }

/-- Step the counter to a value, with a TIME_STEP record when a cause is given (R371, R416). Expected boundaries and the end of the
running estimation interval are counted from the new value on. -/
def stepTo (s : State) (v : Nat) (cause : Option Nat) : State :=
  let old := s.time.counter
  let s := (s.moveCounter v).alignInterval
  let s := { s with time := { s.time with expected := v / 2 ^ 26 * 2 ^ 26 } }
  match cause with
  | none => s
  | some k => { s with time := { s.time with steps := (s.time.steps + 1) % 2 ^ 32 } }.logAt 0 1244 logTimeStep 1 (put old 127 64 + put k 63 60)

/-! ### TIME_SET (R367, R368) -/

/-- The step of a TIME_SET in its result words, two's complement. -/
def stepWord (new old : Nat) : Nat := ofInt 64 ((new : Int) - old)

/-- Apply a TIME_SET: UNSYNC clears when the time base is locked, and a TIME_STEP record is written (R366, R368). -/
def loadTime (s : State) (v : Nat) : State :=
  { s with time := { s.time with unsync := s.time.unsync && !s.time.lock } }.stepTo v (some 2)

/-- Whether a TIME_SET dispatched before this one has not completed (R368). -/
def earlierTimeSet (s : State) (cid : Nat) : Bool :=
  s.cmds.any (fun i c => decide (i < cid) && hdrOpcode c.desc == 0x50 && c.phase != .fetched)

/-- One run of TIME_SET at the owning Keystone: NOW takes the value, AT_SYNC waits for the next accepted pulse (R368). -/
def itemTimeSet (w : Work) (_ : Nat) : Work :=
  let d := w.cmd.desc
  if fld d 327 320 = 1 || w.s.earlierTimeSet w.cid then { w with blocked := true }
  else
    let v := fld d 319 256
    let n := stepWord v w.s.time.counter
    { w with s := w.s.loadTime v, r0 := fld n 31 0, r1 := fld n 63 32 }

/-- A TIME_SET with AT_SYNC takes its place at the time base, once every earlier TIME_SET has completed (R368). -/
def awaitPulse (s : State) (cid : Nat) : State :=
  match s.cmds.get? cid with
  | some c =>
    if c.phase == .running && hdrOpcode c.desc == 0x50 && fld c.desc 327 320 == 1 && !(s.earlierTimeSet cid) then
      { s with time := { s.time with atSync := some cid } }
    else s
  | none => s

/-- The TIME_SET that waits for a pulse, when it still runs, with its value. -/
def waitingSet (s : State) : Option (Nat × Nat) :=
  s.time.atSync.bind (fun cid => match s.cmds.get? cid with
    | some c => if c.phase == .running && !c.stopping then some (cid, fld c.desc 319 256) else none
    | none => none)

/-! ### Pulses (R363 to R365, R369) -/

/-- The alarm of R364. -/
def syncJump (s : State) (e : Int) : State := s.alarm 0 14 (ofInt 32 e)

/-- An accepted pulse: the counter takes the boundary, the boundary nearest a PTM load, or the value of a TIME_SET (R364,
R368, R369). -/
def acceptPulse (s : State) (b : Nat) (cause : Option Nat) (e : Int) : State :=
  let s := { s with time := { s.time with pulse := none, missed := 0, resid := residField e } }
  let s := (if (s.obs.alarms.getD 15 {}).active || s.obs.acc.has 15 then s.alarmEnd 0 15 else s)
  match s.waitingSet with
  | some (cid, v) =>
    let n := stepWord v s.time.counter
    let s := { s with time := { s.time with atSync := none } }.loadTime v
    (s.modCmd cid (fun c => { c with pos := c.total, r0 := fld n 31 0, r1 := fld n 63 32 })).finish cid
  | none => match s.time.ptmLoad with
    | some (t, at_) =>
      if s.cfgF offTimCfg 1 0 = 1 then
        let v := nearestBoundary (t + 4 * (s.now - at_))
        let s := { s with time := { s.time with ptmLoad := none, unsync := false } }
        s.stepTo v (if bondOf v ≠ bondOf b then some 3 else cause)
      else s.stepTo b cause
    | none => s.stepTo b cause

/-- A rising edge of PLUMB_SYNC (R363, R364). -/
def pulseArrives (s : State) : State :=
  if !s.sec.running || !s.plumbIn then s
  else
    let c := s.time.counter
    let b := nearestBoundary c
    let t := s.now
    let second := match s.time.pulse with | some p => periodAfter p t | none => false
    if !s.time.lock then
      if second then
        let again := s.time.hadLock
        let s := { s with time := { s.time with lock := true, hadLock := true, pulse := none, missed := 0 } }
        (if again then s.alarmEnd 0 16 else s).stepTo b (if again then some 4 else none)
      else { s with time := { s.time with pulse := some t } }
    else
      let e := residNs c b
      if apart c b ≤ 16 then { s with time := { s.time with pulses := s.time.pulses + 1 } }.acceptPulse b none e
      else if apart c b ≤ 4000 then (s.syncJump e).acceptPulse b (some 0) e
      else if second then (s.syncJump e).acceptPulse b (some 1) e
      else { s with time := { s.time with pulse := some t, spurious := s.time.spurious + 1 } }

/-- An expected boundary has gone by without a pulse (R365). -/
def pulseMissed (s : State) : State :=
  let x := s.time.expected + 2 ^ 26
  if !s.time.lock || s.time.counter ≤ x + 4000 then s
  else
    let n := min 255 (s.time.missed + 1)
    let s := { s with time := { s.time with missed := n, expected := x } }
    if n = 4 then s.alarm 0 15 0 (some true) else s

/-- PLUMB_CLK has shown no edge for 200 ns (R365). -/
def plumbGone (s : State) : State :=
  if !s.time.plumbClk then s
  else
    let locked := s.time.lock
    let s := { s with time := { s.time with plumbClk := false, lock := false, pulse := none, unsync := true } }
    if locked then s.alarm 0 16 0 (some true) else s

/-- PLUMB_CLK toggles: TBCLK locks to it when PLUMB_EN is set, and pulses are waited for (R363). -/
def plumbBack (s : State) : State :=
  { s with time := { s.time with plumbClk := true, pulse := if s.time.plumbClk then s.time.pulse else none } }

/-! ### Precision Time Measurement (R369) -/

/-- An exchange with the control head's upstream port; `none` is one that failed (R369). -/
def ptmExchange (s : State) (time : Option Nat) : State :=
  let due := s.time.ptmAt = 0 || s.time.ptmAt + s.cfgF offTimCfg 39 32 * 1000000 ≤ s.now
  if s.cfgF offTimCfg 1 0 ≠ 1 || !due then s
  else
    let s := { s with time := { s.time with ptmAt := s.now, ptmOk := time.isSome && s.headUp s.ctrlHead } }
    match time with
    | none => s
    | some ns =>
      if !(s.headUp s.ctrlHead) then s
      else
        let t := ofInt 63 (4 * (ns : Int) + sext 64 (s.cfg offTimOffset))
        if s.time.lock then { s with time := { s.time with ptmLoad := some (t, s.now) } }
        else if 4000 < apart t s.time.counter then s.stepTo t (some 3) else s

/-! ### Slots, windows, lanes and telemetry (R374, R376, R403) -/

/-- The slot number of a counter value over all bond periods. -/
def slotIndex (t : Nat) : Nat := 64 * bondOf t + slotOf t

/-- Measure one lane of a Quoin's receiver (R374, R403). -/
def laneRead (s : State) (x : LaneReading) : State :=
  let n := slotIndex s.time.counter
  let lane := s.time.laneNext.getD x.head 0
  if 12 ≤ x.head || !(s.permitted actLane x.head) || s.time.laneSlot.get? x.head = some n || !(s.headUp x.head) then s
  else if !x.done then
    { s with time := { s.time with laneAbandoned := s.time.laneAbandoned + 1, laneSlot := s.time.laneSlot.set x.head n } }
  else
    { s with
      obs := { s.obs with lane := s.obs.lane.set (16 * x.head + lane) (put s.stamp40 63 24 + put x.width 23 16 + put x.height 15 8 + 1) }
      time := { s.time with laneNext := s.time.laneNext.set x.head ((lane + 1) % 16), laneSlot := s.time.laneSlot.set x.head n } }

end State

/-- TIME_SET. -/
def execTimeSet (cid : Nat) (run : RunEnv) (s : State) : Outcome State Fault Refusal :=
  .next ((s.runItems cid run 0x50 isKeystone State.itemTimeSet).awaitPulse cid)

/-- PLUMB_SYNC. -/
def execPlumbSync (s : State) : Outcome State Fault Refusal := .next s.pulseArrives

/-- SYNC_MISSING. -/
def execSyncMissing (s : State) : Outcome State Fault Refusal := .next s.pulseMissed

/-- PLUMB_LOST. -/
def execPlumbLost (s : State) : Outcome State Fault Refusal := .next s.plumbGone

/-- PLUMB_CLK_PRESENT. -/
def execPlumbClkPresent (s : State) : Outcome State Fault Refusal := .next s.plumbBack

/-- PTM_EXCHANGE. -/
def execPtmExchange (time : Option Nat) (s : State) : Outcome State Fault Refusal := .next (s.ptmExchange time)

/-- PTM_REQUEST: the answer carries counter bits [62:2] (R369). -/
def execPtmRequest (head : Nat) (s : State) : Outcome State Fault Refusal :=
  .next (if s.headUp head then s.emit (.ptmTime head (nsOf s.time.counter)) else s)

/-- SLOT_BOUNDARY: the schedule is evaluated for the slot the counter has reached (R374). -/
def execSlotBoundary (s : State) : Outcome State Fault Refusal :=
  .next { s with time := { s.time with slot := slotOf s.time.counter } }

/-- QUIET_WINDOW_OPEN. -/
def execQuietWindowOpen (s : State) : Outcome State Fault Refusal :=
  .next (if s.quietNow then { s with time := { s.time with quiet := true } } else s)

/-- QUIET_WINDOW_CLOSE. -/
def execQuietWindowClose (s : State) : Outcome State Fault Refusal :=
  .next (if s.quietNow then s else { s with time := { s.time with quiet := false } })

/-- LANE_SAMPLE. -/
def execLaneSample (samples : List LaneReading) (s : State) : Outcome State Fault Refusal :=
  .next (samples.foldl State.laneRead s)

/-- TELEMETRY. -/
def execTelemetry (s : State) : Outcome State Fault Refusal :=
  .next (if s.permitted actTelemetry 0 then { s with time := { s.time with telemetry := s.time.telemetry + 1 } } else s)

end Sys2Proof.Machine
end

