-- ==== Sys2Proof/Machine/Power.lean ====
section
/-! DEFINITION. Power, droop and temperature: the estimate of each interval and what it is charged to, the levels that rails,
package, budgets, heat and regulators demand, halts and trips, and the failure of a Mortar link (R20, R381 to R398). -/

namespace Sys2Proof.Machine

open Host (Outcome)

/-! ### Activity counts (R381). The coding of the counted events is the model's own (log entry 40). -/

/-- A count's key: 64 × block + event. Blocks below 2048 are source numbers, 2048 + d is die `d` itself. Events 16 to 31 of a
die are its Mortar links. -/
def actBlock (key : Nat) : Nat := key / 64

/-- The die of a block. -/
def blockDie (b : Nat) : Nat := if 2048 ≤ b then (b - 2048) % 40 else State.dieOfSrc b

/-- Whether a count is one of Mortar flits. -/
def isMortar (key : Nat) : Bool := decide (2048 ≤ actBlock key) && decide (16 ≤ key % 64) && decide (key % 64 < 32)

/-- Whether a rail feeds a die: VDD_CRSc feeds Course die Cc alone (R383). -/
def railFeeds (rail die : Nat) : Bool := decide (16 ≤ rail) || die == 16 + rail

/-- A rail's voltage in mV; a Course rail's at a level (R383, R387). -/
def railMv (rail level : Nat) : Nat :=
  if rail < 16 then 600 + Config.voltage rail level % 251
  else if rail = 18 then 900 else if rail = 19 then 1200 else if rail = 21 then 1100
  else if rail = 22 then 800 else if rail = 23 then 1800 else 750

/-- Energy of one count from a rail, pJ. -/
def railPj (rail : Nat) (x : Nat × Nat) : Nat := if railFeeds rail (blockDie (actBlock x.1)) then Config.weight rail x.1 * x.2 else 0

/-- Energy of one count from every rail, pJ. -/
def countPj (x : Nat × Nat) : Nat := (List.range 24).foldl (fun n r => n + railPj r x) 0

/-- The sum of some numbers. -/
def sumOf (l : List Nat) : Nat := l.foldl (· + ·) 0

/-- First sensor and number of sensors of a die (R403). -/
def sensorsOf (die : Nat) : Nat × Nat :=
  if die < 4 then (4 * die, 4) else if die < 16 then (16 + 2 * (die - 4), 2)
  else if die < 32 then (40 + 8 * (die - 16), 8) else (168 + 2 * (die - 32), 2)

/-- The engines and units of a Course die, by source number (R2). -/
def sourcesOf (c : Nat) : List Nat :=
  (List.range 75).map (· + 75 * c) ++ (List.range 4).map (· + 1248 + 4 * c) ++ (List.range 2).map (· + 1312 + 2 * c)
    ++ (List.range 2).map (· + 1344 + 2 * c) ++ [1376 + c] ++ (List.range 2).map (· + 1392 + 2 * c)

/-- Window sizes in intervals (R384). -/
def windowN (w : Nat) : Nat := if w = 0 then 4 else if w = 1 then 32 else 512

/-- A window average after one interval (R384), in 2^-32 of its unit. -/
def avgNext (a i n : Nat) : Nat := if a ≤ i then a + (i - a) / n else a - (a - i) / n

/-- Lowest and highest throttle level of a rail's family; none for an alarm-only rail (R383, R387, R388). -/
def railLevels (rail : Nat) : Option (Nat × Nat) :=
  if rail < 16 then some (5, 16) else if rail = 16 || rail = 20 || rail = 21 then some (1, 8) else none

/-- The boot bit that is blown and verified: the first, from the count of burned bits on, that is not burned yet and reads back, `bad`
being those that do not (R433). -/
def bootBit (otp : NSet) (bad : List Nat) : Option Nat :=
  let b := otp.size
  ((List.range (b + bad.length + 1)).map (fun i => b + i)).find? (fun i => i < 65536 && !otp.has i && !bad.contains i)

namespace State

/-! ### The estimate (R381) -/

/-- The hottest reading of a die, 1/16 °C as 16 bits. -/
def hottest (s : State) (die : Nat) : Nat :=
  let (f, n) := sensorsOf die
  (List.range n).foldl (fun m i => let v := (s.obs.sensor.getD (f + i) (0, 0)).1; if sext 16 m < sext 16 v then v else m) (s.obs.sensor.getD f (0, 0)).1

/-- The level of a rail that its voltage follows. -/
def railVoltLevel (s : State) (rail : Nat) : Nat := if rail < 16 then (s.courses.getD rail {}).volt else 0

/-- Leakage of a die from a rail, pJ. -/
def leakPj (s : State) (rail die : Nat) : Nat :=
  if railFeeds rail die then Config.leakage rail die (s.railVoltLevel rail) (s.hottest die) else 0

/-- How long the running interval lasts, in ns: 2,048, but for one in which the counter steps (R362, R371). -/
def intervalNs (s : State) : Nat := max 1 (s.power.ends - s.power.began)

/-- Leakage of a die, pJ. -/
def dieLeak (s : State) (die : Nat) : Nat := sumOf ((List.range 24).map (fun r => s.leakPj r die))

/-- Energy of a die in an interval, pJ. -/
def diePj (s : State) (acts : List (Nat × Nat)) (die : Nat) : Nat :=
  s.dieLeak die + sumOf ((acts.filter (fun x => blockDie (actBlock x.1) = die)).map countPj)

/-- Current of a rail in an interval, in 2^-32 of 0.1 A: energy over time and voltage. -/
def railCurrent (s : State) (acts : List (Nat × Nat)) (rail : Nat) : Nat :=
  let pj := sumOf (acts.map (railPj rail)) + sumOf ((List.range 40).map (s.leakPj rail))
  10 * pj * 2 ^ 32 / (s.intervalNs * railMv rail (s.railVoltLevel rail))

/-! ### Charges (R59, R393) -/

/-- Charge energy to a command and its composition. -/
def chargeCmd (s : State) (cid nj : Nat) : State :=
  match s.cmds.get? cid with
  | some c => (s.modCmd cid (fun c => { c with energy := c.energy + nj })).bumpMeter (s.cmdComp c) mEnergy nj
  | none => s

/-- The tiles a source ran in the interval that ends: those that ended in it, and the one in progress. -/
def tilesOn (s : State) (src : Nat) : List TileRun :=
  s.power.runs.getD src [] ++ (s.cmds.rows.filter (fun x => x.2.phase == .running && x.2.busy.has src)).map (fun x =>
    { cid := x.1, comp := s.cmdComp x.2, ns := s.power.ends - max s.power.began (x.2.tileAt.getD src 0) })

/-- The energy of a Course die's engines and units, nJ by source: what each counted, and its part of the die's leakage and
clock energy. -/
def sourceNj (s : State) (acts : List (Nat × Nat)) (c : Nat) : List (Nat × Nat × Nat) :=
  let shared := s.dieLeak (16 + c) + sumOf ((acts.filter (fun x => actBlock x.1 = 2048 + 16 + c && !(isMortar x.1))).map countPj)
  let srcs := sourcesOf c
  let part (u : Nat) : Nat := if u < 1200 then 0 else shared * Config.unitPart u / 65536
  let engines := shared - sumOf (srcs.map part)
  srcs.map (fun u =>
    let own := sumOf ((acts.filter (fun x => actBlock x.1 = u)).map countPj)
    (u, own / 1000, (if u < 1200 then engines / 75 else part u) / 1000))

/-- The energy shared over line requests, nJ: Keystones, Quoins, Footings and Mortar. -/
def sharedNj (s : State) (acts : List (Nat × Nat)) : Nat :=
  let dies := (List.range 16) ++ (List.range 8).map (· + 32)
  (sumOf (dies.map (s.diePj acts)) + sumOf ((acts.filter (fun x => isMortar x.1 && 16 ≤ blockDie (actBlock x.1) && blockDie (actBlock x.1) < 32)).map countPj)) / 1000

/-- Charge energy to a command, or to its composition alone once the command has gone. -/
def chargeRun (s : State) (cid comp nj : Nat) : State :=
  if s.cmds.has cid then s.chargeCmd cid nj else s.bumpMeter comp mEnergy nj

/-- Charge one source's energy to the commands whose tiles it ran, answering what was charged and to which composition. What it counted
is theirs by the time each ran, its part of leakage and clock by that time's part of the interval; what is left is overhead (R393;
DESIGN CHOICE: a tile is taken to run for 1 ns at least, log entry 73). -/
def chargeSrc (acc : State × List (Nat × Nat)) (x : Nat × Nat × Nat) : State × List (Nat × Nat) :=
  let runs := (acc.1.tilesOn x.1).map (fun r => { r with ns := max 1 r.ns })
  let all := sumOf (runs.map (·.ns))
  runs.foldl (fun acc r =>
    let nj := x.2.1 * r.ns / all + x.2.2 * r.ns / max acc.1.intervalNs all
    (acc.1.chargeRun r.cid r.comp nj, (r.comp, nj) :: acc.2)) acc

/-- Charge the requests of an interval. -/
def chargeReq (share : Nat) (acc : State × List (Nat × Nat)) (x : Nat × Nat) : State × List (Nat × Nat) :=
  let nj := share * x.2
  if x.1 < 256 then (acc.1.bumpMeter x.1 mEnergy nj, (x.1, nj) :: acc.2)
  else if x.1 = 256 then acc
  else
    let cid := (x.1 - 512) / 256
    let comp := (x.1 - 512) % 256
    (acc.1.chargeRun cid comp nj, (comp, nj) :: acc.2)

/-- The energy of an interval, in nJ. -/
def totalNj (s : State) (acts : List (Nat × Nat)) : Nat := sumOf ((List.range 40).map (s.diePj acts)) / 1000

/-- What each request of an interval is charged, in nJ. -/
def reqShare (s : State) (acts : List (Nat × Nat)) : Nat :=
  let n := sumOf (s.power.reqs.rows.map (·.2))
  if n = 0 then 0 else s.sharedNj acts / n

/-- The estimate of the running ms takes in an interval's energy, whose requests are charged. -/
def endCharges (s : State) (total : Nat) : State :=
  { s with power := { s.power with reqs := Tab.empty, estMs := s.power.estMs + total } }

/-- A die's energy of an interval counts in its counter. -/
def countDie (acts : List (Nat × Nat)) (s : State) (d : Nat) : State := s.bump (cDieUj + d) (s.diePj acts d / 1000)

/-- Charge the sources of an interval, and then its requests. -/
def chargeBoth (s : State) (acts : List (Nat × Nat)) : State × List (Nat × Nat) :=
  s.power.reqs.rows.foldl (chargeReq (s.reqShare acts))
    (((List.range 16).flatMap (s.sourceNj acts)).foldl chargeSrc (s, []))

/-- Attribute the energy of an interval; whatever nothing else carries is overhead (R393). Answers what each composition was
charged, in pieces. -/
def chargeAll (s : State) (acts : List (Nat × Nat)) : List (Nat × Nat) × State :=
  let total := s.totalNj acts
  let x := s.chargeBoth acts
  let t := (List.range 40).foldl (countDie acts) (x.1.endCharges total)
  (x.2, t.bump cOvhUj (total - sumOf (x.2.map (·.2))))

/-! ### Levels (R384, R387 to R390, R395, R397) -/

/-- A limit of a rail in 0.1 A, by window (R385). -/
def railLimit (s : State) (rail w : Nat) : Nat := s.cfgF (offPwrRail + 8 * rail) (16 * w + 15) (16 * w)

/-- Whether a predicted current keeps every window of a rail within its limit (R384). -/
def railFits (s : State) (rail i : Nat) : Bool :=
  (List.range 3).all (fun w =>
    let n := windowN w
    decide (s.power.avg.getD (4 * rail + w) 0 * (n - 1) + i ≤ s.railLimit rail w * n * 2 ^ 32))

/-- The level a rail demands, and whether even the lowest fails (R384). -/
def railLevel (s : State) (rail lo hi : Nat) : Nat × Bool :=
  let fits (l : Nat) : Bool := s.railFits rail (Config.predict rail l (s.power.last.getD rail 0))
  match ((List.range (hi - lo + 1)).map (fun i => hi - i)).find? fits with
  | some l => (l, false)
  | none => (lo, true)

/-- Whether an alarm-only rail exceeds a limit (R384). -/
def railExceeds (s : State) (rail : Nat) : Bool :=
  (List.range 3).any (fun w => decide (s.railLimit rail w * 2 ^ 32 < s.power.avg.getD (4 * rail + w) 0))

/-- A condition alarm with several members: an occurrence as one joins, and its end as the last one leaves. -/
def memberAlarm (s : State) (kind detail : Nat) (was now_ : Bool) (others : Bool) : State :=
  if now_ && !was then s.alarm 0 kind detail (some true)
  else if was && !now_ && !others then s.alarmEnd 0 kind
  else s

/-- The alarm kind of a rail (R384). -/
def railAlarm (rail : Nat) : Nat := if 17 ≤ rail && rail ≤ 19 then 20 else 19

/-- Set one rail's demand for the next interval (R384). -/
def setRail (s : State) (rail : Nat) : State :=
  let (level, low, isBound) := match railLevels rail with
    | some (lo, hi) => let (l, f) := s.railLevel rail lo hi; (l, f, decide (l < hi))
    | none => let x := s.railExceeds rail; (0, x, x)
  let was := s.power.low.has rail
  let lows := NSet.put s.power.low rail low
  let others := lows.any (fun r _ => railAlarm r == railAlarm rail)
  let s := { s with power := { s.power with low := lows, bound := NSet.put s.power.bound rail isBound } }
  let s := s.memberAlarm (railAlarm rail) rail was low others
  if rail < 16 then s.modCourse rail (fun c => { c with railN := level })
  else if rail = 16 then { s with power := { s.power with rRail := level } }
  else if rail = 20 then { s with power := { s.power with rFtRail := level } }
  else if rail = 21 then { s with power := { s.power with rFtRail := min s.power.rFtRail level } }
  else s

/-- Whether predicted package power keeps within the limit (R389). -/
def pkgFits (s : State) (levels : List Nat) (r : Nat) : Bool :=
  decide (s.power.pkgAvg * 511 + Config.predictPkg levels r s.power.pkgLast ≤ s.cfgF offPwrPkg 10 0 * 512 * 2 ^ 32)

/-- Lower the largest Course level, the lower die among equals; with every die at 5, lower the Keystone level (R389). -/
def pkgSearch (s : State) : Nat → List Nat → Nat → List Nat × Nat × Bool
  | 0, ls, r => (ls, r, false)
  | k + 1, ls, r =>
    if s.pkgFits ls r then (ls, r, true)
    else
      let m := ls.foldl max 0
      if 5 < m then pkgSearch s k (setNth ls (ls.findIdx (· == m)) (m - 1)) r
      else if 1 < r then pkgSearch s k ls (r - 1)
      else (ls, r, false)

/-- Set the package's demands (R389). -/
def setPkg (s : State) : State :=
  let (ls, r, ok) := s.pkgSearch 200 (List.replicate 16 16) 8
  let s := (List.range 16).foldl (fun s c => s.modCourse c (fun x => { x with pkgN := nth ls c 16 })) s
  let s := s.memberAlarm 21 0 s.power.pkgOver (!ok) false
  { s with power := { s.power with rPkg := r, pkgOver := !ok } }

/-- The level a Course die is asked to run at: the lowest any cause demands (R390, R397). -/
def courseDemand (s : State) (c : Nat) : Nat :=
  let x := s.courses.getD c {}
  let fl := if s.power.floor && bit s.power.floorSrc (if c < 8 then 0 else 1) then 5 else 16
  min (min x.railN x.pkgN) (min x.thermN fl)

/-- The highest level up to the one asked for that a Course rail's present voltage carries (R387). -/
def levelFor (c demand volt : Nat) : Nat :=
  (((List.range 12).map (fun i => 16 - i)).find? (fun l => decide (l ≤ demand) && (decide (l ≤ volt) || decide (railMv c l ≤ railMv c volt)))).getD
    (min demand volt)

/-- A Course die runs at a level from now on. -/
def runAt (x : CourseSt) (n : Nat) : CourseSt := { x with n := n, peak := max x.peak n }

/-- Put the demands into force; a rise of a Course die that needs a higher voltage waits for it (R387, R388, R390). -/
def settleLevels (s : State) : State :=
  let s := (List.range 16).foldl (fun s c => s.modCourse c (fun x => runAt x (levelFor c (s.courseDemand c) x.volt))) s
  let th (a n : Nat) : Nat := (List.range n).foldl (fun m i => min m (s.power.thermR.getD (a + i) 8)) 8
  let fl := if s.power.floor then 1 else 8
  { s with power := { s.power with r := min (min s.power.rRail s.power.rPkg) (min (th 0 4) fl)
                                   rFt := min s.power.rFtRail (min (th 32 8) fl) } }

/-- Note the highest levels of the interval that ends (R387). -/
def noteLevels (s : State) : State :=
  (List.range 16).foldl (fun s c => s.modCourse c (fun x =>
    { x with history := (max x.peak x.n :: x.history).take 512, peak := 0 })) s

/-- A rail's voltage follows the highest level of the last 512 intervals (R387). -/
def followLevels (s : State) : State :=
  (List.range 16).foldl (fun s c => s.modCourse c (fun x => { x with volt := min x.volt (x.history.foldl max 5) })) s

/-! ### Budgets (R57, R58, R394) -/

/-- Take a composition's budget as it stands committed, and set the issue duty of the next interval by it; the time a lower duty has
run counts (R58, R394). -/
def setBudget (s : State) (charged : List (Nat × Nat)) (c : Nat) : State :=
  match s.comps.get? c with
  | none => s
  | some x =>
    let a := s.power.budgetAvg.getD c 0
    let b := nth x.quota 4 0 * 2 ^ 32
    let m := if b < a then max 1 (x.duty - 1) else if 10 * a < 9 * b then min 16 (x.duty + 1) else x.duty
    let nj := sumOf ((charged.filter (fun y => y.1 = c)).map (·.2))
    let s := if x.duty < 16 then s.bumpMeter c mThrottle s.intervalNs else s
    let s := s.modComp c (fun x => { x with duty := m, budgetNow := nth x.quota 4 0 })
    { s with power := { s.power with budgetAvg := s.power.budgetAvg.set c (avgNext a (nj * 2 ^ 34 / s.intervalNs) 32) } }

/-! ### The interval -/

/-- The averages of every rail after an interval with the currents `cur` (R384). -/
def nextAverages (s : State) (cur : List (Nat × Nat)) : Tab Nat :=
  cur.foldl (fun (t : Tab Nat) x => (List.range 3).foldl (fun (t : Tab Nat) w =>
    t.set (4 * x.1 + w) (avgNext (t.getD (4 * x.1 + w) 0) x.2 (windowN w))) t) s.power.avg

/-- The watts of an interval, in units of 2^-32 W. -/
def intervalWatts (s : State) (acts : List (Nat × Nat)) : Nat :=
  sumOf ((List.range 40).map (s.diePj acts)) * 2 ^ 32 / (1000 * s.intervalNs)

/-- The averages take in the interval that ends (R384, R389). -/
def takeInterval (s : State) (acts : List (Nat × Nat)) : State :=
  let cur := (List.range 24).map (fun r => (r, s.railCurrent acts r))
  let watts := s.intervalWatts acts
  { s with power := { s.power with
    avg := s.nextAverages cur
    last := cur.foldl (fun (t : Tab Nat) x => t.set x.1 x.2) s.power.last
    pkgAvg := avgNext s.power.pkgAvg watts 512
    pkgLast := watts } }

/-- The levels that the averages so far ask for (R381, R384, R389). -/
def setLevels (s : State) : State := (((List.range 24).foldl setRail s).setPkg).settleLevels

/-- The energy of an interval is attributed, and the energy budgets of the compositions follow (R393, R394). -/
def chargeInterval (s : State) (acts : List (Nat × Nat)) : State :=
  let x := s.chargeAll acts
  x.2.comps.keys.foldl (fun s c => s.setBudget x.1 c) x.2

/-- The next interval begins where the one before ended (R362, R371). -/
def nextInterval (s : State) : State :=
  { s with power := { s.power with interval := s.power.interval + 1, began := s.power.ends, ends := s.edgeAfter s.power.ends
                                   runs := Tab.empty } }

/-- The end of an estimation interval: levels for the next one are set from the averages up to the one before, and the
averages take in the interval that ends (R381, R384, R389, R393, R394). -/
def powerInterval (s : State) (acts : List (Nat × Nat)) : State :=
  if !s.sec.running || s.now < s.power.ends then s
  else ((((s.noteLevels.setLevels).takeInterval acts).chargeInterval acts).followLevels).nextInterval

/-- The readings of the regulators, in nJ of the last ms, against the estimate (R382). -/
def pmbusRead (s : State) (readings : List Nat) : State :=
  if !s.sec.running || s.now < s.power.pmbAt + 1000000 then s
  else
    let h := ((sumOf readings, s.power.estMs) :: s.power.pmb).take 64
    let s := { s with power := { s.power with pmb := h, estMs := 0, pmbAt := s.now } }
    let (m, e) := (sumOf (h.map (·.1)), sumOf (h.map (·.2)))
    let d := (m - e) + (e - m)
    if h.length = 64 && decide (8 * e < 100 * d) then s.alarm 0 18 (if e = 0 then 0xFFFF_FFFF else satAt 0xFFFF_FFFF (1000 * d / e)) else s

/-! ### Voltage, droop and regulators (R387, R392, R397) -/

/-- A Course rail reaches the voltage of a level that was asked for. -/
def voltageReached (s : State) (c level : Nat) : State :=
  if 16 ≤ c || level ≤ (s.courses.getD c {}).volt || s.courseDemand c < level then s
  else (s.modCourse c (fun x => { x with volt := level })).settleLevels

/-- A droop detector crosses below its threshold: the die's clock stretches. -/
def droopStart (s : State) (c : Nat) : State :=
  if 16 ≤ c then s
  else
    let s' := s.modCourse c (fun x => { x with droop := true })
    if (s.courses.getD c {}).droop then s' else s'.bump (cDroopEv + c) 1

/-- HOLD stretched cycles have passed with every detector above its threshold. -/
def droopEnd (s : State) (c cycles : Nat) : State :=
  if !(s.courses.getD c {}).droop || cycles < s.cfgF offPwrDroop 25 16 then s
  else (s.modCourse c (fun x => { x with droop := false })).bump (cDroopCyc + c) cycles

/-- The VR_ALERT_N inputs change: `inputs` has a bit for each that is low. -/
def vrAlert (s : State) (inputs : Nat) : State :=
  if !s.sec.running then s
  else
    let low := inputs % 256
    let s := { s with power := { s.power with
        alert := low, floorSrc := if low = 0 && !s.power.floor then 0 else s.power.floorSrc ||| low
        alertClear := if low = 0 && s.power.alert ≠ 0 then s.now else s.power.alertClear, floor := s.power.floor || low != 0 } }
    (if low = 0 then s else s.alarm 0 24 low (some true)).settleLevels

/-- All inputs have been high for 1 ms: the floor state ends. -/
def floorEnds (s : State) : State :=
  if !s.power.floor || s.power.alert ≠ 0 || s.now < s.power.alertClear + 1000000 then s
  else ({ s with power := { s.power with floor := false, floorSrc := 0 } }.alarmEnd 0 24).settleLevels

/-! ### Temperature (R395, R396, R398, R403) -/

/-- One level down, held, or up, as a die's sensors read. -/
def thermStep (hot cool : Bool) (lo hi l : Nat) : Nat := if hot then max lo (l - 1) else if cool then min hi (l + 1) else l

/-- Adjust what one die demands. -/
def thermDie (readings : List Int) (s : State) (die : Nat) : State :=
  let (f, n) := sensorsOf die
  let rs := (readings.drop f).take n
  let t : Int := 16 * (s.cfgF offPwrTherm 7 0 : Nat)
  let hot := rs.any (fun r => decide (t ≤ r))
  let cool := rs.all (fun r => decide (r < t - 48))
  if 16 ≤ die && die < 32 then
    let c := die - 16
    let calm := rs.all (fun r => decide (r < 1600))
    s.modCourse c (fun x => { x with thermN := thermStep hot cool 5 16 x.thermN
                                     haltCool := if x.halted && calm then some (x.haltCool.getD s.now) else none })
  else if 4 ≤ die && die < 16 then
    let was := s.power.hot.has die
    let hots := NSet.put s.power.hot die hot
    { s with power := { s.power with hot := hots } }.memberAlarm 22 die was hot (!hots.rows.isEmpty)
  else { s with power := { s.power with thermR := s.power.thermR.set die (thermStep hot cool 1 8 (s.power.thermR.getD die 8)) } }

/-- The thermal monitor collects 184 readings, in 1/16 °C. -/
def thermalCollect (s : State) (readings : List Int) : State :=
  if !s.sec.running || readings.length ≠ 184 || s.now < s.power.thermAt + 100000 then s
  else
    let table := (List.range 184).foldl (fun (t : Tab (Nat × Nat)) i =>
      let v := nth readings i 0
      t.set i (ofInt 16 v, max (t.getD i (0, 0)).2 (min 255 (v / 16).toNat))) s.obs.sensor
    let s := { s with obs := { s.obs with sensor := table, sensorStamp := s.stamp }, power := { s.power with thermAt := s.now } }
    ((List.range 40).foldl (thermDie readings) s).settleLevels

/-- Commands with a tile in progress on a Course die. -/
def cmdsOn (s : State) (c : Nat) : List Nat :=
  s.cmds.keys.filter (fun i => (s.cmds.get? i).any (fun x => x.phase == .running && x.busy.any (fun src _ => courseOf src == some c)))

/-- Commands bound to the check unit of a Course die, a tile of theirs in progress or not (R356). -/
def checksOn (s : State) (c : Nat) : List Nat :=
  s.cmds.keys.filter (fun i => (s.cmds.get? i).any (fun x => x.phase == .running && hdrOpcode x.desc == 0x08 && x.begun.has (1376 + c)))

/-- A die's comparator halts its engines and units; a reading of 110 °C on a halted die ends its time below 100 °C (R396). -/
def engineTrip (s : State) (c temp : Nat) : State :=
  if 16 ≤ c || temp < 110 || !s.sec.running then s
  else if (s.courses.getD c {}).halted then s.modCourse c (fun x => { x with haltCool := none })
  else
    let hit := s.cmdsOn c
    let s := (s.modCourse c (fun x => { x with halted := true, haltCool := none })).alarm (16 + c) 23 (16 + c) (some true)
    hit.foldl (fun s i => s.abandonCmd i 9) s

/-- A halted die resumes. -/
def engineResume (s : State) (c : Nat) : State :=
  let x := s.courses.getD c {}
  match x.haltCool with
  | some t =>
    if !x.halted || s.now < t + 1000000 then s
    else
      let s := s.modCourse c (fun x => { x with halted := false, haltCool := none })
      if s.courses.any (fun _ x => x.halted) then s else s.alarmEnd (16 + c) 23
  | none => s

/-- Boot bits that may be half blown: a reset while the ROM runs may interrupt the burn of the bit that is next (R433). -/
def halfBlown (s : State) : NSet :=
  if s.sec.running && !s.sec.loaded && s.sec.boot = 0 then
    (match bootBit s.sec.otp [] with | some k => s.sec.weak.add k | none => s.sec.weak)
  else s.sec.weak

/-- What is left when every supply but VDD_AUX, or the reset, has taken the rest: the trip record and THERMTRIP_N in the
VDD_AUX domain, the fuses, the free-running count of real time, and what the board drives (R398, R488, R443). -/
def cleared (s : State) : State :=
  { pending := s.pending, out := s.out, fresh := s.fresh
    time := { elapsed := s.time.elapsed, plumbClk := s.time.plumbClk }
    power := { tripValid := s.power.tripValid, tripDie := s.power.tripDie, tripTemp := s.power.tripTemp
               tripCount := s.power.tripCount, thermtrip := s.power.thermtrip }
    sec := { floorBits := s.sec.floorBits, otp := s.sec.otp, weak := s.halfBlown }
    heads := s.heads.mapV (fun _ (h : Head) => { perst := h.perst }) }

/-- A sensor reads 125 °C or more: THERMTRIP_N is asserted, every contact released, and all state outside VDD_AUX lost. -/
def thermTrip (s : State) (die temp : Nat) : State :=
  if !s.sec.running || temp < 125 || 40 ≤ die then s
  else
    let s := s.cleared
    let s := { s with power := { s.power with tripValid := true, tripDie := die, tripTemp := satAt 255 temp
                                              tripCount := satAt 255 (s.power.tripCount + 1), thermtrip := true } }
    (s.emit (.thermtrip true)).emit .released

/-! ### A Mortar link fails (R20, R121) -/

/-- The walk of one entry for a withdrawn buffer; the entry of a line lost with its owner stays with the other sharers (R121; DESIGN
CHOICE, log entry 16). -/
def walkCourse (p : Nat) (s : State) (ln : Nat) : State :=
  match s.dir.get? ln with
  | none => s
  | some e =>
    if !(e.ptrs.contains p) then s
    else if e.st == .m then { s with dir := s.dir.erase ln }.loseLine ln e.st.code 3 p
    else
      let owner := e.st == .o && e.lead == p
      let s' := s.setDir ln (e.without p)
      if owner then s'.loseLine ln e.st.code 3 p else s'

/-- A Course die is withdrawn: its commands end with FAULT, its buffer's dirty lines are lost, and its pointers and the requests of it
that wait go (R20, R121; the requests DEDUCED, log entry 15). -/
def withdraw (s : State) (c : Nat) : State :=
  if (s.courses.getD c {}).withdrawn then s
  else
    let hit := (s.cmdsOn c ++ s.checksOn c).eraseDups
    let p := 4080 + c
    let s := (s.modCourse c (fun x => { x with withdrawn := true })).alarm 0 2 (16 + c) (some true)
    let s := hit.foldl (fun s i => s.abandonCmd i 11) s
    let s := s.dir.keys.foldl (walkCourse p) s
    let s := { s with bufs := s.bufs.erase c, eng := { s.eng with partials := s.eng.partials.erase c }
                      toBuf := Tab.filter s.toBuf (fun k _ => k / 4 != c), fromBuf := Tab.filter s.fromBuf (fun k _ => k / 4 != c)
                      waitQ := s.waitQ.mapV (fun _ l => l.filter (fun (r : LineReq) => !(r.course && r.src == p))) }
    s.trans.keys.foldl (fun s ln => match s.trans.get? ln with
      | some t => if t.recalls.any (fun x => x.1 == c) then s.answered ln p .miss none 0 false else s
      | none => s) s

/-- A request accepted before a package fault completes: a read with poison, a write as dropped (R20). -/
def faultReq (s : State) (r : LineReq) : State := match r.kind with
  | .course => s
  | .lost => { s with lostDrop := (s.lostDrop + 1) % 2 ^ 32 }
  | _ => s.respond { r with grant := 0 } 0 true

/-- A package fault: heads stop accepting, rings stop fetching, and what was accepted completes (R20). -/
def packageFault (s : State) (die : Nat) : State :=
  if s.sec.pkgFault then s
  else
    let s := { s with sec := { s.sec with pkgFault := true } }.alarm 0 1 die (some true)
    let reqs := s.openReqs
    let flags := s.flags.vals.flatMap (fun f => f.held.filter (fun h => !h.revoked))
    let s := { s with trans := Tab.empty, waitQ := Tab.empty, owed := Tab.empty, mirReads := Tab.empty, calHeld := Tab.empty
                      flags := s.flags.mapV (fun _ (f : FlagSource) => { f with held := [] })
                      eng := { s.eng with kvDue := s.eng.kvDue.map (fun q => { q with owed := none }) } }
    let s := reqs.foldl faultReq s
    (flags.foldl (fun s h => s.flagCpl h.head h.tag) s).ackConflicts

/-- A link between two dies has needed 16 replays of one transfer (R20). -/
def mortarFails (s : State) (a b : Nat) : State :=
  if !s.sec.mortar then s
  else
    let course (d : Nat) : Bool := decide (16 ≤ d) && decide (d < 32)
    if course a && b < 4 then s.withdraw (a - 16)
    else if course b && a < 4 then s.withdraw (b - 16)
    else s.packageFault a

end State

/-- ENGINE_TRIP. -/
def execEngineTrip (die temp : Nat) (s : State) : Outcome State Fault Refusal := .next (s.engineTrip die temp)

/-- ENGINE_RESUME. -/
def execEngineResume (die : Nat) (s : State) : Outcome State Fault Refusal := .next (s.engineResume die)

/-- THERMAL_COLLECT. -/
def execThermalCollect (readings : List Int) (s : State) : Outcome State Fault Refusal := .next (s.thermalCollect readings)

/-- THERMTRIP. -/
def execThermtrip (die temp : Nat) (s : State) : Outcome State Fault Refusal := .next (s.thermTrip die temp)

/-- POWER_INTERVAL. -/
def execPowerInterval (acts : List (Nat × Nat)) (s : State) : Outcome State Fault Refusal := .next (s.powerInterval acts)

/-- PMBUS_READ. -/
def execPmbusRead (readings : List Nat) (s : State) : Outcome State Fault Refusal := .next (s.pmbusRead readings)

/-- RAIL_VOLTAGE_REACHED. -/
def execRailVoltageReached (die level : Nat) (s : State) : Outcome State Fault Refusal := .next (s.voltageReached die level)

/-- DROOP. -/
def execDroop (die : Nat) (s : State) : Outcome State Fault Refusal := .next (s.droopStart die)

/-- DROOP_HOLD_END. -/
def execDroopHoldEnd (die cycles : Nat) (s : State) : Outcome State Fault Refusal := .next (s.droopEnd die cycles)

/-- VR_ALERT. -/
def execVrAlert (inputs : Nat) (s : State) : Outcome State Fault Refusal := .next (s.vrAlert inputs)

/-- FLOOR_EXIT. -/
def execFloorExit (s : State) : Outcome State Fault Refusal := .next s.floorEnds

/-- MORTAR_LINK_FAILED. -/
def execMortarLinkFailed (dieA dieB : Nat) (s : State) : Outcome State Fault Refusal := .next (s.mortarFails dieA dieB)

end Sys2Proof.Machine
end

