-- ==== Sys2Proof/Machine/Observe.lean ====
section
/-! DEFINITION. Marks on their way to the trace buffers, the MARK port, contact samples, level 2, and what BAR2 shows
(R399 to R414, R423, R424, R479). -/

namespace Sys2Proof.Machine

open Host (Outcome)

/-- Marks a trace buffer holds (R409). -/
def traceSize : Nat := 262144

/-- A mark as its 256 bits (R405). -/
def markBits (m : Mark) : Nat :=
  put m.payload 255 112 + put m.mseq 111 96 + put (b2n m.sys) 92 92 + put m.comp 91 84 + put m.kind 83 76 + put m.src 75 64 + put m.time 63 0

/-- The payload of a LOSS mark (R407). -/
def lossPayload (l : Loss) : Nat :=
  put l.cause 143 136 + put (satAt 0xFFFF_FFFF l.count) 135 104 + put (satAt (2 ^ 40 - 1) (l.last % 2 ^ 63 - l.first % 2 ^ 63)) 103 64
    + put l.first 63 0

namespace State

/-- A Keystone's trace buffer. -/
def traceAt (s : State) (k : Nat) : Trace := nth s.obs.trace k {}

/-- Replace a Keystone's trace buffer. -/
def setTrace (s : State) (k : Nat) (t : Trace) : State := { s with obs := { s.obs with trace := setNth s.obs.trace k t } }

/-- Whether a buffer gives a credit: it is not frozen, and in STREAM mode it is not full of marks in transit (R408, R409). -/
def traceTakes (s : State) (k : Nat) : Bool :=
  let t := s.traceAt k
  !t.frozen && (s.cfgF offTraceCfg 33 32 != 0 || decide (t.stream.length < traceSize))

/-- A mark enters a buffer: drained in STREAM mode, filling once in FREEZE mode, overwriting the oldest in RING mode; after a
freeze trigger only POST more enter (R409). -/
def traceEnter (s : State) (k : Nat) (m : Mark) : State :=
  let t := s.traceAt k
  let dest := s.cfgF offTraceCfg 33 32
  let full := dest == 2 && t.marks.has t.next
  let nx := (t.next + 1) % traceSize
  let post := t.post.map (· - 1)
  let t' : Trace :=
    { t with marks := t.marks.set t.next m, next := nx, stream := if dest = 0 then t.stream ++ [t.next] else t.stream
             overwritten := t.overwritten + b2n full, sinceSync := t.sinceSync + 1, post := post
             frozen := (dest == 1 && nx == 0) || post == some 0 }
  let s := (s.setTrace k t').bump cMarksOut 1
  if m.sys then s else s.bumpCount m.comp pMarksOut 1

/-- The LOSS mark a source owes (R407, R408). -/
def lossMark (s : State) (src : Nat) (q : MarkSrc) (l : Loss) : Mark :=
  { time := s.stamp, src := src, kind := 0x10, comp := 0, sys := true, mseq := q.mseq, payload := lossPayload l }

/-- A source sends what it has first: its LOSS mark, then its oldest mark. A mark whose buffer has frozen is dropped, but a
PIN_SAMPLE mark waits (R408). -/
def markStep (s : State) (src : Nat) : State :=
  let q := s.obs.srcs.getD src {}
  let setQ (s : State) (q : MarkSrc) : State := { s with obs := { s.obs with srcs := s.obs.srcs.set src q } }
  match q.loss with
  | some l =>
    let m := s.lossMark src q l
    if s.traceTakes (markKeystone m) then
      (setQ s { q with loss := none, mseq := (q.mseq + 1) % 65536 }).traceEnter (markKeystone m) m
    else s
  | none => match q.queue with
    | [] => s
    | m :: rest =>
      let k := markKeystone m
      if s.traceTakes k then (setQ s { q with queue := rest }).traceEnter k m
      else if (s.traceAt k).frozen && m.kind != 0x20 then
        let s := (setQ s (MarkSrcDrop { q with queue := rest } 4 s.stamp)).bump cMarksDropped 1
        if m.sys then s else s.bumpCount m.comp pMarksDropped 1
      else s

/-- A write of 1 to OBS_TRACE_REARM (R409). -/
def rearm (s : State) : State :=
  { s with obs := { s.obs with trace := s.obs.trace.map (fun (t : Trace) => { t with frozen := false, post := none, next := 0 }) } }

/-! ### Contact samples (R413, R479) -/

/-- The marks of a full sample: tile kind, tile index and part. -/
def sampleParts : List (Nat × Nat × Nat) :=
  (List.range 12).map (fun h => (0, h, 0)) ++ (List.range 32).flatMap (fun c => [(1, c, 0), (1, c, 1)])
    ++ [(2, 0, 0), (3, 0, 0), (4, 0, 0), (5, 0, 0), (6, 0, 0)]

/-- Signals of a part (R479). -/
def partSignals (p : Nat × Nat × Nat) : Nat := match p.1 with
  | 0 => 65
  | 1 => if p.2.2 = 0 then 104 else 49
  | 2 => 4 | 3 => 8 | 4 => 6 | 5 => 13 | _ => 19

/-- The levels of a part's contacts, those the controller drives low as it drives them: ALERT_N, contact 2 of SIDEBAND, and THERMTRIP_N,
contact 2 of MANAGEMENT (R413, R476, R481). -/
def drivenLevels (s : State) (p : Nat × Nat × Nat) (v : Nat) : Nat :=
  if (p.1 = 5 && s.obs.alert) || (p.1 = 6 && s.power.thermtrip) then v - put (fld v 2 2) 2 2 else v

/-- Emit the marks of a sample, from the levels of each part's contacts, in order. -/
def samplePins (s : State) (levels : List Nat) : State :=
  (sampleParts.zip (levels ++ List.replicate 81 0)).foldl (fun s x =>
    let p := x.1
    let v := s.drivenLevels p x.2
    s.mark 1244 0x20 0 true (put p.1 143 136 + put p.2.1 135 128 + put p.2.2 127 120 + (v % 2 ^ partSignals p) <<< 16)) s

/-! ### The MARK port (R410 to R412) -/

/-- One lane's scrambler, x⁵⁸ + x³⁹ + 1, over one payload, bit 0 first. The state holds the last 58 bits sent, latest
lowest. -/
def scramble (st v : Nat) : Nat × Nat :=
  (List.range 64).foldl (fun (acc : Nat × Nat) i =>
    let o := b2n ((bit v i != bit acc.1 38) != bit acc.1 57)
    ((acc.1 * 2 + o) % 2 ^ 58, acc.2 + o <<< i)) (st, 0)

/-- Send a row of four payloads with its sync header. -/
def sendRow (s : State) (sync : Nat) (lanes : List Nat) (crc : List Nat) : State :=
  let p := s.obs.port
  let out : List (Nat × Nat) := (List.range 4).map (fun l => scramble (nth p.scr l 0) (nth lanes l 0))
  { s with obs := { s.obs with port := { p with row := p.row + 1, scr := out.map (fun (x : Nat × Nat) => x.1), crc := crc } } }.emit (.row sync (out.map (fun (x : Nat × Nat) => x.2)))

/-- The running checks of the lanes over one more payload each (CRC-32C). -/
def runCrc (s : State) (lanes : List Nat) : List Nat :=
  (List.range 4).map (fun l => crcRun 0 (nth s.obs.port.crc l 0) (nth lanes l 0) 8)

/-- The buffer whose mark is sent next, round-robin (R412). -/
def nextStream (s : State) : Option Nat :=
  ((List.range 4).map (fun i => (s.obs.port.turn + i) % 4)).find? (fun k => !(s.traceAt k).stream.isEmpty)

/-- The port sends its next row: ALIGN, a mark, or IDLE (R411, R412). -/
def portRow (s : State) : State :=
  if !s.sec.running || !(bit (s.cfg offTraceCfg) 1) then s
  else
    let r := s.obs.port.row
    if r % 256 = 0 then
      let lanes := (List.range 4).map (fun l =>
        put (if r = 0 then 0 else crcEnd 0 (nth s.obs.port.crc l 0)) 63 32 + put (r / 256) 31 16 + put (b2n (r != 0)) 15 15 + put l 9 8 + 0x4B)
      s.sendRow 2 lanes (List.replicate 4 (crcStart 0 0 0))
    else match s.nextStream with
      | some k =>
        let t := s.traceAt k
        match t.stream with
        | i :: rest =>
          let b := ((t.marks.get? i).map markBits).getD 0
          let lanes := (List.range 4).map (fun l => fld b (64 * l + 63) (64 * l))
          let s := s.setTrace k { t with stream := rest }
          let s := { s with obs := { s.obs with port := { s.obs.port with turn := (k + 1) % 4 } } }
          s.sendRow 1 lanes (s.runCrc lanes)
        | [] => s
      | none =>
        let lanes := List.replicate 4 0x1E
        s.sendRow 2 lanes (s.runCrc lanes)

/-! ### Level 2 (R423, R424) -/

/-- A read of the first word of OBS_L2_CHAL draws a nonce. -/
def l2Challenge (s : State) (h : Nat) : State :=
  if !(s.headUp h) then s
  else
    let (r, s) := s.draw
    { s with sec := { s.sec with l2Nonce := some (r % 2 ^ 256) } }.emit (.nonce h (r % 2 ^ 256))

/-- A write to OBS_L2_UNLOCK; one while RESULT is BUSY is ignored. -/
def l2Write (s : State) (v : Nat) : State :=
  if s.sec.l2Result = 1 then s else { s with sec := { s.sec with l2Req := some (fld v 36 0), l2Result := 1 } }

/-- The RESULT of an attempt with a token that could be read, its bytes a little-endian number. -/
def tokenResult (s : State) (t : Nat) : Nat :=
  let bytes (a n : Nat) : Nat := fld t (8 * (a + n) - 1) (8 * a)
  if bytes 0 2 ≠ 1 || 16 ≤ bytes 2 2 then 3
  else if bytes 8 16 ≠ Config.serial % 2 ^ 128 then 4
  else if s.sec.l2Nonce ≠ some (bytes 24 32) then 5
  else if Config.shake256 68 (bytes 56 68) ≠ Config.unlockHash then 6
  else if Config.xmssVerify (bytes 56 68) 124 (bytes 0 124) (bytes 124 2820) then 2
  else 7

/-- Plinth reads the token at a line. Answers the result, and the token where it could be read; `readWaits` while a line of it has to
wait. -/
def readToken (s : State) (ln : Nat) (media : List (Nat × Media)) : (Nat × Nat) × State :=
  if (s.extHolding (64 * ln) 2944 (· == .active)).isNone then ((8, 0), s)
  else
    let x := s.ownRead media (64 * ln) 2944
    (if x.1.2 = readWaits then (readWaits, 0) else if x.1.2 ≠ 0 then (9, 0) else (x.2.tokenResult x.1.1, x.1.1), x.2)

/-- The result of a token takes effect: on success its scopes open. -/
def takeToken (s : State) (res tok : Nat) : State :=
  { s with sec := { s.sec with
    l2Req := none
    l2Nonce := none
    l2Result := res
    l2Open := s.sec.l2Open || res == 2
    l2Scope := if res = 2 then s.sec.l2Scope ||| fld tok 19 16 else s.sec.l2Scope } }

/-- Plinth reads and verifies the token, and the attempt is logged. -/
def l2Verify (s : State) (media : List (Nat × Media)) : State :=
  match s.sec.l2Req with
  | none => s
  | some ln =>
    let x := s.readToken ln media
    if x.1.1 = readWaits then x.2 else
    let t := (x.2.takeToken x.1.1 x.1.2).logAt 0 1425 logL2 1 x.1.1
    if x.1.1 = 2 then t.alarm 0 25 0 (some true) else t.alarm 0 26 x.1.1

/-! ### BAR2 (R400 to R404, R419) -/

/-- A global counter as BAR2 shows it, in the unit of its field (R401). -/
def counterWord (s : State) (w : Nat) : Nat :=
  let v := s.obs.counters.getD w 0
  if w < 16 || (cDieUj ≤ w && w ≤ cOvhUj) then v / 1000 else if w = cScrubMibms then v * 2 / 1000000 else v

/-- An entry of the sensor table (R403). -/
def sensorWord (s : State) (i : Nat) : Nat :=
  if i < 184 then (let x := s.obs.sensor.getD i (0, 0); put x.1 15 0 + put x.2 31 24) else 0

/-- A word of the level 2 window: of a memory within the opened scope, what stands there; 0 otherwise (R399, R423, R425; free values, log
entry 52). -/
def level2At (s : State) (off : Nat) : Nat :=
  let sel := s.immAt offL2Sel
  let die := fld sel 13 8
  let scope := if die < 4 then 0 else if 16 ≤ die && die < 32 then 1 else if die < 40 then 2 else 3
  let a := 0x1000000 * fld sel 3 0 + off
  if s.sec.l2Open && bit s.sec.l2Scope scope && (die < 40 || die == 63) && decide (a < Config.level2Size die) then
    Config.level2Word die a s.time.elapsed s.fresh % 2 ^ 64
  else 0

/-- A 64-bit word of BAR2 as the control head reads it (R400). -/
def bar2Word (s : State) (off : Nat) : Nat :=
  if off < 0x10000 then (if off = 0 then s.ctrlHead else if off = 8 then put s.sec.l2Scope 19 16 + put s.sec.l2Result 15 8 + b2n s.sec.l2Open else 0)
  else if off < 0x11000 then s.counterWord ((off - 0x10000) / 8)
  else if off < 0x20000 then 0
  else if off = 0x20000 then s.obs.sensorStamp
  else if off < 0x21000 then (let i := (off - 0x20008) / 4; s.sensorWord i + s.sensorWord (i + 1) * 2 ^ 32)
  else if off < 0x21600 then s.obs.lane.getD ((off - 0x21000) / 8) 0
  else if off < 0x30000 then 0
  else if off < 0x32000 then
    (let k := (off - 0x30000) / 32
     let j := (off - 0x30000) / 8 % 4
     fld (alarmBytes (s.obs.alarms.getD k {}) k 0) (64 * j + 63) (64 * j))
  else if 0x100000 ≤ off && off < 0x200000 then ((s.obs.meterPage.get? ((off - 0x100000) / 4096)).map (fun t => t.getD (off % 4096 / 8) 0)).getD 0
  else if 0x200000 ≤ off && off < 0x300000 then ((s.obs.cePage.get? ((off - 0x200000) / 4096)).map (fun t => t.getD (off % 4096 / 8) 0)).getD 0
  else if 0x1000000 ≤ off && off < 0x3000000 then
    (let t := s.traceAt ((off - 0x1000000) / 0x800000)
     ((t.marks.get? (off % 0x800000 / 32)).map (fun m => fld (markBits m) (64 * (off / 8 % 4) + 63) (64 * (off / 8 % 4)))).getD 0)
  else if 0x3000000 ≤ off && off < 0x4000000 then s.level2At (off - 0x3000000)
  else 0

/-- A 64-bit word of BAR2 as a head reads it: beyond the header, only the control head reads anything (R400). -/
def bar2At (s : State) (h off : Nat) : Nat := if h = s.ctrlHead || off < 0x10000 then s.bar2Word off else 0

/-- A byte of BAR2. -/
def bar2Byte (s : State) (a : Nat) : Nat := byteAt (s.bar2Word (a / 8 * 8)) (a % 8)

/-- The board management controller's read (R404). -/
def mctpRead (s : State) (tag off len : Nat) : State :=
  if !s.sec.running then s
  else if off % 8 = 0 && 0x10000 ≤ off && 8 ≤ len && len ≤ 64 && off + len ≤ 0x40000 then
    s.emit (.mctp tag true ((List.range len).map (fun i => s.bar2Byte (off + i))))
  else s.emit (.mctp tag false [])

end State

/-- MARK_ACCEPT. -/
def execMarkAccept (src : Nat) (s : State) : Outcome State Fault Refusal := .next (s.markStep src)

/-- MARK_PORT_ROW. -/
def execMarkPortRow (s : State) : Outcome State Fault Refusal := .next s.portRow

/-- OBS_TRACE_REARM. -/
def execObsTraceRearm (head : Nat) (value : BitVec 32) (s : State) : Outcome State Fault Refusal :=
  .next (s.setupWrite head (fun s => if bit value.toNat 0 then s.rearm else s))

/-- PIN_SAMPLE. -/
def execPinSample (head : Nat) (value : BitVec 32) (levels : List Nat) (s : State) : Outcome State Fault Refusal :=
  .next (s.setupWrite head (fun s => if bit value.toNat 0 then s.samplePins levels else s))

/-- OBS_L2_CHAL. -/
def execObsL2Chal (head : Nat) (s : State) : Outcome State Fault Refusal := .next (s.l2Challenge head)

/-- OBS_L2_UNLOCK. -/
def execObsL2Unlock (head : Nat) (value : Word) (s : State) : Outcome State Fault Refusal :=
  .next (s.setupWrite head (fun s => s.l2Write value.toNat))

/-- L2_UNLOCK. -/
def execL2Unlock (media : List (Nat × Media)) (s : State) : Outcome State Fault Refusal := .next (s.l2Verify media)

/-- MCTP_OBSERVATION_READ. -/
def execMctpObservationRead (tag off len : Nat) (s : State) : Outcome State Fault Refusal := .next (s.mctpRead tag off len)

end Sys2Proof.Machine
end

