-- ==== Sys2Proof/Machine/Startup.lean ====
section
/-! DEFINITION. Reset, start-up and the heads: the boot image, PERST_N, link training and loss, Bus Master Enable and the
Uathes rate (R426 to R434, R443 to R449, R461, R480, R488). -/

namespace Sys2Proof.Machine

open Host (Outcome)

namespace State

/-! ### RESET_N, PWROK and VDD_AUX (R186, R443, R480, R488) -/

/-- RESET_N deasserts: the straps are sampled, CTL_MASTER takes its reset value from them, and PIN_SAMPLE marks leave
(R186, R413, R443 step 3, R480). The ROM drives the SPI contacts from then on (R428). -/
def resetReleased (s : State) (straps : Nat) (levels : List Nat) : State :=
  if s.sec.running || s.power.thermtrip then s
  else
    let v := straps % 16
    let m := if 12 ≤ v then 0 else v
    let w : Word := BitVec.ofNat 64 m
    let s := { s with sec := { s.sec with running := true, resetAt := s.now, strapHead := m, straps := v, spi := true }
                      power := { s.power with began := s.now, ends := s.edgeAfter s.now }
                      regs := { s.regs with staged := s.regs.staged.set offCtlMaster w
                                            committed := s.regs.committed.set offCtlMaster w } }
    s.samplePins levels

/-- PWROK deasserts: a reset, with every contact released; THERMTRIP_N releases too (R398, R488). -/
def pwrokLost (s : State) : State :=
  let trip := s.power.thermtrip
  let s := if s.sec.running then s.cleared.emit .released else s
  if trip then { s with power := { s.power with thermtrip := false } }.emit (.thermtrip false) else s

/-- VDD_AUX goes: PWR_TRIP_HIST and the trip count with it (R398, R488). -/
def auxRemoved (s : State) : State :=
  let trip := s.power.thermtrip
  let s := { s with power := { s.power with tripValid := false, tripDie := 0, tripTemp := 0, tripCount := 0, thermtrip := false } }
  if trip then s.emit (.thermtrip false) else s

/-! ### The boot image (R427 to R430, R433) -/

end State

/-- Bytes of the flash, its contents a little-endian number (R426). -/
def flashBytes (flash off n : Nat) : Nat := fld flash (8 * (off + n) - 1) (8 * off)

/-- An image slot, its header and then its body as they are read: the flash may change in between (R426 to R428). -/
def imageAt (flash later base : Nat) : ImageSlot :=
  let len := flashBytes flash (base + 8) 4
  { magic := flashBytes flash base 4, ver := flashBytes flash (base + 4) 2, svn := flashBytes flash (base + 6) 1, bodyLen := len
    pubKey := flashBytes flash (base + 16) 68, sig := flashBytes flash (base + 84) 2820, head := flashBytes flash base 84
    body := flashBytes later (base + 4096) len }

/-- What an image's signature covers: header bytes 0 to 83 followed by the body (R427, R430). -/
def signedBytes (i : ImageSlot) : Nat := i.head + (i.body % 2 ^ (8 * i.bodyLen)) <<< 672

/-- Whether the ROM accepts a slot (R428). -/
def slotAccepted (floor : Nat) (i : ImageSlot) : Bool :=
  i.magic == 0x465A5644 && i.ver == 1 && i.bodyLen % 64 == 0 && decide (64 ≤ i.bodyLen) && decide (i.bodyLen ≤ 4194304)
    && decide (floor ≤ i.svn) && Config.shake256 68 i.pubKey == Config.firmwareHash
    && Config.xmssVerify i.pubKey (84 + i.bodyLen) (signedBytes i) i.sig

/-- The slots in the order the ROM tries them, with their numbers (R428). -/
def slotOrder (a b : ImageSlot) : List (Nat × ImageSlot) := if a.svn < b.svn then [(1, b), (0, a)] else [(0, a), (1, b)]

namespace State

/-- Boot bits that count as burned: those blown, and of the half-blown ones those that one of three reads returns as 1 (R433). -/
def burned (s : State) (ones : List Nat) : NSet := (s.sec.weak.keys.filter ones.contains).foldl NSet.add s.sec.otp

/-- The images in slots A and B, as the headers and then the bodies are read (R426). -/
def imagesOf (flash later : Nat) : List (Nat × ImageSlot) := slotOrder (imageAt flash later 0) (imageAt flash later 0x800000)

/-- The Plinth ROM selects, verifies and loads an image and burns the boot bit, or stays in the failed state; the SPI contacts then are
released (R428 to R430, R433). `ones` are the half-blown boot bits that read as 1, `bad` those that do not read back. -/
def boot (s : State) (flash later : Nat) (ones bad : List Nat) : State :=
  if !s.sec.running || s.sec.loaded || s.sec.boot ≠ 0 then s
  else
    let cert := flashBytes later 0x1000000 4096
    let meas (image : Nat) : List Nat := [Config.romMeasure, image, Config.fuseMeasure s.sec.floorBits, Config.certMeasure cert s.sec.straps]
    match (imagesOf flash later).find? (fun x => slotAccepted s.sec.floorBits x.2) with
    | none => { s with sec := { s.sec with boot := 2, spi := false, cert := cert, meas := meas 0 }, obs := { s.obs with alert := true } }
    | some (n, i) =>
      let bits := s.burned ones
      let β := bootBit bits bad
      { s with sec := { s.sec with
          loaded := true, svn := i.svn % 256, slot := n, cert := cert, spi := false
          otp := match β with | some k => s.sec.otp.add k | none => s.sec.otp
          weak := bad.foldl NSet.add s.sec.weak
          boots := bits.size + b2n β.isSome
          xnext := β.map (fun k => k * 2 ^ 24)
          xend := match β with | some k => (k + 1) * 2 ^ 24 | none => 0
          meas := meas (Config.shake256 (84 + i.bodyLen) (signedBytes i)) } }

/-- Mortar trains, and firmware runs; a link that fails its check is a package fault (R443 steps 5 and 6). -/
def mortarUp (s : State) (failed : Option (Nat × Nat)) : State :=
  if !s.sec.loaded || s.sec.mortar then s
  else
    let s := { s with sec := { s.sec with mortar := true, fw := true, fwAt := s.now, boot := 1 } }
    match failed with
    | some x => s.packageFault x.1
    | none => s

/-- The next identity signature index of this boot; `none` when none remains (R433, R434). -/
def nextIndex (s : State) : Option Nat := s.sec.xnext.filter (fun i => i < s.sec.xend)

/-! ### Links (R116, R121, R443, R449) -/

/-- A head's outage begins, with the HEAD_DOWN_GRACE in force; an outage already running keeps its own (R116, R121). -/
def outage (s : State) (hd : Head) : Head :=
  if hd.wasDown then { hd with up := false, width := 0, rate := 0 }
  else { hd with up := false, width := 0, rate := 0, wasDown := true, gone := Tab.empty, downAt := s.now, graceMs := s.graceMs }

/-- A head's link reaches L0 at a width and rate, coded as in HED_UATHES; what waits for the link may leave (R84, R443,
R449). Coming up below x16 counts a width reduction (R401). -/
def linkComesUp (s : State) (h width rate : Nat) : State :=
  let hd := s.headAt h
  if 12 ≤ h || !s.sec.fw || hd.perst || hd.up || width = 0 || 5 < width || rate = 0 || 4 < rate then s
  else
    let s := s.modHead h (fun x => { x with up := true, width := width, rate := rate, wasDown := false, gone := Tab.empty })
    ((if width < 5 then s.bump (cHeadErr + 4 * h + 3) 1 else s).pump).pumpSnoops h

/-- A head's link leaves L0 and Recovery. -/
def linkGoesDown (s : State) (h : Nat) : State := if (s.headAt h).up then (s.modHead h s.outage).pump else s

/-- Whether a head's configuration space answers: 100 ms after the later of PERST_N and step 6 (R443 step 7). -/
def configUp (s : State) (h : Nat) : Bool := s.headUp h && decide (max (s.headAt h).perstAt s.sec.fwAt + 100000000 ≤ s.now)

/-- The controller's requests to host memory through a head fail at once: all of them, or those not yet transmitted
(R85, R262, R445). -/
def hostFails (s : State) (h : Nat) (all : Bool) : State :=
  s.remotes.keys.foldl (fun s id => match s.remotes.get? id with
    | some r => if r.host && r.head == h && (all || r.sent.isNone) then s.endRemote id r 11 (2 ^ (8 * r.len) - 1) else s
    | none => s) s

/-- Bus Master Enable is written (R262). -/
def busMaster (s : State) (h : Nat) (on : Bool) : State :=
  if !s.configUp h then s
  else
    let s := s.modHead h (fun x => { x with bme := on })
    if on then s else s.hostFails h false

/-! ### PERST_N (R445, R461) -/

end State

/-- The head number that stands for no head: responses to it are discarded. -/
def noHead : Nat := 12

/-- A request of a head that has been reset completes without a response (R445). -/
def LineReq.unheard (h : Nat) (r : LineReq) : LineReq := if r.head = h then { r with head := noHead } else r

namespace State

/-- Requests already admitted complete, their responses discarded (R445). -/
def unhear (s : State) (h : Nat) : State :=
  { s with
    trans := s.trans.mapV (fun _ (t : Trans) => { t with req := t.req.unheard h })
    waitQ := s.waitQ.mapV (fun _ l => l.map (LineReq.unheard h))
    owed := s.owed.mapV (fun _ l => l.map (LineReq.unheard h))
    mirReads := s.mirReads.mapV (fun _ r => r.unheard h)
    calHeld := s.calHeld.mapV (fun _ l => l.map (fun a => { a with req := a.req.unheard h }))
    eng := { s.eng with kvDue := s.eng.kvDue.map (fun q => { q with owed := q.owed.map (fun o => (o.1, o.2.unheard h)) }) }
    conflicts := s.conflicts.filter (fun c => c.head != h)
    uio := Tab.filter s.uio (fun k _ => k / 65536 != h) }

/-- Whether a BAR0 offset lies in a head's HED page, outside HED_ROUTE. -/
def hedReset (h off : Nat) : Bool := off / 0x1000 == offHed h / 0x1000 && !(0x140 ≤ off % 0x1000 && off % 0x1000 < 0x160)

/-- A head's HED page returns to its reset values, HED_ROUTE apart, and its waiting commits are discarded (R461). -/
def resetHedPage (s : State) (h : Nat) : State :=
  { s with regs := { s.regs with
      staged := Tab.filter s.regs.staged (fun o _ => !hedReset h o)
      committed := Tab.filter s.regs.committed (fun o _ => !hedReset h o)
      queue := s.regs.queue.filter (fun f => f.dom != .hed h)
      status := s.regs.status.erase (offHed h) } }

/-- Add Capacity records posted on a head are due again (R461). -/
def redue (s : State) (h : Nat) : State :=
  { s with exts := s.exts.mapV (fun _ (e : Extent) =>
      if e.presented.has h then { e with presented := e.presented.erase h, deferred := e.deferred.add h } else e) }

/-- The keys a head's PERST_N erases beyond the head's own record, and its evidence requests (R436, R440, R445). -/
def eraseHeadKeys (s : State) (h : Nat) : State :=
  { s with sec := { s.sec with
      ctxKeys := Tab.filter s.sec.ctxKeys (fun k _ => k % 16 != h)
      sealCtr := Tab.filter s.sec.sealCtr (fun k _ => k % 16 != h)
      queue := s.sec.queue.map (fun (q : EvReq) => if q.head = h then { q with dropped := true } else q) } }

/-- Requests to peers that wait on a head whose PERST_N asserts are not transmitted meanwhile: they time out from their issue
(R445). -/
def strandPeers (s : State) (h : Nat) : State :=
  { s with remotes := s.remotes.mapV (fun _ (r : Remote) => if !r.host && r.head = h && r.sent.isNone then { r with early := true } else r) }

/-- PERST_N of a head asserts. While RESET_N is asserted it has no effect beyond its level (R445, R488). -/
def perstFalls (s : State) (h : Nat) : State :=
  if 12 ≤ h || (s.headAt h).perst then s
  else if !s.sec.running then s.modHead h (fun x => { x with perst := true })
  else
    let hd := s.outage (s.headAt h)
    let s := s.modHead h (fun _ => { perst := true, wasDown := true, gone := hd.gone, downAt := hd.downAt, graceMs := hd.graceMs })
    let s := { s with msix := Tab.filter s.msix (fun k _ => k / 2048 != h) }
    (((((s.headDropsFlags h).unhear h).resetHedPage h).redue h).eraseHeadKeys h).strandPeers h |>.hostFails h true

/-- PERST_N of a head deasserts: the link may train, from STANDARD (R443 step 7, R448). -/
def perstRises (s : State) (h : Nat) : State :=
  if 12 ≤ h || !(s.headAt h).perst then s
  else s.modHead h (fun x => { x with perst := false, perstAt := s.now, uathes := .standard })

/-! ### The Uathes rate (R446 to R449) -/

/-- The 24-bit Alternate Protocol Details field the controller sends (R446). -/
def uathesDetails (op : Nat) : Nat := put 1 23 20 + put op 19 16 + put 0x40 15 8 + put 1 7 4

/-- A partner's alternate-protocol round: ACCEPT, DECLINE, or the PCIe rejection (R446, R448). -/
def uathesOffered (s : State) (h vendor uver family rates : Nat) : State :=
  let hd := s.headAt h
  if 12 ≤ h || !s.sec.fw || hd.perst then s
  else if vendor ≠ 0x1E2A then s.emit (.altReject h)
  else
    let yes := bit (s.cfg offSecPolicy) h && hd.uathes != .failed && decide (1 ≤ uver) && family % 256 != 0 && bit rates 0
    let s := s.modHead h (fun x => { x with pfamily := family % 256 })
    if yes then
      (s.modHead h (fun x => if x.uathes == .standard || !x.up then { x with uathes := .agreed, agreedAt := s.now, goAt := none } else x)).emit
        (.uathes h (uathesDetails 1))
    else s.emit (.uathes h (uathesDetails 2))

/-- GO arrives in Recovery of a link at 64 GT/s (R447). -/
def uathesStarts (s : State) (h : Nat) : State :=
  let hd := s.headAt h
  if s.headUp h && hd.uathes == .agreed && hd.rate == 4 && hd.goAt.isNone then s.modHead h (fun x => { x with goAt := some s.now }) else s

/-- L0 is reached at 128 GT/s within 48 ms of GO (R448). -/
def uathesReached (s : State) (h : Nat) : State :=
  let hd := s.headAt h
  match hd.goAt with
  | some t =>
    if s.headUp h && hd.uathes == .agreed && decide (s.now ≤ t + 48000000) then
      s.modHead h (fun x => { x with uathes := .uathes, rate := 5, goAt := none })
    else s
  | none => s

/-- Whether the cause of a failure stands in the head's present state: more than 4 entries to Recovery, or more than 1 replay in 10⁶ flits
(R448). -/
def uathesCause (s : State) (hd : Head) : UathesFail → Bool
  | .equalisation => hd.uathes == .agreed && hd.goAt.isSome
  | .timeout => hd.uathes == .agreed && (match hd.goAt with | some t => decide (t + 48000000 ≤ s.now) | none => false)
  | .recoveries n => hd.uathes == .uathes && decide (4 < n)
  | .replays _ n flits => hd.uathes == .uathes && decide (flits < 1000000 * n)

/-- A head's counters take in what its Quoin has counted: retrains, flit CRC errors and replays (R401). -/
def countErrors (s : State) (h : Nat) : UathesFail → State
  | .recoveries n => s.bump (cHeadErr + 4 * h + 2) n
  | .replays crc n _ => (s.bump (cHeadErr + 4 * h) crc).bump (cHeadErr + 4 * h + 1) n
  | _ => s

/-- The errors of a head are counted; with cause, it leaves the Uathes rate, or fails to reach it: 64 GT/s through Recovery, with FALLBACK from UATHES (R448). -/
def uathesFails (s : State) (h : Nat) (cause : UathesFail) : State :=
  let hd := s.headAt h
  let s := if 12 ≤ h || !hd.up then s else s.countErrors h cause
  if 12 ≤ h || !s.uathesCause hd cause then s
  else
    let s' := s.modHead h (fun x => { x with uathes := .failed, goAt := none, rate := if x.up then 4 else x.rate
                                             fallbacks := satAt 255 (x.fallbacks + 1) })
    let s' := (s'.emit (.recovery h)).bump (cHeadErr + 4 * h + 2) 1
    if hd.uathes == .uathes then s'.emit (.uathes h (uathesDetails 4)) else s'

/-- HED_UATHES_CTL.RETRY (R448). -/
def uathesRetry (s : State) (h : Nat) : State :=
  if h < 12 && (s.headAt h).uathes == .failed then
    ((s.modHead h (fun x => { x with uathes := .standard })).emit (.recovery h)).bump (cHeadErr + 4 * h + 2) 1
  else s

end State

/-- RESET_DEASSERT. -/
def execResetDeassert (straps : Nat) (levels : List Nat) (s : State) : Outcome State Fault Refusal := .next (s.resetReleased straps levels)

/-- BOOT_IMAGE_ACCEPTED. -/
def execBootImageAccepted (flash later : Nat) (ones bad : List Nat) (s : State) : Outcome State Fault Refusal :=
  .next (s.boot flash later ones bad)

/-- MORTAR_TRAINED. -/
def execMortarTrained (failed : Option (Nat × Nat)) (s : State) : Outcome State Fault Refusal := .next (s.mortarUp failed)

/-- CONTROLLER_RESET (R67, R461). -/
def execControllerReset (s : State) : Outcome State Fault Refusal := .next s.cleared

/-- PWROK_LOSS. -/
def execPwrokLoss (s : State) : Outcome State Fault Refusal := .next s.pwrokLost

/-- VDD_AUX_REMOVAL. -/
def execVddAuxRemoval (s : State) : Outcome State Fault Refusal := .next s.auxRemoved

/-- PERST_ASSERT. -/
def execPerstAssert (head : Nat) (s : State) : Outcome State Fault Refusal := .next (s.perstFalls head)

/-- PERST_DEASSERT. -/
def execPerstDeassert (head : Nat) (s : State) : Outcome State Fault Refusal := .next (s.perstRises head)

/-- LINK_UP. -/
def execLinkUp (head width rate : Nat) (s : State) : Outcome State Fault Refusal := .next (s.linkComesUp head width rate)

/-- LINK_DOWN. -/
def execLinkDown (head : Nat) (s : State) : Outcome State Fault Refusal := .next (s.linkGoesDown head)

/-- BUS_MASTER_ENABLE. -/
def execBusMasterEnable (head : Nat) (set : Bool) (s : State) : Outcome State Fault Refusal := .next (s.busMaster head set)

/-- UATHES_OFFER. -/
def execUathesOffer (head vendor uver family rates : Nat) (s : State) : Outcome State Fault Refusal :=
  .next (s.uathesOffered head vendor uver family rates)

/-- UATHES_GO. -/
def execUathesGo (head : Nat) (s : State) : Outcome State Fault Refusal := .next (s.uathesStarts head)

/-- UATHES_L0. -/
def execUathesL0 (head : Nat) (s : State) : Outcome State Fault Refusal := .next (s.uathesReached head)

/-- UATHES_FAILED. -/
def execUathesFailed (head : Nat) (cause : UathesFail) (s : State) : Outcome State Fault Refusal := .next (s.uathesFails head cause)

/-- HED_UATHES_CTL. -/
def execHedUathesCtl (head page : Nat) (value : BitVec 32) (s : State) : Outcome State Fault Refusal :=
  .next (s.setupWrite head (fun s => if bit value.toNat 0 then s.uathesRetry page else s))

end Sys2Proof.Machine
end

