-- ==== Sys2Proof/Machine/Security.lean ====
section
/-! DEFINITION. Plinth at run time: the version floor, Uathes evidence, SPDM sessions, IDE keys and context keys (R431,
R433 to R441). -/

namespace Sys2Proof.Machine

open Host (Outcome)

namespace State

/-! ### The version floor (R431) -/

/-- SEC_FLOOR_COMMIT.RAISE: fuse bits are blown up to the running SVN; a floor never falls. -/
def raiseFloor (s : State) : State :=
  if s.sec.boot = 1 then { s with sec := { s.sec with floorBits := max s.sec.floorBits s.sec.svn } } else s

/-! ### DOE objects (R435, R436) -/

/-- The data object types a head's mailbox lists: vendor and type (R435). -/
def doeTypes : List (Nat × Nat) := [(0x0001, 0), (0x0001, 1), (0x0001, 2), (0x1E2A, 1)]

/-- DOE Discovery: vendor in bits [15:0], type in [23:16], the next index in [31:24]. Past the last type, the vendor
reads FFFFh. -/
def doeDiscover (s : State) (h i : Nat) : State :=
  if !s.configUp h then s
  else match doeTypes[i]? with
    | some (v, t) => s.emit (.doe h 4 (put v 15 0 + put t 23 16 + put (if i + 1 < doeTypes.length then i + 1 else 0) 31 24))
    | none => s.emit (.doe h 4 0xFFFF)

/-- An evidence or certificate response that carries no more than its RESULT (R435). -/
def evidenceError (code result : Nat) : Nat := put 1 15 0 + put code 23 16 + put result 31 24

/-- Whether an evidence object has the length, VER and CODE of a request (R435). -/
def evidenceForm (len raw want code : Nat) : Bool := len == want && fld raw 15 0 == 1 && fld raw 23 16 == code

/-- An EVIDENCE_REQ arrives: it waits for Plinth, or is answered BUSY or FORMAT (R436). -/
def evidenceArrives (s : State) (h len raw : Nat) : State :=
  if !s.configUp h then s
  else if s.sec.queue.any (fun (q : EvReq) => q.head == h) then s.emit (.doe h 8 (evidenceError 0x81 2))
  else if !evidenceForm len raw 1604 0x01 then s.emit (.doe h 8 (evidenceError 0x81 1))
  else { s with sec := { s.sec with queue := s.sec.queue ++ [{ head := h, raw := raw % 2 ^ 12832 }] } }

/-- BOOTS of SEC_STATE (R434). -/
def boots (s : State) : Nat := s.sec.boots

/-- Bytes 0 to 1,783 of a successful EVIDENCE_RSP (R435). -/
def evidenceBody (s : State) (q : EvReq) (hint ct : Nat) : Nat :=
  let at' (v byte n : Nat) : Nat := (v % 2 ^ (8 * n)) <<< (8 * byte)
  evidenceError 0x81 0 + at' Config.serial 8 16 + at' hint 24 8 + at' q.head 32 1
    + at' (Config.evidenceL2 s.sec.l2Scope s.sec.l2Open) 33 1 + at' s.port 34 2 + at' s.sec.svn 36 1 + at' s.sec.floorBits 37 1
    + at' s.boots 38 4 + at' (nth s.sec.meas 0 0) 56 32 + at' (nth s.sec.meas 1 0) 88 32 + at' (nth s.sec.meas 2 0) 120 32
    + at' (nth s.sec.meas 3 0) 152 32 + at' (q.raw >>> 32) 184 32 + at' ct 216 1568

/-- Plinth has served the request at the front: it signs with the next index and derives the head's PSK; the response of
a head that has been reset is discarded, its index used (R433 to R437). -/
def evidenceServed (s : State) : State :=
  match s.sec.queue with
  | [] => s
  | q :: rest =>
    let s := { s with sec := { s.sec with queue := rest } }
    let ek := fld q.raw 12831 288
    match s.nextIndex with
    | none => if q.dropped then s else s.reply q.head (.doe q.head 8 (evidenceError 0x81 3))
    | some x =>
      if !Config.kemAccepts ek then (if q.dropped then s else s.reply q.head (.doe q.head 8 (evidenceError 0x81 4)))
      else
        let s := { s with sec := { s.sec with xnext := some (x + 1) } }
        if q.dropped then s
        else
          let (hint, s) := s.draw
          let (m, s) := s.draw
          let hint := hint % 2 ^ 64
          let (key, ct) := Config.kemEncapsulate ek (m % 2 ^ 256)
          let body := s.evidenceBody q hint ct
          let sig := Config.identitySign x (1604 + 1784) (q.raw + body <<< 12832)
          let th := Config.shake256 (1604 + 1784) (q.raw + body <<< 12832)
          let psk := Config.shake 48 64 (key % 2 ^ 256 + th <<< 256)
          (s.modHead q.head (fun x => { x with psk := some psk, hint := hint })).reply q.head
            (.doe q.head 11680 (body + (sig % 2 ^ 79144) <<< 14272))

/-- A CERT_REQ is answered with the identity certificate (R432, R435). -/
def certAsked (s : State) (h len raw : Nat) : State :=
  if !s.configUp h then s
  else if evidenceForm len raw 4 0x02 then s.emit (.doe h 2912 (evidenceError 0x82 0 + (s.sec.cert % 2 ^ 23264) <<< 32))
  else s.emit (.doe h 8 (evidenceError 0x82 1))

/-! ### SPDM (R437) -/

/-- An SPDM ERROR response with its code and data. -/
def spdmError (s : State) (h code data : Nat) : State := s.emit (.spdm h 0x7F [code, data])

/-- Whether a session runs on a head. -/
def inSession (s : State) (h : Nat) : Bool := (s.headAt h).spdm == .session

/-- The head's session ends, its secret erased. -/
def dropSession (s : State) (h : Nat) (dst : SpdmSt) : State :=
  s.modHead h (fun x => { x with spdm := dst, secret := 0, keyReady := Tab.empty })

/-- GET_VERSION begins the connection anew. -/
def spdmVersion (s : State) (h : Nat) : State :=
  if s.configUp h then (s.dropSession h .version).emit (.spdm h 0x04 [0x12]) else s

/-- GET_CAPABILITIES, after GET_VERSION. -/
def spdmCaps (s : State) (h : Nat) : State :=
  if !s.configUp h then s
  else if (s.headAt h).spdm == .version then
    (s.modHead h (fun x => { x with spdm := .caps })).emit (.spdm h 0x61 [Config.spdmCapabilities])
  else s.spdmError h 4 0

/-- NEGOTIATE_ALGORITHMS: bit 0 of the offer is TPM_ALG_SHA_384, bit 1 AES-256-GCM, bit 2 the SPDM key schedule; all
three are needed to go on. -/
def spdmAlgs (s : State) (h algs : Nat) : State :=
  if !s.configUp h then s
  else if (s.headAt h).spdm == .caps then
    (if algs % 8 = 7 then s.modHead h (fun x => { x with spdm := .algs }) else s).emit (.spdm h 0x63 [algs % 8])
  else s.spdmError h 4 0

/-- PSK_EXCHANGE with the head's hint consumes the PSK; a head holds one session. -/
def spdmPsk (s : State) (h hint nonce : Nat) : State :=
  let hd := s.headAt h
  if !s.configUp h then s
  else if hd.spdm == .session || hd.spdm == .pskSent then s.spdmError h 0x0A 0
  else if hd.spdm != .algs then s.spdmError h 4 0
  else match hd.psk with
    | some psk =>
      if hint ≠ hd.hint then s.spdmError h 1 0
      else
        let (own, s) := s.draw
        (s.modHead h (fun x => { x with psk := none, spdm := .pskSent
                                        secret := Config.sessionSecret psk hint nonce own })).emit (.spdm h 0x66 [own])
    | none => s.spdmError h 1 0

/-- PSK_FINISH completes the session; keys have to be programmed within it. -/
def spdmFinish (s : State) (h mac : Nat) : State :=
  let hd := s.headAt h
  if !s.configUp h then s
  else if hd.spdm != .pskSent then s.spdmError h 4 0
  else if Config.finishAccepts hd.secret mac then
    (s.modHead h (fun x => { x with spdm := .session, keyReady := Tab.empty, ideOld := Tab.empty })).emit (.spdm h 0x67 [])
  else (s.dropSession h .algs).spdmError h 6 0

/-- A request that only a session accepts. -/
def sessioned (s : State) (h : Nat) (f : State → State) : State :=
  if !s.configUp h then s else if s.inSession h then f s else s.spdmError h 4 0

/-- KEY_UPDATE: operations 1 and 2 refresh the keys, 3 verifies the new key. -/
def spdmKeyUpdate (s : State) (h op : Nat) : State :=
  s.sessioned h (fun s =>
    if op = 0 || 3 < op then s.spdmError h 1 0
    else
      (if op = 3 then s else s.modHead h (fun x => { x with secret := Config.updatedSecret x.secret op })).emit (.spdm h 0x69 [op]))

/-- END_SESSION erases the session's secret; streams and context keys stay. -/
def spdmEnd (s : State) (h : Nat) : State :=
  s.sessioned h (fun s => (s.dropSession h .algs).emit (.spdm h 0x6C []))

/-! ### IDE (R437 to R439) -/

/-- A stream's state. -/
def ideAt (s : State) (h stream : Nat) : IdeSt := if stream = 0 then (s.headAt h).ideMem else (s.headAt h).ideIo

/-- Change a stream's state: stream 0 is CXL.mem IDE, stream 1 the Link IDE stream of CXL.io. -/
def setIde (s : State) (h stream : Nat) (st : IdeSt) : State :=
  s.modHead h (fun x => if stream = 0 then { x with ideMem := st } else { x with ideIo := st })

/-- An answer to an IDE_KM request, by its object ID. -/
def ideKm (s : State) (h obj : Nat) (body : List Nat) : State := s.emit (.spdm h 0x7E (obj :: body))

/-- QUERY: the streams the head offers. -/
def ideQuery (s : State) (h : Nat) : State := s.sessioned h (fun s => s.ideKm h 1 [0, 1])

/-- KEY_PROG: the key of a set of a stream is kept; a stream that was off is Keyed. Status 0 is success. -/
def ideProg (s : State) (h stream set key : Nat) : State :=
  s.sessioned h (fun s =>
    if 2 ≤ stream || 2 ≤ set then s.ideKm h 3 [stream, set, 1]
    else
      let k := 2 * stream + set
      let s := s.modHead h (fun x => { x with keys := x.keys.set k (key % 2 ^ 256), keyReady := x.keyReady.add k })
      (if s.ideAt h stream == .off then s.setIde h stream .keyed else s).ideKm h 3 [stream, set, 0])

/-- K_SET_GO: the stream is Secure under a key set programmed in this session. A stream that turned Insecure in this
session needs a new one (R438). -/
def ideGo (s : State) (h stream set : Nat) : State :=
  s.sessioned h (fun s =>
    let hd := s.headAt h
    if 2 ≤ stream || 2 ≤ set || !hd.keyReady.has (2 * stream + set) || hd.ideOld.has stream then s.spdmError h 1 0
    else ((s.setIde h stream .secure).modHead h (fun x => { x with keySet := x.keySet.set stream set })).ideKm h 6 [stream, set])

/-- K_SET_STOP: the key of the set is erased. When it was the active set, a Secure stream returns to Keyed, or to off
when no key of it remains. -/
def ideStop (s : State) (h stream set : Nat) : State :=
  s.sessioned h (fun s =>
    if 2 ≤ stream || 2 ≤ set then s.spdmError h 1 0
    else
      let k := 2 * stream + set
      let active := (s.headAt h).keySet.get? stream == some set
      let s := s.modHead h (fun x => { x with keys := x.keys.erase k, keyReady := x.keyReady.erase k
                                              keySet := if active then x.keySet.erase stream else x.keySet })
      let left := (s.headAt h).keys.has (2 * stream) || (s.headAt h).keys.has (2 * stream + 1)
      let st := s.ideAt h stream
      let s := if st == .insecure || (st == .secure && !active) then s else s.setIde h stream (if left then .keyed else .off)
      s.ideKm h 6 [stream, set])

/-- An integrity check fails on a Secure stream: the flit's requests are discarded, the stream turns Insecure, and the
failure is counted and reported (R438). -/
def ideFails (s : State) (h stream : Nat) : State :=
  if !s.headUp h || 2 ≤ stream || s.ideAt h stream != .secure then s
  else
    ((s.setIde h stream .insecure).modHead h (fun x =>
      { x with ideFails := satAt 0xFFFF (x.ideFails + 1), ideOld := x.ideOld.add stream
               keyReady := (x.keyReady.erase (2 * stream)).erase (2 * stream + 1) })).emit (.aer h)

/-! ### Context keys (R440) -/

/-- SET or CLEAR of a context key. A key set again to the same value keeps its counter, since no number may repeat under
one key (R441). -/
def ctxKey (s : State) (h op ctx key : Nat) : State :=
  s.sessioned h (fun s =>
    let c := s.eng.ctxs.getD ctx {}
    let k := 16 * ctx + h
    let key := key % 2 ^ 256
    if 4096 ≤ ctx || !c.enable || !bit c.hostMask h || op = 0 || 2 < op then s.spdmError h 1 0
    else if op = 2 then
      { s with sec := { s.sec with ctxKeys := s.sec.ctxKeys.erase k, sealCtr := s.sec.sealCtr.erase k } }.emit (.spdm h 0x7E [2, ctx])
    else if !s.sec.ctxKeys.has k && 1024 ≤ s.sec.ctxKeys.size then s.spdmError h 1 0
    else
      let keep := s.sec.ctxKeys.get? k == some key
      { s with sec := { s.sec with ctxKeys := s.sec.ctxKeys.set k key
                                   sealCtr := if keep then s.sec.sealCtr else s.sec.sealCtr.erase k } }.emit (.spdm h 0x7E [1, ctx]))

end State

/-- SEC_FLOOR_COMMIT. -/
def execSecFloorCommit (head : Nat) (value : BitVec 32) (s : State) : Outcome State Fault Refusal :=
  .next (s.setupWrite head (fun s => if bit value.toNat 0 then s.raiseFloor else s))

/-- DOE_DISCOVERY. -/
def execDoeDiscovery (head index : Nat) (s : State) : Outcome State Fault Refusal := .next (s.doeDiscover head index)

/-- EVIDENCE_REQ. -/
def execEvidenceReq (head len raw : Nat) (s : State) : Outcome State Fault Refusal := .next (s.evidenceArrives head len raw)

/-- EVIDENCE_RSP. -/
def execEvidenceRsp (s : State) : Outcome State Fault Refusal := .next s.evidenceServed

/-- CERT_REQ. -/
def execCertReq (head len raw : Nat) (s : State) : Outcome State Fault Refusal := .next (s.certAsked head len raw)

/-- GET_VERSION. -/
def execGetVersion (head : Nat) (s : State) : Outcome State Fault Refusal := .next (s.spdmVersion head)

/-- GET_CAPABILITIES. The requester's flags change nothing. -/
def execGetCapabilities (head _flags : Nat) (s : State) : Outcome State Fault Refusal := .next (s.spdmCaps head)

/-- NEGOTIATE_ALGORITHMS. -/
def execNegotiateAlgorithms (head algs : Nat) (s : State) : Outcome State Fault Refusal := .next (s.spdmAlgs head algs)

/-- PSK_EXCHANGE. -/
def execPskExchange (head hint nonce : Nat) (s : State) : Outcome State Fault Refusal := .next (s.spdmPsk head hint nonce)

/-- PSK_FINISH. -/
def execPskFinish (head mac : Nat) (s : State) : Outcome State Fault Refusal := .next (s.spdmFinish head mac)

/-- KEY_UPDATE. -/
def execKeyUpdate (head op : Nat) (s : State) : Outcome State Fault Refusal := .next (s.spdmKeyUpdate head op)

/-- HEARTBEAT. -/
def execHeartbeat (head : Nat) (s : State) : Outcome State Fault Refusal := .next (s.sessioned head (fun s => s.emit (.spdm head 0x68 [])))

/-- END_SESSION. -/
def execEndSession (head : Nat) (s : State) : Outcome State Fault Refusal := .next (s.spdmEnd head)

/-- UNSUPPORTED_SPDM: ERROR with UnsupportedRequest. -/
def execUnsupportedSpdm (head code : Nat) (s : State) : Outcome State Fault Refusal :=
  .next (if s.configUp head then s.spdmError head 7 code else s)

/-- QUERY. -/
def execQuery (head : Nat) (s : State) : Outcome State Fault Refusal := .next (s.ideQuery head)

/-- KEY_PROG. -/
def execKeyProg (head stream set key : Nat) (s : State) : Outcome State Fault Refusal := .next (s.ideProg head stream set key)

/-- K_SET_GO. -/
def execKSetGo (head stream set : Nat) (s : State) : Outcome State Fault Refusal := .next (s.ideGo head stream set)

/-- K_SET_STOP. -/
def execKSetStop (head stream set : Nat) (s : State) : Outcome State Fault Refusal := .next (s.ideStop head stream set)

/-- IDE_INTEGRITY_FAILURE. -/
def execIdeIntegrityFailure (head stream : Nat) (s : State) : Outcome State Fault Refusal := .next (s.ideFails head stream)

/-- CONTEXT_KEY_REQUEST. -/
def execContextKeyRequest (head op ctx key : Nat) (s : State) : Outcome State Fault Refusal := .next (s.ctxKey head op ctx key)

end Sys2Proof.Machine
end

