-- ==== Sys2Proof/Machine/Dispatch.lean ====
section
/-! DEFINITION. The meaning of every command: one direct call for each row of the table. -/

namespace Sys2Proof.Machine

def exec (i : Instr) (s : State) : Host.Outcome State Fault Refusal :=
  match i with
  | .memRd head tag spid dpa mv env => Sys2Proof.Machine.execMemRd head tag spid dpa mv env s
  | .memSpecRd head spid dpa => Sys2Proof.Machine.execMemSpecRd head spid dpa s
  | .memWr head tag spid dpa data poison mv env => Sys2Proof.Machine.execMemWr head tag spid dpa data poison mv env s
  | .memWrPtl head tag spid dpa data be poison env => Sys2Proof.Machine.execMemWrPtl head tag spid dpa data be poison env s
  | .memInv head tag spid dpa mv dir => Sys2Proof.Machine.execMemInv head tag spid dpa mv dir s
  | .unsupportedMemRequest head tag op => Sys2Proof.Machine.execUnsupportedMemRequest head tag op s
  | .uioMemoryRead head tag spid dpa len media dirs => Sys2Proof.Machine.execUioMemoryRead head tag spid dpa len media dirs s
  | .uioMemoryWrite head tag spid dpa len data poison media dirs => Sys2Proof.Machine.execUioMemoryWrite head tag spid dpa len data poison media dirs s
  | .globalPersistentFlush head phase => Sys2Proof.Machine.execGlobalPersistentFlush head phase s
  | .releaseDynamicCapacity head tag spid ext => Sys2Proof.Machine.execReleaseDynamicCapacity head tag spid ext s
  | .flaggedStore head tag spid dpa data be dir => Sys2Proof.Machine.execFlaggedStore head tag spid dpa data be dir s
  | .flagApply spid dir => Sys2Proof.Machine.execFlagApply spid dir s
  | .flagWaitExpiry spid seq => Sys2Proof.Machine.execFlagWaitExpiry spid seq s
  | .ctlFlagReset head value => Sys2Proof.Machine.execCtlFlagReset head value s
  | .biResponse head spid line rsp => Sys2Proof.Machine.execBiResponse head spid line rsp s
  | .biConflict head spid line => Sys2Proof.Machine.execBiConflict head spid line s
  | .transactionAdmit k => Sys2Proof.Machine.execTransactionAdmit k s
  | .courseReadMiss die line env => Sys2Proof.Machine.execCourseReadMiss die line env s
  | .courseOwn die line env => Sys2Proof.Machine.execCourseOwn die line env s
  | .upgrade die line => Sys2Proof.Machine.execUpgrade die line s
  | .writeback die line => Sys2Proof.Machine.execWriteback die line s
  | .bufferAnswer die k => Sys2Proof.Machine.execBufferAnswer die k s
  | .fwd die k => Sys2Proof.Machine.execFwd die k s
  | .recallShare die k => Sys2Proof.Machine.execRecallShare die k s
  | .recallInv die k => Sys2Proof.Machine.execRecallInv die k s
  | .presence die k => Sys2Proof.Machine.execPresence die k s
  | .dirAudit k line dir => Sys2Proof.Machine.execDirAudit k line dir s
  | .biTimeout spid line => Sys2Proof.Machine.execBiTimeout spid line s
  | .headDownGrace head => Sys2Proof.Machine.execHeadDownGrace head s
  | .hostDownDeclare head value => Sys2Proof.Machine.execHostDownDeclare head value s
  | .hostReadmit head value => Sys2Proof.Machine.execHostReadmit head value s
  | .cohProbe head value => Sys2Proof.Machine.execCohProbe head value s
  | .cohLineAccept head value => Sys2Proof.Machine.execCohLineAccept head value s
  | .extentCreate => Sys2Proof.Machine.execExtentCreate s
  | .extentRevoke => Sys2Proof.Machine.execExtentRevoke s
  | .setAcl => Sys2Proof.Machine.execSetAcl s
  | .extentDrained ext => Sys2Proof.Machine.execExtentDrained ext s
  | .releaseScrub ext bad => Sys2Proof.Machine.execReleaseScrub ext bad s
  | .parityShareZeroed ext => Sys2Proof.Machine.execParityShareZeroed ext s
  | .tileAbandonTimeout cid => Sys2Proof.Machine.execTileAbandonTimeout cid s
  | .bondPeriodBoundary => Sys2Proof.Machine.execBondPeriodBoundary s
  | .directoryQuotaRecall comp k => Sys2Proof.Machine.execDirectoryQuotaRecall comp k s
  | .compositionCreate => Sys2Proof.Machine.execCompositionCreate s
  | .compositionDelete => Sys2Proof.Machine.execCompositionDelete s
  | .compositionUpdate => Sys2Proof.Machine.execCompositionUpdate s
  | .remoteCompletion id status data => Sys2Proof.Machine.execRemoteCompletion id status data s
  | .remoteTimeout id => Sys2Proof.Machine.execRemoteTimeout id s
  | .mirrorProbe ext => Sys2Proof.Machine.execMirrorProbe ext s
  | .mirrorResync ext k media => Sys2Proof.Machine.execMirrorResync ext k media s
  | .mirResync head value => Sys2Proof.Machine.execMirResync head value s
  | .mirDegrade head value => Sys2Proof.Machine.execMirDegrade head value s
  | .eccRepairWriteback line => Sys2Proof.Machine.execEccRepairWriteback line s
  | .channelFailed ch cause => Sys2Proof.Machine.execChannelFailed ch cause s
  | .regionRebuild region media => Sys2Proof.Machine.execRegionRebuild region media s
  | .regionRetired region => Sys2Proof.Machine.execRegionRetired region s
  | .medRetire head value => Sys2Proof.Machine.execMedRetire head value s
  | .medRescueRelease head value => Sys2Proof.Machine.execMedRescueRelease head value s
  | .refresh ch bank mr4 => Sys2Proof.Machine.execRefresh ch bank mr4 s
  | .rfm ch bank => Sys2Proof.Machine.execRfm ch bank s
  | .actLimit ch bank row => Sys2Proof.Machine.execActLimit ch bank row s
  | .patrolScrub footing media => Sys2Proof.Machine.execPatrolScrub footing media s
  | .scrubCoverage footing => Sys2Proof.Machine.execScrubCoverage footing s
  | .calibration ch => Sys2Proof.Machine.execCalibration ch s
  | .calibrationForced ch => Sys2Proof.Machine.execCalibrationForced ch s
  | .calibrationEnd ch ok => Sys2Proof.Machine.execCalibrationEnd ch ok s
  | .memoryTraining dimms => Sys2Proof.Machine.execMemoryTraining dimms s
  | .startUpScrub regions bad => Sys2Proof.Machine.execStartUpScrub regions bad s
  | .mortarLinkFailed dieA dieB => Sys2Proof.Machine.execMortarLinkFailed dieA dieB s
  | .ringFetch ring media => Sys2Proof.Machine.execRingFetch ring media s
  | .dispatch ring media => Sys2Proof.Machine.execDispatch ring media s
  | .waitSatisfied cid => Sys2Proof.Machine.execWaitSatisfied cid s
  | .waitLimitExpiry cid => Sys2Proof.Machine.execWaitLimitExpiry cid s
  | .tileEnd cid src => Sys2Proof.Machine.execTileEnd cid src s
  | .commandComplete cid => Sys2Proof.Machine.execCommandComplete cid s
  | .msixVectorControl head vec mask => Sys2Proof.Machine.execMsixVectorControl head vec mask s
  | .ringCreate => Sys2Proof.Machine.execRingCreate s
  | .ringDestroy => Sys2Proof.Machine.execRingDestroy s
  | .rngCommit => Sys2Proof.Machine.execRngCommit s
  | .ringZeroed ring => Sys2Proof.Machine.execRingZeroed ring s
  | .ringGone ring => Sys2Proof.Machine.execRingGone ring s
  | .nop cid run => Sys2Proof.Machine.execNop cid run s
  | .move cid run => Sys2Proof.Machine.execMove cid run s
  | .fill cid run => Sys2Proof.Machine.execFill cid run s
  | .check cid run => Sys2Proof.Machine.execCheck cid run s
  | .matmul cid run => Sys2Proof.Machine.execMatmul cid run s
  | .matmulAcc cid run => Sys2Proof.Machine.execMatmulAcc cid run s
  | .ewise cid run => Sys2Proof.Machine.execEwise cid run s
  | .reduce cid run => Sys2Proof.Machine.execReduce cid run s
  | .normOp cid run => Sys2Proof.Machine.execNormOp cid run s
  | .topk cid run => Sys2Proof.Machine.execTopk cid run s
  | .sample cid run => Sys2Proof.Machine.execSample cid run s
  | .acquire cid run => Sys2Proof.Machine.execAcquire cid run s
  | .release cid run => Sys2Proof.Machine.execRelease cid run s
  | .wait cid run => Sys2Proof.Machine.execWait cid run s
  | .signalOp cid run => Sys2Proof.Machine.execSignalOp cid run s
  | .flagWrite cid run => Sys2Proof.Machine.execFlagWrite cid run s
  | .dumpWatch cid run => Sys2Proof.Machine.execDumpWatch cid run s
  | .dumpWatchLimit cid => Sys2Proof.Machine.execDumpWatchLimit cid s
  | .kvAppend cid run => Sys2Proof.Machine.execKvAppend cid run s
  | .attend cid run => Sys2Proof.Machine.execAttend cid run s
  | .coll cid run => Sys2Proof.Machine.execColl cid run s
  | .gatherPool cid run => Sys2Proof.Machine.execGatherPool cid run s
  | .scatterAdd cid run => Sys2Proof.Machine.execScatterAdd cid run s
  | .tablePublish cid run => Sys2Proof.Machine.execTablePublish cid run s
  | .tableRetire cid run => Sys2Proof.Machine.execTableRetire cid run s
  | .search cid run => Sys2Proof.Machine.execSearch cid run s
  | .insert cid run => Sys2Proof.Machine.execInsert cid run s
  | .deleteOp cid run => Sys2Proof.Machine.execDeleteOp cid run s
  | .merge cid run => Sys2Proof.Machine.execMerge cid run s
  | .repair cid run => Sys2Proof.Machine.execRepair cid run s
  | .timeSet cid run => Sys2Proof.Machine.execTimeSet cid run s
  | .epochPublish idx => Sys2Proof.Machine.execEpochPublish idx s
  | .kvServiceRequest media => Sys2Proof.Machine.execKvServiceRequest media s
  | .pageFault cid addr => Sys2Proof.Machine.execPageFault cid addr s
  | .pageResident page => Sys2Proof.Machine.execPageResident page s
  | .groupCreate media => Sys2Proof.Machine.execGroupCreate media s
  | .groupDestroy => Sys2Proof.Machine.execGroupDestroy s
  | .groupAttach => Sys2Proof.Machine.execGroupAttach s
  | .groupDetach => Sys2Proof.Machine.execGroupDetach s
  | .groupClear => Sys2Proof.Machine.execGroupClear s
  | .groupAbort grp cause => Sys2Proof.Machine.execGroupAbort grp cause s
  | .abortRecord => Sys2Proof.Machine.execAbortRecord s
  | .indexCreate => Sys2Proof.Machine.execIndexCreate s
  | .indexDestroy => Sys2Proof.Machine.execIndexDestroy s
  | .engineTrip die temp => Sys2Proof.Machine.execEngineTrip die temp s
  | .engineResume die => Sys2Proof.Machine.execEngineResume die s
  | .thermalCollect readings => Sys2Proof.Machine.execThermalCollect readings s
  | .thermtrip die temp => Sys2Proof.Machine.execThermtrip die temp s
  | .powerInterval acts => Sys2Proof.Machine.execPowerInterval acts s
  | .pmbusRead readings => Sys2Proof.Machine.execPmbusRead readings s
  | .railVoltageReached die level => Sys2Proof.Machine.execRailVoltageReached die level s
  | .droop die => Sys2Proof.Machine.execDroop die s
  | .droopHoldEnd die cycles => Sys2Proof.Machine.execDroopHoldEnd die cycles s
  | .vrAlert inputs => Sys2Proof.Machine.execVrAlert inputs s
  | .floorExit => Sys2Proof.Machine.execFloorExit s
  | .plumbSync => Sys2Proof.Machine.execPlumbSync s
  | .syncMissing => Sys2Proof.Machine.execSyncMissing s
  | .plumbLost => Sys2Proof.Machine.execPlumbLost s
  | .ptmExchange time => Sys2Proof.Machine.execPtmExchange time s
  | .ptmRequest head => Sys2Proof.Machine.execPtmRequest head s
  | .slotBoundary => Sys2Proof.Machine.execSlotBoundary s
  | .quietWindowOpen => Sys2Proof.Machine.execQuietWindowOpen s
  | .quietWindowClose => Sys2Proof.Machine.execQuietWindowClose s
  | .laneSample samples => Sys2Proof.Machine.execLaneSample samples s
  | .telemetry => Sys2Proof.Machine.execTelemetry s
  | .markAccept src => Sys2Proof.Machine.execMarkAccept src s
  | .markPortRow => Sys2Proof.Machine.execMarkPortRow s
  | .obsTraceRearm head value => Sys2Proof.Machine.execObsTraceRearm head value s
  | .pinSample head value levels => Sys2Proof.Machine.execPinSample head value levels s
  | .logEntry die => Sys2Proof.Machine.execLogEntry die s
  | .alarmOccurrence die kind => Sys2Proof.Machine.execAlarmOccurrence die kind s
  | .obsAlarmAck head word value => Sys2Proof.Machine.execObsAlarmAck head word value s
  | .obsL2Chal head => Sys2Proof.Machine.execObsL2Chal head s
  | .obsL2Unlock head value => Sys2Proof.Machine.execObsL2Unlock head value s
  | .l2Unlock media => Sys2Proof.Machine.execL2Unlock media s
  | .mctpObservationRead tag off len => Sys2Proof.Machine.execMctpObservationRead tag off len s
  | .resetDeassert straps levels => Sys2Proof.Machine.execResetDeassert straps levels s
  | .bootImageAccepted flash later ones bad => Sys2Proof.Machine.execBootImageAccepted flash later ones bad s
  | .mortarTrained failed => Sys2Proof.Machine.execMortarTrained failed s
  | .controllerReset => Sys2Proof.Machine.execControllerReset s
  | .pwrokLoss => Sys2Proof.Machine.execPwrokLoss s
  | .perstAssert head => Sys2Proof.Machine.execPerstAssert head s
  | .perstDeassert head => Sys2Proof.Machine.execPerstDeassert head s
  | .linkUp head width rate => Sys2Proof.Machine.execLinkUp head width rate s
  | .linkDown head => Sys2Proof.Machine.execLinkDown head s
  | .uathesOffer head vendor uver family rates => Sys2Proof.Machine.execUathesOffer head vendor uver family rates s
  | .uathesGo head => Sys2Proof.Machine.execUathesGo head s
  | .uathesL0 head => Sys2Proof.Machine.execUathesL0 head s
  | .uathesFailed head cause => Sys2Proof.Machine.execUathesFailed head cause s
  | .hedUathesCtl head page value => Sys2Proof.Machine.execHedUathesCtl head page value s
  | .ideIntegrityFailure head stream => Sys2Proof.Machine.execIdeIntegrityFailure head stream s
  | .doeDiscovery head index => Sys2Proof.Machine.execDoeDiscovery head index s
  | .evidenceReq head len raw => Sys2Proof.Machine.execEvidenceReq head len raw s
  | .evidenceRsp => Sys2Proof.Machine.execEvidenceRsp s
  | .certReq head len raw => Sys2Proof.Machine.execCertReq head len raw s
  | .getVersion head => Sys2Proof.Machine.execGetVersion head s
  | .getCapabilities head flags => Sys2Proof.Machine.execGetCapabilities head flags s
  | .negotiateAlgorithms head algs => Sys2Proof.Machine.execNegotiateAlgorithms head algs s
  | .pskExchange head hint nonce => Sys2Proof.Machine.execPskExchange head hint nonce s
  | .pskFinish head mac => Sys2Proof.Machine.execPskFinish head mac s
  | .keyUpdate head op => Sys2Proof.Machine.execKeyUpdate head op s
  | .heartbeat head => Sys2Proof.Machine.execHeartbeat head s
  | .endSession head => Sys2Proof.Machine.execEndSession head s
  | .unsupportedSpdm head code => Sys2Proof.Machine.execUnsupportedSpdm head code s
  | .query head => Sys2Proof.Machine.execQuery head s
  | .keyProg head stream set key => Sys2Proof.Machine.execKeyProg head stream set key s
  | .kSetGo head stream set => Sys2Proof.Machine.execKSetGo head stream set s
  | .kSetStop head stream set => Sys2Proof.Machine.execKSetStop head stream set s
  | .contextKeyRequest head op ctx key => Sys2Proof.Machine.execContextKeyRequest head op ctx key s
  | .secFloorCommit head value => Sys2Proof.Machine.execSecFloorCommit head value s
  | .commitWrite head off value => Sys2Proof.Machine.execCommitWrite head off value s
  | .ctlCommit => Sys2Proof.Machine.execCtlCommit s
  | .cohCommit => Sys2Proof.Machine.execCohCommit s
  | .medCommit => Sys2Proof.Machine.execMedCommit s
  | .engCommit => Sys2Proof.Machine.execEngCommit s
  | .timCommit => Sys2Proof.Machine.execTimCommit s
  | .pwrCommit => Sys2Proof.Machine.execPwrCommit s
  | .obsCommit => Sys2Proof.Machine.execObsCommit s
  | .secCommit => Sys2Proof.Machine.execSecCommit s
  | .hedCommit => Sys2Proof.Machine.execHedCommit s
  | .selectorWrite head off value => Sys2Proof.Machine.execSelectorWrite head off value s
  | .registerWrite head bar off size data => Sys2Proof.Machine.execRegisterWrite head bar off size data s
  | .memRdFwd head tag spid dpa => Sys2Proof.Machine.execMemRdFwd head tag spid dpa s
  | .memWrFwd head tag spid dpa => Sys2Proof.Machine.execMemWrFwd head tag spid dpa s
  | .busMasterEnable head set => Sys2Proof.Machine.execBusMasterEnable head set s
  | .plumbClkPresent => Sys2Proof.Machine.execPlumbClkPresent s
  | .eventRingZeroed => Sys2Proof.Machine.execEventRingZeroed s
  | .logRingZeroed alarm => Sys2Proof.Machine.execLogRingZeroed alarm s
  | .vddAuxRemoval => Sys2Proof.Machine.execVddAuxRemoval s

end Sys2Proof.Machine
end

