-- ==== Sys2Proof/Machine/Tick.lean ====
section
/-! DEFINITION. One edge of TBCLK: what time alone does to the block (R27, R58, R59, R182, R361, R371). -/

namespace Sys2Proof.Machine

namespace State

/-- What a composition holds, added to its integrals for one ns (R59). -/
def integrate (s : State) (c : Nat) (m : Tab Nat) : Tab Nat :=
  let add (m : Tab Nat) (w v : Nat) : Tab Nat := if v = 0 then m else m.set w (m.getD w 0 + v)
  add (add (add (add m mExt (s.extHeld c)) mDir (s.dirCount c)) mRow (s.rowsHeld c)) mKv (s.kvHeld c)

/-- Extent capacity in Scrubbing, in 2 MiB units (R59, R401). -/
def scrubbing (s : State) : Nat :=
  s.exts.fold (fun n _ e => if e.state == .scrubbing then n + s.usable e + parityUnits e.prot e.len else n) 0

/-- One edge of TBCLK: elapsed time and the fabric-time counter advance, and the integrals of what is held run on. -/
def tick (s : State) : State :=
  let s := { s with time := { s.time with elapsed := s.time.elapsed + 1 } }
  if !s.sec.running then s.msixOut
  else
    let k := s.scrubbing
    let s := { s with comps := s.comps.mapV (fun c (x : Comp) => { x with meters := s.integrate c x.meters }) }
    let s := if k = 0 then s else s.bump cScrubMibms k
    ((s.moveCounter (s.time.counter + 4)).settleOverq).msixOut

end State

end Sys2Proof.Machine
end

