-- ==== Sys2Proof/Machine/Views.lean ====
section
/-! DEFINITION. What the registers of BAR0 read as: identification, staged and committed copies, status registers, and the
read-only views of the blocks (R98, R430, R434, R439, R449, R452, R453, R458, R462 to R471). -/

namespace Sys2Proof.Machine

namespace State

/-! ### The ID block (R462, R469 to R471) -/

/-- ID_VEND: STEPPING A0, FAMILY, DEVICE and VENDOR (R469). -/
def idVend : Nat := put 0x10 47 40 + put 0x40 39 32 + put 0x0D40 31 16 + put 0x1E2A 15 0

/-- ID_VER (R469). -/
def idVer : Nat := put 6 47 32 + put 1 23 20 + put 1 19 16 + put 1 15 12 + put 1 11 8 + put 1 7 4 + put 1 3 0

/-- ID_CAP (R470). -/
def idCap : List Nat :=
  [16384, 256, 4096, 4096, 256, 1024, 4096, 1024, 16777215, 25165824, 3145728, 1200, 12, 32, 2048, 4194304]

/-- ID_OPS, words 0 and 1 of version 1 and of version 2 (R471). -/
def idOps : List Nat := [0x1F070F031F030107, 0x0000000000010001, 0, 0, 0x1F1F0F031F030107, 0x0000000000010101, 0, 0]

def idWord (o : Nat) : Nat :=
  if o = 0 then idVend else if o = 8 then idVer
  else if o = 0x10 then Config.serial % 2 ^ 64 else if o = 0x18 then fld Config.serial 127 64
  else if 0x100 ≤ o && o < 0x180 then nth idCap ((o - 0x100) / 8) 0
  else if 0x200 ≤ o && o < 0x240 then nth idOps ((o - 0x200) / 8) 0
  else 0

/-! ### Read-only views of the blocks -/

/-- A status register: the last commit its domain applied, and whether one waits (R458). -/
def statusWord (s : State) (d : Dom) : Nat :=
  let st := s.regs.status.getD (d.commitOff) {}
  put st.done 63 32 + put st.whereOff 31 16 + put (b2n (s.regs.queue.any (fun f => f.dom == d))) 8 8 + put st.reason.code 7 0

/-- CTL_BOOT (R444). -/
def ctlBoot (s : State) : Nat :=
  put (s.med.front / 2 ^ 21) 43 22 + put (b2n s.sec.scrubbed) 3 3 + put (b2n s.sec.active) 2 2 + put (b2n s.sec.trained) 1 1
    + put (b2n s.sec.fw) 0 0

/-- The extent ADR_EXT_SEL selects. -/
def selExt (s : State) : Extent := s.exts.getD (s.immAt offAdrSel) {}

/-- ADR_EXT_STATE (R40, R44). -/
def adrExtState (s : State) : Nat :=
  let e := s.selExt
  put e.gen 39 32 + put (if e.state == .free then 0 else s.holesIn e.base e.len) 31 8 + put (extCode e.state) 2 0

/-- CMP_STATE (R464). -/
def cmpState (s : State) : Nat :=
  let c := s.immAt offCmpSel
  put (s.overqNow c) 47 40 + put (s.ringsOf c) 39 33 + put (b2n (s.comps.has c)) 32 32
    + put (s.exts.vals.filter (fun (e : Extent) => e.state != .free && e.comp == c)).length 14 0

/-- MED_PAR_SHARE (R133). -/
def medParShare (s : State) : Nat := match s.selExt.share with
  | some (b, n) => put n 54 32 + put b 21 0
  | none => 0

/-- MED_MIR_STATE (R138). -/
def medMirState (s : State) : Nat :=
  let e := s.selExt
  put e.dirty.size 55 32 + (match e.mir with | .none => 0 | .mirrored => 1 | .degraded => 2 | .resync => 3)

/-- MED_RESCUE_USED: a bit for each slot that holds rescued data (R143). -/
def medRescueUsed (s : State) : Nat :=
  (List.range 64).foldl (fun n i => if s.med.used.has (s.cfgF offMedRescue 21 0 + i) then n + 2 ^ i else n) 0

/-- MED_POP (R126, R149). -/
def medPop (s : State) : Nat :=
  put s.med.popReason 47 40 + put s.med.popChannel 39 35 + put s.med.rate 34 32
    + (List.range 32).foldl (fun n c => if s.chanFailed c then n + 2 ^ c else n) 0

/-- The number RNG_STATE shows for a state (R154). -/
def ringCode : RingState → Nat
  | .free => 0 | .zeroing => 1 | .active => 2 | .error => 3 | .destroying => 4

/-- RNG_STATE (R154). -/
def rngState (s : State) : Nat :=
  let i := s.immAt offRngSel
  let r := s.ringAt i
  put (if r.state == .error then r.reason else 0) 39 32 + put (s.inflight i) 26 16 + put r.version 11 8 + put (ringCode r.state) 2 0

/-- ENG_TBL_STATE (R303, R309). -/
def tblState (s : State) : Nat := match s.eng.tbls.get? (s.immAt (offTblSel)) with
  | none => 0
  | some t =>
    let cur := t.vers.find? (fun (v : TblVer) => v.state == 1)
    let st := if t.vers.isEmpty then 0 else if cur.isSome then 1 else 2
    put ((cur.map (fun (v : TblVer) => v.ver)).getD 0) 127 96 + put (t.vers.foldl (fun n (v : TblVer) => n + v.bound) 0) 95 64
      + put (if st = 0 then 0 else t.comp) 63 56
      + put t.vers.length 38 36 + put (b2n (t.vers.any (fun (v : TblVer) => v.dead))) 35 35 + put (b2n cur.isSome) 32 32 + put st 1 0

/-- ENG_GRP_STATE (R287). -/
def grpStateWord (s : State) : Nat :=
  let g := s.grpAt (s.immAt offGrpSel)
  put g.last 127 64 + put g.epoch 63 48 + put g.cause 47 40 + put g.origin 39 28 + put g.rank 25 16 + put g.aborts 11 2
    + (match g.state with | .free => 0 | .active => 1 | .aborted => 2 | .draining => 3)

/-- ENG_GRP_PROG, its times in whole µs (R301). -/
def grpProg (s : State) : Nat :=
  let g := s.grpAt (s.immAt offGrpSel)
  let m (i : Nat) : Nat := g.marks.getD i 0
  put (m 4) 224 224 + put (m 3) 223 192 + put (m 2 / 1000) 191 128 + put (m 1 / 1000) 127 64 + put (m 0 / 1000) 63 0

/-- ENG_IDX_STATE (R324). -/
def idxState (s : State) : Nat :=
  let x := s.idxAt (s.immAt offIdxSel)
  put x.bound 255 224 + put x.hwm 223 192 + put x.live 191 160 + put x.tomb 159 128 + put x.epoch 127 80 + put x.entry 79 48
    + put (x.sideTail - x.sideHead) 47 27 + put x.state 1 0

/-- TIM_STATUS (R370). -/
def timStatus (s : State) : Nat :=
  put s.time.steps 63 32 + put s.time.resid 31 16 + put s.time.missed 15 8 + put (b2n s.time.ptmOk) 2 2 + put (b2n s.time.unsync) 1 1
    + put (b2n s.time.lock) 0 0

/-- PWR_TRIP_HIST (R398). -/
def tripHist (s : State) : Nat :=
  put (b2n s.power.tripValid) 31 31 + put s.power.tripDie 21 16 + put s.power.tripTemp 15 8 + put s.power.tripCount 7 0

/-- PWR_STATE (R398). -/
def pwrState (s : State) : Nat :=
  let dies (p : CourseSt → Bool) : Nat := (List.range 16).foldl (fun n c => if p (s.courses.getD c {}) then n + 2 ^ c else n) 0
  put s.power.floorSrc 63 56 + put (dies (fun x => x.halted)) 55 40 + put (dies (fun x => decide (x.n < 16))) 39 24
    + (List.range 24).foldl (fun n r => if s.power.bound.has r then n + 2 ^ r else n) 0

/-- OBS_TRACE_STAT of a Keystone (R409). -/
def traceStat (s : State) (k : Nat) : Nat :=
  let t := s.traceAt k
  put t.overwritten 127 64 + put (b2n t.frozen) 63 63 + put t.next 17 0

/-- OBS_L2_STATE (R424). -/
def l2State (s : State) : Nat := put s.sec.l2Scope 19 16 + put s.sec.l2Result 15 8 + b2n s.sec.l2Open

/-- SEC_STATE (R434). -/
def secState (s : State) : Nat :=
  put (if !s.sec.loaded then 0 else match s.nextIndex with | some x => x | none => 2 ^ 40 - 1) 127 88 + put s.boots 87 71 + put s.sec.floorBits 63 56
    + put s.sec.svn 55 48 + put s.sec.slot 3 2 + put s.sec.boot 1 0

/-- The number HED_IDE_STATE shows for a stream (R439). -/
def ideCode : IdeSt → Nat
  | .off => 0 | .keyed => 1 | .secure => 2 | .insecure => 3

/-- HED_IDE_STATE (R439). -/
def hedIdeState (s : State) (h : Nat) : Nat :=
  let x := s.headAt h
  put x.ideFails 31 16 + put (ideCode x.ideIo) 3 2 + put (ideCode x.ideMem) 1 0

/-- HED_UATHES (R449). -/
def hedUathes (s : State) (h : Nat) : Nat :=
  let x := s.headAt h
  put x.fallbacks 31 24 + put x.pfamily 23 16 + put x.width 10 8 + put x.rate 7 4
    + (match x.uathes with | .standard => 0 | .agreed => 1 | .uathes => 2 | .failed => 3)

/-- Word `i`, of 64 bits, of a wide register. -/
def word (v i : Nat) : Nat := fld v (64 * i + 63) (64 * i)

/-- The read-only and RWI registers by offset. -/
def roWord (s : State) (o : Nat) : Nat :=
  if o = offCtlSetupSrc then s.regs.setupSrc
  else if o = offCtlBoot then s.ctlBoot
  else if o = 0x020130 then s.adrExtState
  else if o = 0x040130 then s.cmpState
  else if o = offCohLostPtr then put s.lostWr 63 32 + put s.lostRd 31 0
  else if o = offCohLostPtr + 8 then s.lostDrop % 2 ^ 32
  else if offCohProbeResult ≤ o && o < offCohProbeResult + 16 then word s.regs.probeResult ((o - offCohProbeResult) / 8)
  else if o = offMedShare then s.medParShare
  else if o = offMedMirState then s.medMirState
  else if o = offMedUsed then s.medRescueUsed
  else if o = offMedPop then s.medPop
  else if o = offRngState then s.rngState
  else if o = offRngCap then 6
  else if o = offRngEvtPtr then put s.events.wr 63 32 + put s.events.rd 31 0
  else if o = offRngEvtPtr + 8 then s.events.drop % 2 ^ 32
  else if offTblState ≤ o && o < offTblState + 16 then word s.tblState ((o - offTblState) / 8)
  else if offGrpState ≤ o && o < offGrpState + 16 then word s.grpStateWord ((o - offGrpState) / 8)
  else if offGrpProg ≤ o && o < offGrpProg + 32 then word s.grpProg ((o - offGrpProg) / 8)
  else if offIdxState ≤ o && o < offIdxState + 32 then word s.idxState ((o - offIdxState) / 8)
  else if o = offTimNow then s.stamp
  else if o = offTimStatus then s.timStatus
  else if o = offPwrTrip then s.tripHist
  else if o = offPwrState then s.pwrState
  else if offTraceStat ≤ o && o < offTraceStat + 64 then word (s.traceStat ((o - offTraceStat) / 16)) (o / 8 % 2)
  else if o = offLogPtr then put s.obs.log.wr 63 32 + put s.obs.log.rd 31 0
  else if o = offLogPtr + 8 then s.obs.counters.getD cLogDropped 0 % 2 ^ 32
  else if o = offAlmPtr then put s.obs.alarm.wr 63 32 + put s.obs.alarm.rd 31 0
  else if offL2Chal ≤ o && o < offL2Chal + 32 then word (s.sec.l2Nonce.getD 0) ((o - offL2Chal) / 8)
  else if o = offL2State then s.l2State
  else if offSecState ≤ o && o < offSecState + 16 then word s.secState ((o - offSecState) / 8)
  else if offSecMeas ≤ o && o < offSecMeas + 128 then word (nth s.sec.meas ((o - offSecMeas) / 32) 0) ((o - offSecMeas) / 8 % 4)
  else if o = offCohProbe then s.regs.probeLine
  else if selBits o ≠ 0 || o = offL2Sel then s.immAt o
  else 0

/-- The offset of the register whose committed copy is read at `o`, in the blocks other than the HED pages (R453). -/
def committedOf (o : Nat) : Option Nat := if bit o 15 && rwMask (o - 0x8000) ≠ 0 then some (o - 0x8000) else none

/-- A word of BAR0 as a read returns it. A WO register reads 0, and so does a reserved offset (R6, R452). -/
def bar0Word (s : State) (o : Nat) : Nat :=
  if o % 8 ≠ 0 then 0
  else if o < 0x10000 then idWord o
  else if offHed 0 ≤ o && o < offHed 12 then
    (let h := (o - offHed 0) / 0x1000
     let r := o % 0x1000
     if r = 8 then s.statusWord (.hed h)
     else if r = 0x180 then s.hedIdeState h
     else if r = 0x188 then s.hedUathes h
     else if rwMask o ≠ 0 then (s.regs.stagedAt o).toNat
     else if 0x800 ≤ r && rwMask (o - 0x800) ≠ 0 then s.cfg (o - 0x800)
     else 0)
  else match domOf (o - 8) with
    | some d => s.statusWord d
    | none =>
      if rwMask o ≠ 0 then (s.regs.stagedAt o).toNat
      else match committedOf o with
        | some r => s.cfg r
        | none => s.roWord o

end State

end Sys2Proof.Machine
end

