-- ==== Sys2Proof/Safety.lean ====
section
/-! DEFINITION. What counts as a safe run, in the terms the statements use: the canonical form of memory, the read of one
byte, and what a command that completes leaves. -/

namespace Sys2Proof.Machine

/-- Whether a list of cells stands in the canonical form: addresses strictly rising, and no cell equal to what an unlisted
byte reads as (0). -/
def Memory.wf : List Host.Cell → Bool
  | [] => true
  | [c] => c.2 != 0
  | c :: d :: t => c.2 != 0 && decide (c.1 < d.1) && Memory.wf (d :: t)

/-- One byte of the store as it stands in DRAM. -/
def State.byte (s : State) (a : Nat) : Nat := readMem s.mem a 1

/-- A command completes from a state: exec answers a next state, of which `p` holds. -/
def Completes (c : Instr) (s : State) (p : State → Prop) : Prop := ∃ t, exec c s = .next t ∧ p t

/-- What no command may do, beside its own effect: it keeps the canonical form of memory, leaves the waiting commands and
elapsed time alone (R371), takes back nothing that was sent, never lowers the version floor (R431), never takes a burned boot bit
back (R433), and never reuses a free value. -/
structure Evolves (s t : State) : Prop where
  mem : Memory.wf s.mem = true → Memory.wf t.mem = true
  pending : t.pending = s.pending
  elapsed : t.time.elapsed = s.time.elapsed
  out : s.out <:+ t.out
  fresh : s.fresh ≤ t.fresh
  floor : s.sec.floorBits ≤ t.sec.floorBits
  otp : ∀ k, s.sec.otp.has k = true → t.sec.otp.has k = true

/-- Every byte of the store reads as before. -/
def SameMemory (s t : State) : Prop := ∀ a, t.byte a = s.byte a

/-- Every byte of the store outside `n` bytes from `a` reads as before. -/
def SameMemoryOutside (s t : State) (a n : Nat) : Prop := ∀ x, x < a ∨ a + n ≤ x → t.byte x = s.byte x

/-- Whether a line carries a poison or a lost mark. -/
def State.marked (s : State) (ln : Nat) : Bool := s.poison.has ln || s.lost.has ln

/-- A line as a read answers it: zeros, where it is marked. -/
def State.shown (s : State) (ln : Nat) : Line := if s.marked ln then 0 else s.rawLine ln

/-- Whether nothing goes on at a line: no transaction runs on it, no request for it waits at its home, and no copy of it is
asked of the partner or kept for a read of the controller's own. -/
def State.free (s : State) (ln : Nat) : Bool :=
  !s.trans.has ln && !((s.waitQ.getD (lineHome ln) []).any (fun x => x.line == ln)) && !(s.mirReads.any (fun _ r => r.line == ln))
    && !s.mirCopy.has ln

/-- Whether a request to a line meets no one: nothing goes on at the line, and it is software-coherent, or a directory line with
no entry. -/
def State.unheld (s : State) (ln : Nat) : Bool := s.free ln && match s.extAt ln with
  | some (_, e) => e.coh == 0 || (s.dir.get? ln).isNone
  | none => false

/-- Whether a read of a line is answered at once with what stands in the store: the line can be read, no damaged parity line is
repaired with it, and no calibration blocks its channel (R26, R135). -/
def State.readsNow (s : State) (ln : Nat) : Bool := !s.unreadable ln && !s.parityHeals ln && !s.chanBusy (lineChan ln)

/-- Whether a line takes the bytes of a write: it is no hole, its channel works, and no rebuild copies its region. -/
def State.takesBytes (s : State) (ln : Nat) : Bool :=
  !s.inHole ln && !s.chanFailed (lineChan ln) && (s.med.rebuilds.get? (regionOf ln)).isNone

/-- Whether a descriptor waits for the value of a line: a landing there is compared with its threshold (R177). -/
def State.waitedOn (s : State) (ln : Nat) : Bool := s.cmds.any (fun _ c => c.phase == .waiting && c.waitLine == ln)

/-- Whether a write of the controller's own to a line lands at once, and on that line alone: an Active extent without protection
that takes bytes, no mark, no entry, nothing that goes on there, and no descriptor that waits for its value. -/
def State.plainLine (s : State) (ln : Nat) : Bool :=
  s.activeAt ln && s.takesBytes ln && !s.marked ln && !s.med.ue.has ln && s.protAt ln == 0 && s.free ln && !s.dir.has ln && !s.waitedOn ln

/-- Whether a command has ended with OK or PARTIAL and owes nothing but its record: no release, signal or dump, no group, no
binding, and an opcode of the tile set (R170). -/
def Cmd.endsPlainly (c : Cmd) : Bool :=
  c.phase == .ended && decide (c.status ≤ 1) && !hdrRelease c.desc && !hdrSignal c.desc && !c.firstFail && c.dumpAt.isEmpty
    && c.group == 0 && c.bound == 0 && decide (hdrOpcode c.desc < 0x20)

/-- Byte `k` of a line of data. -/
def lineByte (d : Line) (k : Nat) : Nat := fld d.toNat (8 * k + 7) (8 * k)

/-- What a domain's status reports (R458). -/
def State.outcome (s : State) (d : Dom) : DomStatus := s.regs.status.getD d.commitOff {}

/-- The state when the commit engine has taken the frame at the front of its queue, whose rest is `rest` (R455). -/
def State.taken (s : State) (rest : List Frame) : State := { s with regs := { s.regs with queue := rest } }

/-- A commit of a domain was accepted: its status says so, and counts it (R458). -/
def Accepted (s t : State) (d : Dom) : Prop :=
  t.outcome d = { done := ((s.outcome d).done + 1) % 2 ^ 32, whereOff := 0, reason := .accepted }

/-- `t` is `s` after a rejected commit: the domain's status reports the reason and the register at fault, and nothing else
changed (R456, R458). -/
def Rejected (s t : State) (d : Dom) (c : Check) : Prop :=
  let st : DomStatus := { done := ((s.outcome d).done + 1) % 2 ^ 32, whereOff := c.at_ - d.block, reason := c.reason }
  t = { s with regs := { s.regs with status := s.regs.status.set d.commitOff st } }

/-- `t` is `s` but for what was sent, for counters, meters and energy, and for the rows opened and the lines kept near the
Keystone. -/
def OnlyAnswers (s t : State) : Prop :=
  t = { s with out := t.out, obs := t.obs, comps := t.comps, power := t.power, lineBuf := t.lineBuf
               med := { s.med with banks := t.med.banks } }

/-- The engines' state without the partial results a command holds in the Course buffers: they go with its end (R245). -/
def State.withoutPartials (s : State) (cid : Nat) : EngSt := { s.eng with partials := Tab.filter s.eng.partials (fun _ x => x.cid != cid) }

/-- The state when the units of a run have taken up a tile of a command (R191, R406). -/
def State.begunOn (s : State) (cid : Nat) (c : Cmd) (run : RunEnv) : State :=
  (State.unitsOf c run).foldl (fun s u => s.takeTile cid u) s

/-- The work the source of a run begins on one item of a command. -/
def State.workAt (s : State) (cid : Nat) (run : RunEnv) (c : Cmd) : Work :=
  { s := s, cid := cid, src := run.src, comp := s.cmdComp c, media := run.media, cut := run.cut, pick := run.pick }

/-- An opcode that runs on engines or units: its code, its command, the sources that may run it for a command, and one of its
work items. -/
structure UnitOp where
  op : Nat
  cmd : Nat → RunEnv → Instr
  runs : State → Nat → Nat → Bool
  item : Work → Nat → Work

/-- The opcodes of engines and units (R191, R221, R286, R310, R333). -/
def unitOps : List UnitOp :=
  [ ⟨0x01, .move, fun _ _ => isMover, itemMove⟩, ⟨0x02, .fill, fun _ _ => isMover, itemFill⟩, ⟨0x08, .check, State.checkFree, itemCheck⟩,
    ⟨0x10, .matmul, fun _ _ => isEngine, itemMatmul false⟩, ⟨0x11, .matmulAcc, fun _ _ => isEngine, itemMatmul true⟩,
    ⟨0x18, .ewise, fun _ _ => isEngine, itemEwise⟩, ⟨0x19, .reduce, fun _ _ => isEngine, itemReduce⟩,
    ⟨0x1A, .normOp, fun _ _ => isEngine, itemNorm⟩, ⟨0x1B, .topk, fun _ _ => isEngine, itemTopk⟩,
    ⟨0x1C, .sample, fun _ _ => isEngine, itemSample⟩, ⟨0x20, .attend, fun _ _ => isEngine, itemAttend⟩,
    ⟨0x21, .kvAppend, fun _ _ => isMover, itemKvAppend⟩, ⟨0x28, .gatherPool, fun _ _ => isGather, itemGather⟩,
    ⟨0x29, .scatterAdd, fun _ _ => isGather, itemScatter⟩, ⟨0x30, .search, fun _ _ => isWalker, itemSearch⟩,
    ⟨0x31, .insert, fun _ _ => isWalker, itemInsert⟩, ⟨0x32, .deleteOp, fun _ _ => isWalker, itemDelete⟩,
    ⟨0x33, .merge, fun _ _ => isWalker, itemMerge⟩, ⟨0x34, .repair, fun _ _ => isWalker, itemRepair⟩,
    ⟨0x40, .coll, fun _ _ u => isMover u || isEngine u, itemColl⟩ ]

/-- The opcodes that the owning Keystone of a ring runs by itself (R238, R240, R306, R307). -/
def keystoneOps : List UnitOp :=
  [ ⟨0x00, .nop, fun _ _ => isKeystone, itemNone⟩, ⟨0x2A, .tablePublish, fun _ _ => isKeystone, itemPublish⟩,
    ⟨0x2B, .tableRetire, fun _ _ => isKeystone, itemRetire⟩, ⟨0x38, .acquire, fun _ _ => isKeystone, itemAcquire⟩,
    ⟨0x39, .release, fun _ _ => isKeystone, itemRelease⟩, ⟨0x3A, .wait, fun _ _ => isKeystone, itemNone⟩,
    ⟨0x3B, .signalOp, fun _ _ => isKeystone, itemNone⟩, ⟨0x3C, .flagWrite, fun _ _ => isKeystone, itemFlagWrite⟩ ]

/-- A plain row of a software-coherent, unprotected extent that lies inside one line at byte `a`, `n` bytes, and can be
read and written as it stands: its channel works and is not calibrating, it carries no mark, its line is no directory line, and
nothing goes on there. -/
structure State.PlainRow (s : State) (a n : Nat) : Prop where
  inLine : 0 < n ∧ a / 64 = (a + n - 1) / 64
  ext : ∃ i e, s.extAt (a / 64) = some (i, e) ∧ e.state = .active ∧ e.coh = 0 ∧ e.prot = 0
  takes : s.takesBytes (a / 64) = true
  clean : s.marked (a / 64) = false
  readable : s.med.ue.has (a / 64) = false
  free : s.free (a / 64) = true
  calm : s.chanBusy (lineChan (a / 64)) = false
  sent : s.mirrorOut (a / 64) = false

end Sys2Proof.Machine
end

