-- ==== Sys2Proof/Certificates/Slice0/Obligations.lean ====
section
/-! DEFINITION. The statements about the block, for the provers. -/

section

open Sys2Proof Sys2Proof.Machine

/-- One step takes the command at the front of the queue and runs exec on it with the queue's rest. -/
def Obligations.StepRunsFrontCommand : Prop :=
  ∀ (c : Instr) (rest : List Instr) (s : State), s.pending = c :: rest → step s = exec c { s with pending := rest }

/-- With no command waiting, a step is one edge of TBCLK (log entry 5, the model's choice): elapsed time counts one ns, the
running fabric-time counter advances by 4 (R361), and no byte is stored and no command queued. Nothing is sent but the MSI-X
messages that wait in their Quoins; each of those leaves, while its head's link is up (R182). -/
def Obligations.EmptyQueueIsOneEdge : Prop :=
  ∀ s : State, s.pending = [] → ∃ t, step s = .next t ∧ t.time.elapsed = s.time.elapsed + 1 ∧
    (s.sec.running = true → t.time.counter = (s.time.counter + 4) % 2 ^ 63) ∧
    t.mem = s.mem ∧ t.pending = [] ∧
    (∀ key v, s.msix.get? key = some v → v.sending = true → s.headUp (key / 2048) = true →
      Out.msix (key / 2048) (key % 2048) ∈ t.out ∧ t.msix.get? key = some { v with sending := false }) ∧
    (s.msix.all (fun _ v => !v.sending) = true → t.out = s.out ∧
      (s.sec.running = false → t = { s with time := { s.time with elapsed := s.time.elapsed + 1 } }))

/-- Right after reset nothing is listed in the store, whose form is canonical; nothing waits and nothing has been sent; the
block does not run, no head is up, the counter is 0 and UNSYNC is set (R361, R366); and no extent, composition or ring
exists. -/
def Obligations.ResetHoldsNothing : Prop :=
  Memory.wf State.reset.mem = true ∧ State.reset.mem = [] ∧ State.reset.pending = [] ∧ State.reset.out = [] ∧
    State.reset.sec.running = false ∧ (∀ h, State.reset.headUp h = false) ∧
    State.reset.time.counter = 0 ∧ State.reset.time.unsync = true ∧
    State.reset.exts = Tab.empty ∧ State.reset.comps = Tab.empty ∧ State.reset.rings = Tab.empty ∧
    (∀ a, State.reset.byte a = 0)

/-- Every command completes from every state, and does nothing that no command may do: see `Evolves`. -/
def Obligations.EveryCommandCompletes : Prop :=
  ∀ (c : Instr) (s : State), Completes c s (Evolves s)

/-- Every step keeps the canonical form of memory. -/
def Obligations.StepKeepsMemoryForm : Prop :=
  ∀ s t : State, Memory.wf s.mem = true → step s = .next t → Memory.wf t.mem = true

/-- The version floor never falls and no burned boot bit returns, whatever step is taken; so none of the indices a burned bit
stands for is used by a later boot (R431, R433). A step sends what it sends after everything sent before; no step takes an
answer back, and no free value is drawn twice. A command moves elapsed time by nothing, whatever it does to the fabric-time
counter (R371): only the idle step does. -/
def Obligations.StepsTakeNothingBack : Prop :=
  (∀ s t : State, step s = .next t →
     s.sec.floorBits ≤ t.sec.floorBits ∧ ∀ k, s.sec.otp.has k = true → t.sec.otp.has k = true) ∧
  (∀ s t : State, step s = .next t → s.out <:+ t.out ∧ s.fresh ≤ t.fresh) ∧
  (∀ (c : Instr) (rest : List Instr) (s t : State), s.pending = c :: rest → step s = .next t →
     t.time.elapsed = s.time.elapsed ∧ t.pending = rest)

/-- Where a read is answered with the line: MemRd by any MetaValue on a software extent, granted what it asks for in an HDM-DB
region (R91); and a UIO read inside one line (R62). Each answers the stored bytes, or zeros with the poison indication where the
line is marked, and changes nothing but counters and what stays open or near the Keystone. A UIO read of no bytes completes
without data (R62). MemInv with MetaValue A is answered with the state asked for, with no record. -/
def Obligations.ReadsAnswerTheLine : Prop :=
  (∀ (h tag spid dpa : Nat) (mv : MetaVal) (m : Media) (dir : DirErr) (s : State) (i : Nat) (e : Extent),
    s.memTakes h = true → s.admitted h spid dpa false = true → s.extAt (lineOf dpa) = some (i, e) → e.coh = 0 →
    s.unheld (lineOf dpa) = true → s.readsNow (lineOf dpa) = true → m = .clean ∨ m = .buffered →
    Completes (.memRd h tag spid dpa mv { media := m, dir := dir }) s (fun t =>
      t.out = .memData h tag (lineOf dpa) (s.shown (lineOf dpa)) (s.marked (lineOf dpa)) (State.grantOf (s.softGrant h (lineOf dpa) mv))
        :: s.out ∧ OnlyAnswers s t)) ∧
  (∀ (h tag spid dpa len : Nat) (dirs : List (Nat × DirErr)) (s : State) (i : Nat) (e : Extent),
    s.uioTakes h = true → 1 ≤ len → dpa % 64 + len ≤ 64 → s.admitted h spid (dpa / 64 * 64) false = true →
    s.extAt (lineOf (dpa / 64 * 64)) = some (i, e) → e.coh = 0 → s.unheld (lineOf (dpa / 64 * 64)) = true →
    s.readsNow (lineOf (dpa / 64 * 64)) = true →
    Completes (.uioMemoryRead h tag spid dpa len [] dirs) s (fun t =>
      t.out = .uioData h tag (lineOf (dpa / 64 * 64)) (dpa % 64) len (s.shown (lineOf (dpa / 64 * 64)))
          (s.marked (lineOf (dpa / 64 * 64))) :: s.out ∧ OnlyAnswers s t)) ∧
  (∀ (h tag spid dpa : Nat) (media : List (Nat × Media)) (dirs : List (Nat × DirErr)) (s : State), s.uioTakes h = true →
    exec (.uioMemoryRead h tag spid dpa 0 media dirs) s = .next { s with out := .uioCpl h tag :: s.out }) ∧
  (∀ (h tag spid dpa : Nat) (dir : DirErr) (s : State) (i : Nat) (e : Extent), s.memTakes h = true →
    s.admitted h spid dpa false = true → s.extAt (lineOf dpa) = some (i, e) → e.coh = 0 → s.unheld (lineOf dpa) = true →
    Completes (.memInv h tag spid dpa .a dir) s (fun t =>
      t.out = .cmp h tag (State.grantOf (s.softGrant h (lineOf dpa) .a)) :: s.out ∧ t = { s with out := t.out, power := t.power }))

/-- What a request that is not admitted comes to (R63, R80): a read is answered with poison and moves no byte; a write is
dropped, completed without error and counted for its source (R74); MemInv, MemRdFwd and MemWrFwd are completed with no
state granted. -/
def Obligations.RefusedRequestsMoveNoByte : Prop :=
  ∀ (h tag spid dpa : Nat) (s : State), s.memTakes h = true →
    (s.admitted h spid dpa false = false →
      (∀ mv env, Completes (.memRd h tag spid dpa mv env) s (fun t =>
        t.out = .memData h tag (lineOf dpa) 0 true .none :: s.out ∧ t = { s with out := t.out, comps := t.comps })) ∧
      (∀ mv dir, exec (.memInv h tag spid dpa mv dir) s = .next { s with out := .cmp h tag .none :: s.out }) ∧
      exec (.memRdFwd h tag spid dpa) s = .next { s with out := .cmp h tag .none :: s.out }) ∧
    (s.admitted h spid dpa true = false → exec (.memWrFwd h tag spid dpa) s = .next { s with out := .cmp h tag .none :: s.out }) ∧
    (s.admitted h spid dpa true = false → isFlagDpa dpa = false →
      (∀ d p mv env, Completes (.memWr h tag spid dpa d p mv env) s (fun t =>
        t.out = .cmp h tag .none :: s.out ∧ (t.flagSrc spid).count = (s.flagSrc spid).count + 1 ∧
          t = { s with out := t.out, comps := t.comps, flags := t.flags })) ∧
      (∀ d be p env, Completes (.memWrPtl h tag spid dpa d be p env) s (fun t =>
        t.out = .cmp h tag .none :: s.out ∧ (t.flagSrc spid).count = (s.flagSrc spid).count + 1 ∧
          t = { s with out := t.out, comps := t.comps, flags := t.flags })))

/-- The requests that touch no byte at all: any other CXL.mem opcode is answered as unsupported, MemSpecRd is a hint that
may be ignored, MemRdFwd and MemWrFwd are accepted where they are admitted (R61), and a Global Persistent Flush phase is
answered at once (R67). Each leaves everything else as it was. -/
def Obligations.RequestsWithoutEffectOnTheStore : Prop :=
  ∀ (h tag spid dpa : Nat) (s : State),
    exec (.memSpecRd h spid dpa) s = .next s ∧
    (s.memTakes h = true → ∀ op, exec (.unsupportedMemRequest h tag op) s = .next { s with out := .unsupported h tag :: s.out }) ∧
    (s.memTakes h = true → s.admitted h spid dpa false = true →
      exec (.memRdFwd h tag spid dpa) s = .next { s with out := .fwdAccepted h tag :: s.out }) ∧
    (s.memTakes h = true → s.admitted h spid dpa true = true →
      exec (.memWrFwd h tag spid dpa) s = .next { s with out := .fwdAccepted h tag :: s.out }) ∧
    (s.headUp h = true → ∀ phase, exec (.globalPersistentFlush h phase) s = .next { s with out := .gpf h phase :: s.out })

/-- Where a full-line write lands (R64): admitted to a line that no one holds and that takes bytes. After MemWr, every byte of
the line is the data's, its poison mark is the write's indication, and data without poison clears its lost mark; the write is
counted once for its source (R74), and outside the line no byte changes where the extent has no parity line to update. Without
protection, and off the KV service page, the completion leaves at once. A UIO write of one whole line lands as a full write, with
its poison indication, and completes (R62, R64). -/
def Obligations.FullWritesLand : Prop :=
  (∀ (h tag spid dpa : Nat) (d : Line) (p : Bool) (mv : MetaVal) (media : Media) (dir : DirErr) (s : State) (i : Nat) (e : Extent),
     s.memTakes h = true → isFlagDpa dpa = false → s.admitted h spid dpa true = true →
     s.extAt (lineOf dpa) = some (i, e) → s.unheld (lineOf dpa) = true → s.takesBytes (lineOf dpa) = true →
     Completes (.memWr h tag spid dpa d p mv { media := media, dir := dir }) s (fun t =>
       (∀ k, k < 64 → t.byte (64 * lineOf dpa + k) = lineByte d k) ∧
       (e.prot ≠ 1 → SameMemoryOutside s t (64 * lineOf dpa) 64) ∧
       t.poison.has (lineOf dpa) = p ∧ t.lost.has (lineOf dpa) = (p && s.lost.has (lineOf dpa)) ∧
       (t.flagSrc spid).count = (s.flagSrc spid).count + 1 ∧
       (e.prot = 0 → s.comps.any (fun _ c => c.kv.enable) = false → t.out = .cmp h tag .none :: s.out) ∧
       (e.prot ≠ 2 → t.exts = s.exts ∧ (s.waitedOn (lineOf dpa) = false → t.cmds = s.cmds)) ∧ t.dir = s.dir ∧ t.heads = s.heads ∧ t.regs = s.regs ∧ t.time = s.time)) ∧
  (∀ (h tag spid dpa data : Nat) (p : Bool) (dirs : List (Nat × DirErr)) (s : State) (i : Nat) (e : Extent),
     s.uioTakes h = true → dpa % 64 = 0 → isFlagDpa dpa = false → s.admitted h spid dpa true = true →
     s.extAt (lineOf dpa) = some (i, e) → s.unheld (lineOf dpa) = true → s.takesBytes (lineOf dpa) = true →
     Completes (.uioMemoryWrite h tag spid dpa 64 data p [] dirs) s (fun t =>
       (∀ k, k < 64 → t.byte (64 * lineOf dpa + k) = fld data (8 * k + 7) (8 * k)) ∧
       (e.prot ≠ 1 → SameMemoryOutside s t (64 * lineOf dpa) 64) ∧
       t.poison.has (lineOf dpa) = p ∧ t.lost.has (lineOf dpa) = (p && s.lost.has (lineOf dpa)) ∧
       (t.flagSrc spid).count = (s.flagSrc spid).count + 1 ∧
       (e.prot = 0 → s.comps.any (fun _ c => c.kv.enable) = false → s.conflicts = [] → t.out = .uioCpl h tag :: s.out) ∧
       (e.prot ≠ 2 → t.exts = s.exts ∧ (s.waitedOn (lineOf dpa) = false → t.cmds = s.cmds)) ∧ t.dir = s.dir ∧ t.heads = s.heads ∧ t.regs = s.regs ∧ t.time = s.time))

/-- What a partial write replaces (R62, R68): MemWrPtl, the bytes its enables name; a UIO write inside one line, the bytes from its
address on. No other byte of the line or, where the extent has no parity, of the store changes. The line carries no poison, lost
or uncorrectable mark before; a full write would be needed then (R69). -/
def Obligations.PartialWritesReplaceEnabledBytes : Prop :=
  (∀ (h tag spid dpa : Nat) (d : Line) (be : ByteEn) (dir : DirErr) (s : State) (i : Nat) (e : Extent),
    Memory.wf s.mem = true → s.memTakes h = true → isFlagDpa dpa = false → s.admitted h spid dpa true = true →
    s.extAt (lineOf dpa) = some (i, e) → s.unheld (lineOf dpa) = true → s.takesBytes (lineOf dpa) = true →
    s.marked (lineOf dpa) = false → s.med.ue.has (lineOf dpa) = false →
    Completes (.memWrPtl h tag spid dpa d be false { media := .clean, dir := dir }) s (fun t =>
      (∀ k, k < 64 → t.byte (64 * lineOf dpa + k) =
        if be.getLsbD k then lineByte d k else s.byte (64 * lineOf dpa + k)) ∧
      (e.prot ≠ 1 → SameMemoryOutside s t (64 * lineOf dpa) 64) ∧
      t.marked (lineOf dpa) = false ∧ (t.flagSrc spid).count = (s.flagSrc spid).count + 1 ∧
      (e.prot = 0 → s.comps.any (fun _ c => c.kv.enable) = false → t.out = .cmp h tag .none :: s.out) ∧
      (e.prot ≠ 2 → t.exts = s.exts ∧ (s.waitedOn (lineOf dpa) = false → t.cmds = s.cmds)) ∧ t.dir = s.dir ∧ t.heads = s.heads ∧ t.regs = s.regs ∧ t.time = s.time)) ∧
  (∀ (h tag spid dpa len data : Nat) (dirs : List (Nat × DirErr)) (s : State) (i : Nat) (e : Extent),
    Memory.wf s.mem = true → s.uioTakes h = true → isFlagDpa dpa = false → 1 ≤ len → dpa % 64 + len ≤ 64 →
    s.admitted h spid (dpa / 64 * 64) true = true →
    s.extAt (lineOf dpa) = some (i, e) → s.unheld (lineOf dpa) = true → s.takesBytes (lineOf dpa) = true →
    s.marked (lineOf dpa) = false → s.med.ue.has (lineOf dpa) = false →
    Completes (.uioMemoryWrite h tag spid dpa len data false [] dirs) s (fun t =>
      (∀ k, k < 64 → t.byte (64 * lineOf dpa + k) =
        if dpa % 64 ≤ k ∧ k < dpa % 64 + len then fld data (8 * (k - dpa % 64) + 7) (8 * (k - dpa % 64))
        else s.byte (64 * lineOf dpa + k)) ∧
      (e.prot ≠ 1 → SameMemoryOutside s t (64 * lineOf dpa) 64) ∧
      t.marked (lineOf dpa) = false ∧ (t.flagSrc spid).count = (s.flagSrc spid).count + 1 ∧
      (e.prot = 0 → s.comps.any (fun _ c => c.kv.enable) = false → s.conflicts = [] → t.out = .uioCpl h tag :: s.out) ∧
      (e.prot ≠ 2 → t.exts = s.exts ∧ (s.waitedOn (lineOf dpa) = false → t.cmds = s.cmds)) ∧ t.dir = s.dir ∧ t.heads = s.heads ∧ t.regs = s.regs ∧ t.time = s.time))

/-- How an arriving flagged store is taken (R72, R77, R79): a malformed one is completed and logged, and moves neither count nor
sequence; a stale one, or one whose sequence is held, likewise; one in its turn or ahead of it, within the limits of R78,
is held with nothing sent. In none of the three does a byte of the store change. -/
def Obligations.FlaggedStoresAreHeld : Prop :=
  ∀ (h tag spid dpa : Nat) (d : Line) (be : ByteEn) (dir : DirErr) (s : State), s.memTakes h = true → tag < 65536 →
    (malformedFlag d be = true → Completes (.flaggedStore h tag spid dpa d be dir) s (fun t =>
      t.out = .cmp h tag .none :: s.out ∧ t.flags = s.flags ∧ t.mem = s.mem ∧
        t.obs.counters.getD (cFlagLog + 3) 0 = s.obs.counters.getD (cFlagLog + 3) 0 + 1)) ∧
    (malformedFlag d be = false → trExpect (trailerOf d) ≠ 0xFFFF_FFFF →
      (32768 ≤ flagDist (s.flagSrc spid).next (trSeq (trailerOf d)) ∨
        (s.flagSrc spid).held.any (fun x => x.seq == trSeq (trailerOf d)) = true) →
      Completes (.flaggedStore h tag spid dpa d be dir) s (fun t =>
        t.out = .cmp h tag .none :: s.out ∧ t.flags = s.flags ∧ t.mem = s.mem ∧
          t.obs.counters.getD (cFlagLog + 2) 0 = s.obs.counters.getD (cFlagLog + 2) 0 + 1)) ∧
    (malformedFlag d be = false → trExpect (trailerOf d) ≠ 0xFFFF_FFFF →
      flagDist (s.flagSrc spid).next (trSeq (trailerOf d)) < 32768 →
      (s.flagSrc spid).held.any (fun x => x.seq == trSeq (trailerOf d)) = false →
      ((s.flagSrc spid).held.filter (fun x => !x.revoked)).length < 64 → s.heldAt (lineHome (lineOf dpa)) < 16384 →
      ∃ hf : HeldFlag, hf.seq = trSeq (trailerOf d) ∧ hf.expect = trExpect (trailerOf d) ∧ hf.action = trAction (trailerOf d) ∧
        hf.payload = d ∧ hf.be = be ∧ hf.line = lineOf dpa ∧ hf.head = h ∧ hf.tag = tag ∧ hf.landedAt = s.now ∧
        hf.limit = s.flagWait ∧ hf.revoked = false ∧ hf.refused = !(s.admitted h spid (dpa % 2 ^ 47) true) ∧
        exec (.flaggedStore h tag spid dpa d be dir) s =
          .next { s with flags := s.flags.set spid { s.flagSrc spid with held := (s.flagSrc spid).held ++ [hf] } })

/-- What a flag does when it applies (R73, R75, R77): its turn has come, its source has counted EXPECT writes, and its line is
admitted, ready and unmarked. The line takes bytes 0 to 55 under the enables (WRITE, DOORBELL), the sum modulo 2^64
(ADD) or the maximum (MAX) in bytes 0 to 7; EXPECT leaves the count, N becomes SEQ + 1, and outside the line no byte changes
where its extent has no parity. -/
def Obligations.FlagsApplyInTurn : Prop :=
  ∀ (spid : Nat) (dir : DirErr) (s : State) (hf : HeldFlag) (i : Nat) (e : Extent),
    Memory.wf s.mem = true → heldNext (s.flagSrc spid) = some hf → (s.flagSrc spid).held.any (fun x => x.revoked) = false →
    hf.refused = false → hf.expect ≤ (s.flagSrc spid).count → s.flagReady spid hf.line = true →
    s.extAt hf.line = some (i, e) → s.unheld hf.line = true → s.takesBytes hf.line = true → s.poisonedLine hf.line = false →
    s.marked hf.line = false → s.med.ue.has hf.line = false →
    Completes (.flagApply spid dir) s (fun t =>
      (t.flagSrc spid).count = (s.flagSrc spid).count - hf.expect ∧ (t.flagSrc spid).next = (hf.seq + 1) % 65536 ∧
      (t.flagSrc spid).held = (s.flagSrc spid).held.filter (fun x => x.seq != hf.seq) ∧
      (hf.action = 0 ∨ hf.action = 2 → ∀ k, k < 64 → t.byte (64 * hf.line + k) =
        if k < 56 ∧ hf.be.getLsbD k = true then lineByte hf.payload k else s.byte (64 * hf.line + k)) ∧
      (hf.action = 1 → fld (t.rawLine hf.line).toNat 63 0 =
        (fld (s.rawLine hf.line).toNat 63 0 + fld hf.payload.toNat 63 0) % 2 ^ 64) ∧
      (hf.action = 3 → fld (t.rawLine hf.line).toNat 63 0 =
        max (fld (s.rawLine hf.line).toNat 63 0) (fld hf.payload.toNat 63 0)) ∧
      (hf.action = 1 ∨ hf.action = 3 → ∀ k, 8 ≤ k → k < 64 → t.byte (64 * hf.line + k) = s.byte (64 * hf.line + k)) ∧
      (e.prot ≠ 1 → SameMemoryOutside s t (64 * hf.line) 64) ∧ t.marked hf.line = false ∧
      t.heads = s.heads ∧ t.regs = s.regs ∧ t.time = s.time ∧
      (e.prot ≠ 2 → s.waitedOn hf.line = false → t.cmds = s.cmds))

/-- Where flags are discarded: a flag that has waited its limit takes every held flag of its source with it (R78), and
CTL_FLAG_RESET discards those of one source or of all (R79). The count returns to 0, nothing stays held, N becomes one more than the
last of them, or 0, and no byte of the store changes. -/
def Obligations.DiscardedFlagsLeaveNoTrace : Prop :=
  (∀ (spid seq : Nat) (s : State) (hf : HeldFlag),
    (s.flagSrc spid).held.find? (fun x => x.seq == seq && !x.revoked) = some hf → hf.landedAt + hf.limit ≤ s.now →
    Completes (.flagWaitExpiry spid seq) s (fun t =>
      t.flagSrc spid =
        { count := 0, next := nextAfter (s.flagSrc spid).next ((s.flagSrc spid).held.map (fun x => x.seq)), held := [] } ∧
      t.mem = s.mem ∧ t.heads = s.heads ∧ t.regs = s.regs ∧ t.time = s.time)) ∧
  (∀ (h : Nat) (v : BitVec 32) (s : State), s.headUp h = true → bit v.toNat 31 = false →
    Completes (.ctlFlagReset h v) s (fun t =>
      t.flagSrc (fld v.toNat 11 0) = { count := 0, next := 0, held := [] } ∧ t.mem = s.mem ∧ t.time = s.time ∧
        t.regs = { s.regs with setupSrc := s.regs.setupSrc ||| 2 ^ h })) ∧
  (∀ (h : Nat) (v : BitVec 32) (s : State), s.headUp h = true → bit v.toNat 31 = true →
    Completes (.ctlFlagReset h v) s (fun t =>
      (∀ p, p ∈ s.flags.keys → t.flagSrc p = { count := 0, next := 0, held := [] }) ∧ t.mem = s.mem ∧ t.time = s.time ∧
        t.regs = { s.regs with setupSrc := s.regs.setupSrc ||| 2 ^ h }))

/-- How a caching request is granted on a directory line that no one holds, while its composition and the line's set have room
(R100, R105): MemRd with MetaValue S is granted S and A is granted E, with the data; MemInv A is granted E or M without data; a
Course buffer's read miss is granted E and its request for ownership M. The new entry names the requester alone. -/
def Obligations.UnheldLinesAreGranted : Prop :=
  ∀ (s : State) (ln i : Nat) (e : Extent),
    s.extAt ln = some (i, e) → e.coh = 1 → s.unheld ln = true → (s.waitQ.getD (lineHome ln) []).isEmpty = true →
    s.withinDirQuota ln = true → s.wayFree ln = true → s.lost.has ln = false → s.readsNow ln = true →
    (∀ (h tag spid dpa : Nat), s.memTakes h = true → s.admitted h spid dpa false = true → lineOf dpa = ln → spid < 4080 →
      s.hostDown.has spid = false →
      Completes (.memRd h tag spid dpa .s {}) s (fun t =>
        t.out = .memData h tag ln (s.shown ln) (s.marked ln) .s :: s.out ∧
          t.dir.get? ln = some { comp := e.comp, st := .s, ptrs := [spid], order := s.dirOrder } ∧
          (∀ l, l ≠ ln → t.dir.get? l = s.dir.get? l) ∧ t.mem = s.mem) ∧
      Completes (.memRd h tag spid dpa .a {}) s (fun t =>
        t.out = .memData h tag ln (s.shown ln) (s.marked ln) .e :: s.out ∧
          t.dir.get? ln = some { comp := e.comp, st := .e, ptrs := [spid], order := s.dirOrder } ∧
          (∀ l, l ≠ ln → t.dir.get? l = s.dir.get? l) ∧ t.mem = s.mem) ∧
      Completes (.memInv h tag spid dpa .a .none) s (fun t =>
        t.out = .cmp h tag .e :: s.out ∧
          t.dir.get? ln = some { comp := e.comp, st := .m, ptrs := [spid], order := s.dirOrder } ∧
          (∀ l, l ≠ ln → t.dir.get? l = s.dir.get? l) ∧ t.mem = s.mem)) ∧
    (∀ die, s.courseMay die ln = true → s.courseAsked die ln = false → s.bufAt die ln = none →
      s.linkQueue die ln = [] →
      Completes (.courseReadMiss die ln {}) s (fun t =>
        t.bufAt die ln = some { data := s.shown ln, poison := s.marked ln, own := true } ∧
          t.dir.get? ln = some { comp := e.comp, st := .e, ptrs := [4080 + die], order := s.dirOrder } ∧ t.mem = s.mem) ∧
      Completes (.courseOwn die ln {}) s (fun t =>
        t.bufAt die ln = some { data := s.shown ln, poison := s.marked ln, own := true } ∧
          t.dir.get? ln = some { comp := e.comp, st := .m, ptrs := [4080 + die], order := s.dirOrder } ∧ t.mem = s.mem))

/-- How copies are given up and written back (R100, R104, R105): MemInv with MetaValue I or S removes the host's pointer and is
completed; UPGRADE moves the holder's entry from E to M; WRITEBACK, a dirty eviction, lands the buffer's 64 bytes, and drops the
copy and its pointer. -/
def Obligations.CopiesAreGivenUp : Prop :=
  (∀ (h tag spid dpa : Nat) (mv : MetaVal) (s : State) (e : DirEntry), s.memTakes h = true → s.admitted h spid dpa false = true →
    mv ≠ .a → s.cohOf (lineOf dpa) ≠ 0 → s.free (lineOf dpa) = true → s.dir.get? (lineOf dpa) = some e → spid < 4080 →
    e.ptrs.contains spid = true →
    Completes (.memInv h tag spid dpa mv .none) s (fun t =>
      t.out = .cmp h tag .none :: s.out ∧ t.dir.get? (lineOf dpa) = e.without spid ∧
        t = { s with out := t.out, dir := t.dir, power := t.power })) ∧
  (∀ (die ln : Nat) (s : State) (e : DirEntry) (b : BufLine), s.dir.get? ln = some e → e.st = .e → e.lead = 4080 + die →
    s.bufAt die ln = some b → b.own = true → s.linkQueue die ln = [] →
    exec (.upgrade die ln) s = .next { s with dir := s.dir.set ln { e with st := .m } }) ∧
  (∀ (die ln i : Nat) (x : Extent) (s : State) (e : DirEntry) (b : BufLine), s.bufAt die ln = some b → b.dirty = true →
    s.linkQueue die ln = [] → s.extAt ln = some (i, x) → x.state = .active ∨ x.state = .draining → s.free ln = true →
    s.takesBytes ln = true → s.dir.get? ln = some e → e.lead = 4080 + die →
    Completes (.writeback die ln) s (fun t =>
      (∀ k, k < 64 → t.byte (64 * ln + k) = lineByte b.data k) ∧ t.poison.has ln = b.poison ∧ t.bufAt die ln = none ∧
        t.dir.get? ln = e.without (4080 + die) ∧ t.heads = s.heads ∧ t.regs = s.regs))

/-- What a Course buffer does with the message at the front of its link (R103, R104): it answers MISS when it holds no copy, and
otherwise CLEAN or DIRTY with the data; RECALL_INV drops the copy, RECALL_SHARE takes the right to write it away, and FWD and
PRESENCE leave it. -/
def Obligations.BuffersAnswerMessages : Prop :=
  ∀ (die ln : Nat) (m : BufMsg) (rest : List ToBuf) (s : State),
    s.toBuf.getD (4 * die + lineHome ln) [] = { msg := m, line := ln } :: rest →
    let key := 4 * die + lineHome ln
    let telling (a : BufAns) (d : Line) (p : Bool) : Tab (List FromBuf) :=
      s.fromBuf.set key (s.fromBuf.getD key [] ++ [{ msg := m, ans := a, line := ln, data := d, poison := p }])
    let missed : State := { s with toBuf := s.toBuf.set key rest, fromBuf := telling .miss 0 false }
    let held (b : BufLine) : State :=
      { s with toBuf := s.toBuf.set key rest, fromBuf := telling (if b.dirty then .dirty else .clean) b.data b.poison }
    ((s.bufAt die ln).filter (fun b => !b.once) = none →
      (m = .fwd → exec (.fwd die (lineHome ln)) s = .next missed) ∧
      (m = .recallShare → exec (.recallShare die (lineHome ln)) s = .next missed) ∧
      (m = .recallInv → exec (.recallInv die (lineHome ln)) s = .next missed) ∧
      (m = .presence → exec (.presence die (lineHome ln)) s = .next missed)) ∧
    (∀ b, s.bufAt die ln = some b → b.once = false →
      (m = .fwd → exec (.fwd die (lineHome ln)) s = .next (held b)) ∧
      (m = .recallShare → Completes (.recallShare die (lineHome ln)) s (fun t =>
        t.bufAt die ln = some { b with own := false } ∧ t = { held b with bufs := t.bufs })) ∧
      (m = .recallInv → Completes (.recallInv die (lineHome ln)) s (fun t =>
        t.bufAt die ln = none ∧ t = { held b with bufs := t.bufs })) ∧
      (m = .presence → exec (.presence die (lineHome ln)) s = .next (held b)))

/-- How answers advance a transaction (R102, R103, R106, R108, R114): a buffer's answer or a host's response is recorded and its
recall or snoop is no longer pending, while others are, and what the die sent behind it waits while it is an answer; a MISS to
PRESENCE removes the stale pointer; a response that matches no snoop changes no transaction; BIConflict is answered once the
host's earlier requests to the line have completed; and a waiting write to a line that has become free lands and leaves the
queue. -/
def Obligations.AnswersAdvanceTransactions : Prop :=
  (∀ (die k : Nat) (x : FromBuf) (rest : List FromBuf) (e : DirEntry) (s : State),
    s.fromBuf.getD (4 * die + k) [] = x :: rest → x.kind = .answer → (∀ y, rest.head? = some y → y.kind = .answer) →
    x.msg = .presence → x.ans = .miss → s.dir.get? x.line = some e →
    s.trans.has x.line = false →
    Completes (.bufferAnswer die k) s (fun t =>
      t.fromBuf.getD (4 * die + k) [] = rest ∧ t.dir.get? x.line = e.without (4080 + die) ∧
        t = { s with fromBuf := t.fromBuf, dir := t.dir })) ∧
  (∀ (die k : Nat) (x : FromBuf) (rest : List FromBuf) (tr : Trans) (s : State),
    s.fromBuf.getD (4 * die + k) [] = x :: rest → x.kind = .answer → (∀ y, rest.head? = some y → y.kind = .answer) →
    x.msg ≠ .presence → x.ans ≠ .dirty → s.trans.get? x.line = some tr →
    tr.recalls.any (fun y => y.1 == die) = true →
    (tr.snoops.filter (fun y => y.spid != 4080 + die) ≠ [] ∨ tr.recalls.filter (fun y => y.1 + 4080 != 4080 + die) ≠ []) →
    Completes (.bufferAnswer die k) s (fun t =>
      t.fromBuf.getD (4 * die + k) [] = rest ∧
      (∃ tr', t.trans.get? x.line = some tr' ∧ tr'.req = tr.req ∧
        tr'.recalls = tr.recalls.filter (fun y => y.1 + 4080 != 4080 + die) ∧
        tr'.answers = tr.answers ++ [(4080 + die, match x.ans with | .miss => .miss | .clean => .clean | .dirty => .dirty)]) ∧
      t.mem = s.mem ∧ t.dir = s.dir ∧ t.out = s.out)) ∧
  (∀ (h spid ln : Nat) (r : BiRsp) (s : State), s.headTakes h = true →
    (s.trans.get? ln).bind (fun t => t.snoops.find? (fun x => x.spid == spid && x.sentAt.isSome)) = none →
    Completes (.biResponse h spid ln r) s (fun t => t = { s with obs := t.obs })) ∧
  (∀ (h spid ln : Nat) (r : BiRsp) (tr : Trans) (x : Snoop) (s : State), s.headTakes h = true → s.trans.get? ln = some tr →
    tr.snoops.find? (fun x => x.spid == spid && x.sentAt.isSome) = some x → State.keepsTooMuch x.op r = false →
    (tr.snoops.filter (fun y => y.spid != spid) ≠ [] ∨ tr.recalls.filter (fun y => y.1 + 4080 != spid) ≠ []) →
    s.trans.all (fun _ t => t.snoops.all (fun y => y.sentAt.isSome)) = true →
    Completes (.biResponse h spid ln r) s (fun t =>
      (∃ tr', t.trans.get? ln = some tr' ∧ tr'.req = tr.req ∧ tr'.snoops = tr.snoops.filter (fun y => y.spid != spid) ∧
        tr'.answers = tr.answers ++ [(spid, match r with | .i => .hostI | .s => .hostS | .e => .hostE)]) ∧
      t.mem = s.mem ∧ t.dir = s.dir ∧ t.out = s.out)) ∧
  (∀ (h spid ln : Nat) (tr : Trans) (s : State), s.headTakes h = true → s.trans.get? ln = some tr →
    tr.snoops.any (fun x => x.spid == spid) = true → s.owed = Tab.empty → s.mirReads = Tab.empty →
    s.calHeld = Tab.empty → s.uio = Tab.empty → s.conflicts = [] →
    exec (.biConflict h spid ln) s = .next { s with out := .conflictAck h spid ln :: s.out }) ∧
  (∀ (k : Nat) (r : LineReq) (rest : List LineReq) (i : Nat) (e : Extent) (s : State), s.waitQ.getD k [] = r :: rest →
    r.kind = .memWr → r.cls = .wr → r.full = true → s.lateRefused r = false → r.env.dir = .none → s.extAt r.line = some (i, e) →
    e.coh = 1 → e.state = .active → s.trans.has r.line = false →
    s.mirReads.any (fun _ x => x.line == r.line) = false → s.dir.get? r.line = none → s.takesBytes r.line = true →
    Completes (.transactionAdmit k) s (fun t =>
      t.waitQ.getD k [] = rest ∧ (∀ b, b < 64 → t.byte (64 * r.line + b) = lineByte r.data b) ∧
        t.poison.has r.line = r.poison ∧ t.dir = s.dir ∧ t.heads = s.heads))

/-- The ways a host is declared down (R116, R118), its readmission (R120), the set-up accesses of the directory (R98, R124), and its
audit (R113, R114). BI_TIMEOUT: a snoop sent and unanswered for its limit puts its host down, and the host-down alarm occurs; before
the limit nothing changes. HEAD_DOWN_GRACE: with the link down for the grace, every host the head routes counts as
declared in this outage, and those not declared before are down; with no transaction running and no flag held, each
line such a host held in E or M has no entry, and is lost where no region is rebuilt. COH_HOST_DOWN with OP 1: with no
transaction running the host is down, the entries that do not name it stay, and no line without an entry becomes lost or
ceases to be. With OP 2 the host is readmitted and nothing else changes; a host number of 4,080 and above changes nothing with
either. COH_PROBE keeps the line asked for, its entry, whether it has a transaction and whether it is lost, valid 200
ns later. COH_LINE_ACCEPT clears the lost marks of the lines of its range that can be accepted, and nothing else. The audit sends
PRESENCE to every Course buffer an entry names; it counts an entry read with a corrected error, and raises the
directory alarm for one that it invalidates. -/
def Obligations.HostsGoDownAndTheDirectoryIsKept : Prop :=
  ((∀ (spid ln : Nat) (tr : Trans) (x : Snoop) (at_ : Nat) (s : State), s.trans.get? ln = some tr →
     tr.snoops.find? (fun y => y.spid == spid) = some x → x.sentAt = some at_ →
     (s.now < at_ + x.limit → exec (.biTimeout spid ln) s = .next s) ∧
     (at_ + x.limit ≤ s.now → spid < 4080 → s.hostDown.has spid = false →
       Completes (.biTimeout spid ln) s (fun t =>
         t.hostDown.has spid = true ∧ t.obs.acc.has 10 = true ∧ t.heads = s.heads ∧ t.regs = s.regs ∧ t.time = s.time))) ∧
   (∀ (h : Nat) (s : State), (s.headAt h).up = false → (s.headAt h).wasDown = true →
     (s.now < (s.headAt h).downAt + (s.headAt h).graceMs * 1000000 → exec (.headDownGrace h) s = .next s) ∧
     ((s.headAt h).downAt + (s.headAt h).graceMs * 1000000 ≤ s.now → s.trans = Tab.empty → s.flags = Tab.empty →
       Completes (.headDownGrace h) s (fun t =>
         (∀ p, p ∈ s.hostsOf h → (t.headAt h).gone.has p = true) ∧
         (∀ p, p ∈ s.hostsOf h → (s.headAt h).gone.has p = false → t.hostDown.has p = true) ∧
         (∀ p, s.hostDown.has p = true → t.hostDown.has p = true) ∧
         (∀ p ln e, p ∈ s.hostsOf h → (s.headAt h).gone.has p = false → s.hostDown.has p = false → s.dir.get? ln = some e →
           e.ptrs.contains p = true → e.st = .e ∨ e.st = .m →
           t.dir.get? ln = none ∧ (s.med.rebuilds = Tab.empty → t.lost.has ln = true)) ∧
         t.regs = s.regs ∧ t.time = s.time))) ∧
   (∀ (h : Nat) (v : BitVec 32) (s : State), s.headUp h = true → fld v.toNat 31 30 = 1 →
     (4080 ≤ fld v.toNat 11 0 →
       exec (.hostDownDeclare h v) s = .next { s with regs := { s.regs with setupSrc := s.regs.setupSrc ||| 2 ^ h } }) ∧
     (∀ spid, fld v.toNat 11 0 = spid → spid < 4080 → s.hostDown.has spid = false → s.trans = Tab.empty →
       Completes (.hostDownDeclare h v) s (fun t => t.hostDown.has spid = true ∧
         (∀ ln e, s.dir.get? ln = some e → e.ptrs.contains spid = true → e.st = .e ∨ e.st = .m →
           t.dir.get? ln = none ∧ (s.med.rebuilds = Tab.empty → t.lost.has ln = true)) ∧
         (∀ ln e, s.dir.get? ln = some e → e.ptrs.contains spid = false → t.dir.get? ln = some e) ∧
         (s.med.rebuilds = Tab.empty → ∀ ln, s.dir.get? ln = none → t.lost.has ln = s.lost.has ln) ∧
         t.obs.acc.has 10 = true ∧ t.regs.setupSrc = s.regs.setupSrc ||| 2 ^ h ∧ t.heads = s.heads ∧ t.time = s.time))) ∧
   (∀ (h : Nat) (v : BitVec 32) (s : State), s.headUp h = true → fld v.toNat 31 30 = 2 →
     exec (.hostReadmit h v) s = .next { s with
       hostDown := if 4080 ≤ fld v.toNat 11 0 then s.hostDown else s.hostDown.erase (fld v.toNat 11 0)
       regs := { s.regs with setupSrc := s.regs.setupSrc ||| 2 ^ h } })) ∧
  ((∀ (h : Nat) (v : Word) (s : State), s.headUp h = true →
     Completes (.cohProbe h v) s (fun t =>
       t.regs.probeLine = fld v.toNat 36 0 ∧ t.regs.probeAt = s.now + 200 ∧
       (∀ e, s.dir.get? (fld v.toNat 36 0) = some e → fld t.regs.probeResult 63 0 = e.word) ∧
       bit t.regs.probeResult 64 = s.dir.has (fld v.toNat 36 0) ∧ bit t.regs.probeResult 65 = s.trans.has (fld v.toNat 36 0) ∧
       bit t.regs.probeResult 66 = s.lost.has (fld v.toNat 36 0) ∧
       t = { s with regs := { s.regs with setupSrc := s.regs.setupSrc ||| 2 ^ h, probeLine := t.regs.probeLine
                                          probeAt := t.regs.probeAt, probeResult := t.regs.probeResult, imm := t.regs.imm } })) ∧
   (∀ (h : Nat) (v : Word) (s : State), s.headUp h = true →
     Completes (.cohLineAccept h v) s (fun t =>
       (∀ ln, t.lost.has ln = (s.lost.has ln && !(decide (fld v.toNat 36 0 ≤ ln) &&
         decide (ln < fld v.toNat 36 0 + fld v.toNat 63 48) && s.activeAt ln && !s.badLine ln))) ∧
       t = { s with lost := t.lost, regs := { s.regs with setupSrc := s.regs.setupSrc ||| 2 ^ h } })) ∧
   (∀ (ln : Nat) (e : DirEntry) (s : State), s.dir.get? ln = some e → s.trans.has ln = false →
     s.permitted actAudit (lineHome ln) = true →
     (∀ dir, dir ≠ .double →
       Completes (.dirAudit (lineHome ln) ln dir) s (fun t =>
         (∀ p, p ∈ e.ptrs → isCourse p = true →
           { msg := .presence, line := ln } ∈ t.toBuf.getD (4 * (p - 4080) + lineHome ln) []) ∧
         t = { s with toBuf := t.toBuf, dirFix := if dir = .single then s.dirFix + 1 else s.dirFix })) ∧
     (s.transAt (lineHome ln) < 4096 →
       Completes (.dirAudit (lineHome ln) ln .double) s (fun t => t.obs.acc.has (256 * lineHome ln + 9) = true))))

/-- The three commits of extents (R41, R44, R48, R50, R456, R458). An accepted CREATE makes the extent Active in its next
generation, over the range, composition, modes and access list of its frame, and moves no byte; one that fails a check, other
than by quota, leaves everything but the domain's status as it was. REVOKE takes an Active extent to Draining and keeps its
range. SET_ACL replaces the access list of an Active extent. -/
def Obligations.ExtentCommitsDecide : Prop :=
  ∀ (s : State) (f : Frame) (rest : List Frame), s.regs.queue = f :: rest → f.dom = .adr →
    (f.fld offAdrAttr 1 0 = 1 → faultOf ((s.taken rest).createExtChecks f.sel f) = none →
      Completes .extentCreate s (fun t =>
        Accepted s t .adr ∧ t.mem = s.mem ∧ t.regs.queue = rest ∧ t.comps = s.comps ∧
        (∀ j, j ≠ f.sel → t.exts.get? j = s.exts.get? j) ∧
        ∃ e, t.exts.get? f.sel = some e ∧ e.state = .active ∧ e.gen = ((s.exts.getD f.sel {}).gen + 1) % 256 ∧
          e.base = (State.extOf f).base ∧ e.len = (State.extOf f).len ∧ e.comp = (State.extOf f).comp ∧
          e.coh = (State.extOf f).coh ∧ e.prot = (State.extOf f).prot ∧ e.acl = State.aclOf f)) ∧
    (∀ c, f.fld offAdrAttr 1 0 = 1 → faultOf ((s.taken rest).createExtChecks f.sel f) = some c → c.reason ≠ .quota →
      Completes .extentCreate s (fun t => Rejected (s.taken rest) t .adr c)) ∧
    (∀ e, f.fld offAdrAttr 1 0 = 2 → s.exts.get? f.sel = some e → e.state = .active →
      Completes .extentRevoke s (fun t =>
        Accepted s t .adr ∧ t.regs.queue = rest ∧
        ∃ e', t.exts.get? f.sel = some e' ∧ e'.state = .draining ∧ e'.drainAt = s.now ∧ e'.base = e.base ∧ e'.len = e.len ∧
          e'.gen = e.gen ∧ e'.comp = e.comp ∧ e'.acl = e.acl)) ∧
    (∀ e, f.fld offAdrAttr 1 0 = 3 → s.exts.get? f.sel = some e → e.state = .active → f.fld offAdrAttr 40 32 ≤ 256 →
      faultOf ((s.taken rest).aclChecks e (State.aclOf f)) = none →
      Completes .setAcl s (fun t =>
        Accepted s t .adr ∧ t.mem = s.mem ∧ t.regs.queue = rest ∧
        ∃ e', t.exts.get? f.sel = some e' ∧ e'.acl = State.aclOf f ∧ e'.state = .active ∧ e'.base = e.base ∧ e'.len = e.len ∧
          e'.gen = e.gen ∧ e'.comp = e.comp))

/-- How an extent that drains ends (R44, R49, R133), and how a host gives one up (R52). Untouched, without a scrub and without a
parity share, a Draining extent becomes Free; with a scrub it becomes Scrubbing. The release scrub then makes every byte of it
outside retired regions read 0, and frees it; so does the zeroing of a released parity share with the share's bytes. A
host's release takes its entries off the access list and is answered. -/
def Obligations.ReleasedExtentsBecomeFree : Prop :=
  (∀ (i : Nat) (e : Extent) (s : State), s.exts.get? i = some e → e.state = .draining → s.stillTouched i e = false →
    e.share = none →
    Completes (.extentDrained i) s (fun t =>
      (e.scrub = false → t.exts.get? i = some { state := .free, gen := e.gen }) ∧
      (e.scrub = true → ∃ e', t.exts.get? i = some e' ∧ e'.state = .scrubbing ∧ e'.base = e.base ∧ e'.len = e.len ∧
        e'.gen = e.gen) ∧
      t.heads = s.heads ∧ t.regs = s.regs ∧ t.time = s.time)) ∧
  (∀ (i : Nat) (e : Extent) (s : State), s.exts.get? i = some e → e.state = .scrubbing → e.zeroed = false → e.share = none →
    s.dirLines e = [] →
    Completes (.releaseScrub i []) s (fun t =>
      t.exts.get? i = some { state := .free, gen := e.gen } ∧
      (∀ a, e.base * 2 ^ 21 ≤ a → a < (e.base + e.len) * 2 ^ 21 → s.med.retired.has (a / 2 ^ 21) = false → t.byte a = 0) ∧
      SameMemoryOutside s t (e.base * 2 ^ 21) (e.len * 2 ^ 21) ∧ t.heads = s.heads ∧ t.regs = s.regs ∧ t.time = s.time)) ∧
  (∀ (i b n : Nat) (e : Extent) (s : State), s.exts.get? i = some e → e.share = some (b, n) → s.scrubDone e = true →
    Completes (.parityShareZeroed i) s (fun t =>
      t.exts.get? i = some { state := .free, gen := e.gen } ∧
      (∀ a, b * 2 ^ 21 ≤ a → a < (b + n) * 2 ^ 21 → s.med.retired.has (a / 2 ^ 21) = false → t.byte a = 0) ∧
      SameMemoryOutside s t (b * 2 ^ 21) (n * 2 ^ 21) ∧ t.heads = s.heads ∧ t.regs = s.regs ∧ t.time = s.time)) ∧
  (∀ (h tag spid i : Nat) (e : Extent) (s : State), s.headUp h = true → s.exts.get? i = some e → e.state = .active →
    e.acl.any (fun a => a.spid == spid) = true →
    (State.aclHeads (e.acl.filter (fun a => a.spid != spid))).isEmpty = false →
    Completes (.releaseDynamicCapacity h tag spid i) s (fun t =>
      Out.release h tag true ∈ t.out ∧ t.mem = s.mem ∧
        ∃ e', t.exts.get? i = some e' ∧ e'.acl = e.acl.filter (fun a => a.spid != spid) ∧ e'.state = .active ∧ e'.base = e.base ∧
          e'.len = e.len ∧ e'.gen = e.gen))

/-- The commits of compositions (R55, R58, R465). An accepted CREATE makes the composition with the host set and quotas of its
frame, with its engine share and power budget in force at once and its meters at 0; an UPDATE replaces host set and quotas and
keeps the meters; a DELETE takes the composition away. Each moves no byte of the store where no meter page is written, touches
no other composition, and a failing check leaves everything but the domain's status as it was. -/
def Obligations.CompositionCommitsDecide : Prop :=
  ∀ (s : State) (f : Frame) (rest : List Frame), s.regs.queue = f :: rest → f.dom = .cmp →
    (f.fld offCmpCtl 1 0 = 1 → s.comps.has f.sel = false → faultOf ((s.taken rest).compChecks f.sel f) = none →
      Completes .compositionCreate s (fun t =>
        Accepted s t .cmp ∧ t.regs.queue = rest ∧ t.mem = s.mem ∧ t.exts = s.exts ∧ t.heads = s.heads ∧ t.time = s.time ∧
        (∀ j, j ≠ f.sel → t.comps.get? j = s.comps.get? j) ∧
        ∃ x, t.comps.get? f.sel = some x ∧ x.hosts = State.frameHosts f ∧ x.quota = State.quotasOf f ∧
          x.shareNow = nth (State.quotasOf f) 3 0 ∧ x.budgetNow = nth (State.quotasOf f) 4 0 ∧ x.meters = Tab.empty ∧
          x.periods = 0 ∧ x.overq = 0)) ∧
    (f.fld offCmpCtl 1 0 = 1 → s.comps.has f.sel = true →
      Completes .compositionCreate s (fun t => ∃ c, c.reason.rank ≤ Reason.state.rank ∧ Rejected (s.taken rest) t .cmp c)) ∧
    (f.fld offCmpCtl 1 0 = 2 → s.comps.has f.sel = true → (s.taken rest).compBusy f.sel = false →
      Completes .compositionDelete s (fun t =>
        Accepted s t .cmp ∧ t.regs.queue = rest ∧ t.comps.get? f.sel = none ∧ t.heads = s.heads ∧ t.time = s.time ∧
        ((s.comps.getD f.sel {}).meter.enable = false →
          t.mem = s.mem ∧ ∀ j, j ≠ f.sel → t.comps.get? j = s.comps.get? j))) ∧
    (f.fld offCmpCtl 1 0 = 2 → s.comps.has f.sel = true → (s.taken rest).compBusy f.sel = true →
      Completes .compositionDelete s (Rejected (s.taken rest) · .cmp ⟨.state, offCmpCtl, true⟩)) ∧
    (∀ x, f.fld offCmpCtl 1 0 = 3 → s.comps.get? f.sel = some x → (s.taken rest).losesNamed f.sel f = false →
      faultOf ((s.taken rest).compChecks f.sel f) = none →
      Completes .compositionUpdate s (fun t =>
        Accepted s t .cmp ∧ t.regs.queue = rest ∧ t.mem = s.mem ∧ t.exts = s.exts ∧ t.heads = s.heads ∧ t.time = s.time ∧
        (∀ j, j ≠ f.sel → t.comps.get? j = s.comps.get? j) ∧
        ∃ y, t.comps.get? f.sel = some y ∧ y.hosts = State.frameHosts f ∧ y.quota = State.quotasOf f ∧ y.meters = x.meters ∧
          y.periods = x.periods ∧ y.shareNow = x.shareNow))

/-- What a bond-period boundary renews (R57, R58, R59, R372): in every composition the engine share becomes the one last
committed, the counts of the period start again from 0 and PERIOD goes up by one; its meter page in BAR2 carries the time of the
boundary and the new PERIOD. Where no composition has a page enabled, no byte of the store changes. Between boundaries the event
does nothing. How a cut directory quota takes effect (R58): while a composition holds more entries than its quota, its oldest
entry without a transaction at the Keystone is recalled; an entry that Course buffers hold is asked back from each of them with
RECALL_INV, and stays until they have answered. A composition within its quota is left alone. -/
def Obligations.BoundariesRenewSharesAndCutsRecall : Prop :=
  (∀ s : State,
     (s.time.boundaryDue = false → exec .bondPeriodBoundary s = .next s) ∧
     (s.time.boundaryDue = true →
       Completes .bondPeriodBoundary s (fun t =>
         t.time = { s.time with boundaryDue := false, bond := bondOf s.time.counter, slot := slotOf s.time.counter } ∧
         t.eng.seeds = s.eng.seeds + 1 ∧ t.regs = s.regs ∧ t.heads = s.heads ∧
         (∀ c x, s.comps.get? c = some x →
           (∃ y, t.comps.get? c = some y ∧ y.shareNow = nth x.quota 3 0 ∧ y.engUsed = 0 ∧ y.marksUsed = 0 ∧
             y.periods = x.periods + 1 ∧ y.quota = x.quota ∧ y.hosts = x.hosts) ∧
           (t.obs.meterPage.getD c Tab.empty).get? 0 = some s.time.boundaryAt ∧
           (t.obs.meterPage.getD c Tab.empty).get? 1 = some (x.periods + 1)) ∧
         (s.comps.any (fun _ x => x.meter.enable || x.cnt.enable) = false → t.mem = s.mem ∧ t.exts = s.exts)))) ∧
  (∀ (c k : Nat) (s : State),
     (s.dirCount c ≤ nth (s.comps.getD c {}).quota 1 0 → exec (.directoryQuotaRecall c k) s = .next s) ∧
     (∀ ln e, nth (s.comps.getD c {}).quota 1 0 < s.dirCount c → s.transAt k < 4096 → s.dirOldest c k = some ln →
       s.dir.get? ln = some e → s.trans.has ln = false → e.bcast = false → e.ptrs ≠ [] → (∀ p, p ∈ e.ptrs → isCourse p = true) →
       Completes (.directoryQuotaRecall c k) s (fun t =>
         t = { s with trans := t.trans, toBuf := t.toBuf } ∧
         (∃ x, t.trans.get? ln = some x ∧ x.req.cls = .evict ∧ x.snoops = [] ∧
           x.recalls = e.ptrs.map (fun p => (p - 4080, BufMsg.recallInv))) ∧
         (∀ l, l ≠ ln → t.trans.get? l = s.trans.get? l) ∧
         (∀ p, p ∈ e.ptrs → { msg := .recallInv, line := ln } ∈ t.toBuf.getD (4 * (p - 4080) + lineHome ln) []))))

/-- The commits of the RNG block (R155, R156, R158, R183). An accepted CREATE puts the pair of its frame into ZEROING with the
highest descriptor version that VER_MASK and RNG_CAP share, and its status line, where nothing holds it back, shows STATE 1; an
accepted DESTROY takes it to DESTROYING and ends every command not yet dispatched with ABORTED; a commit without an operation
takes the event ring's configuration over. A frame that fails a check, other than by quota, changes nothing but the domain's
status. -/
def Obligations.RingCommitsDecide : Prop :=
  ∀ (s : State) (f : Frame) (rest : List Frame), s.regs.queue = f :: rest → f.dom = .rng →
    (f.fld offRngAttr 1 0 = 1 →
      faultOf ((s.taken rest).createRingChecks f.sel f ++ (s.taken rest).evtChecks f) = none → s.events.backlog = [] →
      let st := (State.ringOf f).status
      Completes .ringCreate s (fun t =>
        Accepted s t .rng ∧ t.regs.queue = rest ∧ t.heads = s.heads ∧ t.time = s.time ∧
        (s.plainLine st = true → fld (t.rawLine st).toNat 71 64 = 1 ∧ SameMemoryOutside s t (64 * st) 64 ∧ t.cmds = s.cmds) ∧
        (∀ j, j ≠ f.sel → (s.ringAt j).doorbell ≠ st → t.rings.get? j = s.rings.get? j) ∧
        ∃ v, 0 < v ∧ bit (State.ringOf f).verMask v = true ∧ bit State.rngCap v = true ∧
          (∀ w, v < w → w < 16 → (bit (State.ringOf f).verMask w && bit State.rngCap w) = false) ∧
          t.rings.get? f.sel = some { State.ringOf f with state := .zeroing, version := v })) ∧
    (∀ c, f.fld offRngAttr 1 0 = 1 →
      faultOf ((s.taken rest).createRingChecks f.sel f ++ (s.taken rest).evtChecks f) = some c → c.reason ≠ .quota →
      Completes .ringCreate s (Rejected (s.taken rest) · .rng c)) ∧
    (∀ r, f.fld offRngAttr 1 0 = 2 → s.rings.get? f.sel = some r → (r.state = .active ∨ r.state = .error) →
      (s.taken rest).changes f offRngEvtCfg = false → s.events.backlog = [] →
      Completes .ringDestroy s (fun t =>
        Accepted s t .rng ∧ t.regs.queue = rest ∧ (t.ringAt f.sel).state = .destroying ∧ t.heads = s.heads ∧ t.time = s.time ∧
        (∀ cid c, s.cmds.get? cid = some c → c.ring = f.sel → (c.phase = .fetched ∨ c.phase = .waiting ∨ c.phase = .share) →
          ∃ c', t.cmds.get? cid = some c' ∧ c'.phase = .ended ∧ c'.status = 8 ∧ c'.r0 = 0) ∧
        (∀ cid c, s.protAt r.status ≠ 2 → s.cmds.get? cid = some c → (c.ring ≠ f.sel ∨ c.phase = .running ∨ c.phase = .ended ∨ c.phase = .signalled) →
          (c.phase ≠ .waiting ∨ c.waitLine ≠ r.status) → t.cmds.get? cid = some c))) ∧
    (f.fld offRngAttr 1 0 = 0 → faultOf ((s.taken rest).evtChecks f) = none → s.events.backlog = [] →
      Completes .rngCommit s (fun t =>
        Accepted s t .rng ∧ t.regs.queue = rest ∧ t.cfg offRngEvtCfg = f.word offRngEvtCfg ∧ t.mem = s.mem ∧ t.rings = s.rings ∧
        t.events.zeroing = (s.events.zeroing || State.ringZeroes (s.cfg offRngEvtCfg) (f.word offRngEvtCfg)))) ∧
    (f.fld offRngAttr 1 0 = 3 →
      Completes .rngCommit s (fun t => ∃ c, c.reason.rank ≤ Reason.encoding.rank ∧ Rejected (s.taken rest) t .rng c))

/-- The end of a ring's zeroing and of its life (R157, R158). Zeroing ends in ACTIVE with all four counts at 0, and the
completion queue reads 0 wherever its lines can be written; a DESTROYING ring with no command left becomes FREE and leaves its
group. MSI-X vectors (R182): a vector's mask bit follows the write; unmasking a vector whose message waits puts it into its
Quoin, where the head's link is up, and clears the pending bit; no other vector changes, and nothing leaves before the next edge of
TBCLK. -/
def Obligations.RingsAndVectorsChangeState : Prop :=
  ((∀ (i : Nat) (r : Ring) (s : State), s.rings.get? i = some r → r.state = .zeroing →
     Completes (.ringZeroed i) s (fun t =>
       (t.ringAt i).state = .active ∧ (t.ringAt i).sqHead = 0 ∧ (t.ringAt i).sqTail = 0 ∧ (t.ringAt i).cqHead = 0 ∧
       (t.ringAt i).cqTail = 0 ∧ (t.ringAt i).version = r.version ∧ t.heads = s.heads ∧ t.regs = s.regs ∧ t.time = s.time ∧
       ((∀ ln, (64 * r.cqBase ≤ ln ∧ ln < 64 * r.cqBase + r.cqEntries / 2) ∨ ln = r.status → s.plainLine ln = true) →
         t.cmds = s.cmds ∧ ∀ a, 4096 * r.cqBase ≤ a → a < 4096 * r.cqBase + 64 * (r.cqEntries / 2) → a / 64 ≠ r.status → t.byte a = 0))) ∧
   (∀ (i : Nat) (r : Ring) (s : State), s.rings.get? i = some r → r.state = .destroying → s.inflight i = 0 →
     Completes (.ringGone i) s (fun t =>
       t.rings.get? i = some {} ∧ t.eng.grps.any (fun _ g => g.rings.has i) = false ∧ t.nextCid = s.nextCid ∧ t.heads = s.heads ∧
       t.regs = s.regs ∧ t.time = s.time))) ∧
  (∀ (h v : Nat) (m : Bool) (s : State), s.headUp h = true → v < 2048 →
     let old := s.msix.getD (2048 * h + v) {}
     Completes (.msixVectorControl h v m) s (fun t =>
       t.msix.get? (2048 * h + v) =
         some { old with masked := m, pend := old.pend && m, sending := old.sending || (old.masked && !m && old.pend) } ∧
       (∀ k, k ≠ 2048 * h + v → t.msix.get? k = s.msix.get? k) ∧ t = { s with msix := t.msix }))

/-- The fetcher (R159, R161, R163, R164). A woken ring reads its doorbell line; a tail beyond the queue, or a head beyond the
records, puts it into ERROR with the reason of the overrun; a tail at SQ_HEAD is noted and nothing is fetched; when it is the
ring's turn, a single descriptor of one slot is taken in as a new command that has not been dispatched, and SQ_HEAD moves past
it. A ring that is not ACTIVE fetches nothing. -/
def Obligations.RingFetchTakesDescriptors : Prop :=
  ∀ (i : Nat) (media : List (Nat × Media)) (s : State),
    ((s.ringAt i).state ≠ .active → exec (.ringFetch i media) s = .next s) ∧
    (∀ (r : Ring) (w : Nat) (s1 s2 : State), s.rings.get? i = some r → r.state = .active → s.sec.pkgFault = false →
      r.woken = true → s.ownRead media (64 * r.doorbell) 8 = ((w, 0), s1) →
      s1.modRing i (fun x => { x with woken := false, sqTail := fld w 31 0, cqHead := fld w 63 32 }) = s2 →
      (r.sqEntries < sub32 (fld w 31 0) r.sqHead →
        Completes (.ringFetch i media) s (fun t =>
          (t.ringAt i).state = .error ∧ (t.ringAt i).reason = 1 ∧ t.nextCid = s.nextCid ∧ t.regs = s.regs)) ∧
      (sub32 (fld w 31 0) r.sqHead ≤ r.sqEntries → r.cqEntries < sub32 r.cqTail (fld w 63 32) →
        Completes (.ringFetch i media) s (fun t =>
          (t.ringAt i).state = .error ∧ (t.ringAt i).reason = 2 ∧ t.nextCid = s.nextCid ∧ t.regs = s.regs)) ∧
      (sub32 (fld w 31 0) r.sqHead = 0 → sub32 r.cqTail (fld w 63 32) ≤ r.cqEntries →
        exec (.ringFetch i media) s = .next s2) ∧
      (∀ d s3, sub32 (fld w 31 0) r.sqHead = 1 → sub32 r.cqTail (fld w 63 32) ≤ r.cqEntries → s2.fetchRoom i = true →
        s2.fetchIsNext i = true →
        State.readSlot { s2 with fetchLast := s2.fetchLast.set r.owner i } (s2.ringAt i) r.sqHead media = ((d, 0), s3) → spanSlots (hdrSpan d) = 1 → r.sqHead < 2 ^ 32 →
        Completes (.ringFetch i media) s (fun t =>
          (∃ c, t.cmds.get? s.nextCid = some c ∧ c.ring = i ∧ c.seq = r.sqHead ∧ c.desc = d ∧ c.slots = 1 ∧ c.phase = .fetched ∧
            c.readFail = 0) ∧
          (s.protAt r.status ≠ 2 → s.waitedOn r.status = false → ∀ k, k ≠ s.nextCid → t.cmds.get? k = s.cmds.get? k) ∧ t.nextCid = s.nextCid + 1 ∧
          (t.ringAt i).sqHead = (r.sqHead + 1) % 2 ^ 32 ∧ (t.ringAt i).sqTail = fld w 31 0 ∧ (t.ringAt i).cqHead = fld w 63 32 ∧
          t.regs = s.regs ∧ t.heads = s.heads)))

/-- The dispatcher (R168, R169, R177). The first descriptor of a ring that is not dispatched is examined in the order of R168: one
whose header is at fault, or whose slots could not be read, completes with the status and offset of the first failure; one without
counters, segments and operands goes to its Keystone and runs. -/
def Obligations.DispatchExaminesInOrder : Prop :=
  ∀ (i cid : Nat) (media : List (Nat × Media)) (s : State) (c : Cmd) (more : List Nat),
    s.undispatched i = cid :: more → s.cmds.get? cid = some c → c.phase = .fetched →
    (c.readFail ≠ 0 →
      Completes (.dispatch i media) s (fun t =>
        (∃ c', t.cmds.get? cid = some c' ∧ c'.phase = .ended ∧ c'.status = c.readFail ∧ c'.r0 = 0) ∧
        (∀ k, k ≠ cid → t.cmds.get? k = s.cmds.get? k) ∧ t = { s with cmds := t.cmds, rings := t.rings })) ∧
    (∀ f, c.readFail = 0 → hdrSpan c.desc ≠ 3 → (s.ringAt i).chainHead = false → s.headerFault i c = some f →
      Completes (.dispatch i media) s (fun t =>
        (∃ c', t.cmds.get? cid = some c' ∧ c'.phase = .ended ∧ c'.status = f.1 ∧ c'.r0 = f.2) ∧
        (∀ k, k ≠ cid → t.cmds.get? k = s.cmds.get? k) ∧ t = { s with cmds := t.cmds, rings := t.rings })) ∧
    (c.readFail = 0 → (s.ringAt i).chainHead = false → c.group = 0 → hdrVersion c.desc = (s.ringAt i).version →
      ((s.ringAt i).version = 1 ∨ (s.ringAt i).version = 2) →
      (hdrOpcode c.desc = 0x00 ∨ hdrOpcode c.desc = 0x39 ∨ hdrOpcode c.desc = 0x3A) → hdrSpan c.desc = 0 →
      hdrSignal c.desc = false → hdrThresh c.desc = 0 → c.stopping = false → c.bound = 0 →
      (s.eng.ctxs.getD (s.ringAt i).ctx {}).segCount = 0 →
      Completes (.dispatch i media) s (fun t =>
        (∃ c', t.cmds.get? cid = some c' ∧ c'.phase = .running ∧ c'.total = 1 ∧ c'.pos = c.pos ∧ c'.dispAt = some s.now ∧
          c'.start = s.stamp40 ∧ c'.status = c.status) ∧
        (∀ k, k ≠ cid → t.cmds.get? k = s.cmds.get? k) ∧ t = { s with cmds := t.cmds, rings := t.rings }))

/-- Waits and their limit (R168 step 10, R177, R178): a descriptor that no landing has ended yet compares the counter's value; below
WAIT_THRESH it goes on waiting, watched; at or above it the descriptor runs. One that a landing has ended runs, whatever the
counter holds since, or completes with the status of the line's poison; the limit no longer ends it. When the ring's wait limit has
passed for another it completes with TIMEOUT. -/
def Obligations.WaitsEndAtTheThresholdOrTheLimit : Prop :=
  ∀ (cid : Nat) (s : State) (c : Cmd), s.cmds.get? cid = some c → c.phase = .waiting →
    (∀ v s1, c.met = none → (c.watched = true ∨ s.watchedAt (lineHome c.waitLine) < 65536) →
      (s.modCmd cid (fun x => { x with phase := .waiting, waitFrom := c.waitFrom })).ownRead [] (64 * c.waitLine) 8 = ((v, 0), s1) →
      (v < hdrThresh c.desc →
        Completes (.waitSatisfied cid) s (fun t =>
          t.cmds.get? cid = some { c with watched := true } ∧ (∀ k, k ≠ cid → t.cmds.get? k = s.cmds.get? k) ∧
          t = { s1 with cmds := t.cmds })) ∧
      (hdrThresh c.desc ≤ v → (hdrOpcode c.desc = 0x00 ∨ hdrOpcode c.desc = 0x39 ∨ hdrOpcode c.desc = 0x3A) →
        c.stopping = false → c.bound = 0 → c.total ≠ 0 →
        Completes (.waitSatisfied cid) s (fun t =>
          (∃ c', t.cmds.get? cid = some c' ∧ c'.phase = .running ∧ c'.watched = false ∧ c'.dispAt = some s.now ∧
            c'.start = s.stamp40) ∧
          (∀ k, k ≠ cid → t.cmds.get? k = s.cmds.get? k) ∧ t = { s1 with cmds := t.cmds, rings := t.rings }))) ∧
    (c.met = some 0 → (hdrOpcode c.desc = 0x00 ∨ hdrOpcode c.desc = 0x39 ∨ hdrOpcode c.desc = 0x3A) →
      c.stopping = false → c.bound = 0 → c.total ≠ 0 →
      Completes (.waitSatisfied cid) s (fun t =>
        (∃ c', t.cmds.get? cid = some c' ∧ c'.phase = .running ∧ c'.met = none ∧ c'.dispAt = some s.now ∧ c'.start = s.stamp40) ∧
        (∀ k, k ≠ cid → t.cmds.get? k = s.cmds.get? k) ∧ t = { s with cmds := t.cmds, rings := t.rings })) ∧
    (∀ st, c.met = some st → st ≠ 0 →
      Completes (.waitSatisfied cid) s (fun t =>
        (∃ c', t.cmds.get? cid = some c' ∧ c'.phase = .ended ∧ c'.status = st ∧ c'.r0 = 0) ∧
        (∀ k, k ≠ cid → t.cmds.get? k = s.cmds.get? k) ∧ t = { s with cmds := t.cmds, rings := t.rings })) ∧
    (c.met.isSome = true → exec (.waitLimitExpiry cid) s = .next s) ∧
    (c.met = none → c.waitFrom + 2 ^ (s.ringAt c.ring).waitExp ≤ s.now →
      Completes (.waitLimitExpiry cid) s (fun t =>
        (∃ c', t.cmds.get? cid = some c' ∧ c'.phase = .ended ∧ c'.status = 7 ∧ c'.r0 = 0) ∧
        (∀ k, k ≠ cid → t.cmds.get? k = s.cmds.get? k) ∧ t = { s with cmds := t.cmds, rings := t.rings })) ∧
    (s.now < c.waitFrom + 2 ^ (s.ringAt c.ring).waitExp → exec (.waitLimitExpiry cid) s = .next s)

/-- The end of tiles (R59, R191, R192, R393): an engine's time since it was last charged is charged to the command, to the
composition's engine share of the period and to its meter, and the tile's run in the estimation interval is noted with its
source; the command ends with its last tile, and goes on otherwise. A tile
not ended 40 µs after the stop is abandoned, and a command without an earlier failure then ends with REVOKED. -/
def Obligations.TilesEndAndAreCharged : Prop :=
  ∀ (cid : Nat) (s : State) (c : Cmd), s.cmds.get? cid = some c → c.phase = .running →
    (∀ src x, c.busy.has src = true → src < 1200 → s.comps.get? (s.cmdComp c) = some x →
      let ns := s.now - c.engFrom.getD src s.now
      Completes (.tileEnd cid src) s (fun t =>
        (∃ c', t.cmds.get? cid = some c' ∧ c'.engNs = c.engNs + ns ∧ c'.tiles.get? src = some (c.tiles.getD src 0 + 1) ∧
          c'.busy.has src = false ∧ c'.pos = c.pos ∧ c'.status = c.status ∧ c'.tileEnd.get? src = some s.stamp ∧
          (c'.phase = .ended ↔ ((State.workLeft c = false ∨ c.stopping = true) ∧ (c.busy.erase src).size = 0))) ∧
        (∃ y, t.comps.get? (s.cmdComp c) = some y ∧ y.engUsed = x.engUsed + ns ∧
          y.meters.get? mEng = some (x.meters.getD mEng 0 + ns)) ∧
        t.power.runs.get? src = some (s.power.runs.getD src [] ++
          [{ cid := cid, comp := s.cmdComp c, ns := s.now - max s.power.began (c.tileAt.getD src s.now) }]) ∧
        (∀ k, k ≠ cid → t.cmds.get? k = s.cmds.get? k) ∧
        t = { s with cmds := t.cmds, comps := t.comps, obs := t.obs, power := { s.power with runs := t.power.runs }
                     eng := { s.eng with spads := t.eng.spads, partials := t.eng.partials } })) ∧
    (∀ src, c.busy.has src = true → 1200 ≤ src →
      Completes (.tileEnd cid src) s (fun t =>
        (∃ c', t.cmds.get? cid = some c' ∧ c'.engNs = c.engNs ∧ c'.tiles.get? src = some (c.tiles.getD src 0 + 1) ∧
          c'.busy.has src = false) ∧ (∀ k, k ≠ cid → t.cmds.get? k = s.cmds.get? k) ∧
        t = { s with cmds := t.cmds, comps := t.comps, obs := t.obs, power := { s.power with runs := t.power.runs }
                     eng := { s.eng with spads := t.eng.spads, partials := t.eng.partials } })) ∧
    (c.stopping = true → c.stopAt + 40000 ≤ s.now →
      Completes (.tileAbandonTimeout cid) s (fun t =>
        (∃ c', t.cmds.get? cid = some c' ∧ c'.phase = .ended ∧ c'.status = (State.failWith s.stamp 4 c).status) ∧
        (∀ k, k ≠ cid → t.cmds.get? k = s.cmds.get? k) ∧
        t = { s with cmds := t.cmds, comps := t.comps, obs := t.obs, power := { s.power with runs := t.power.runs }
                     eng := { s.eng with spads := t.eng.spads, partials := t.eng.partials } }))

/-- The completion record (R170 to R173). A command that ended with OK or PARTIAL, without RELEASE and without a signal of its
own, leaves the controller with its record written into the next slot of its ring's completion queue, whose count goes up by
one; of the tile set's opcodes, no other byte of the store changes. -/
def Obligations.CompletionsWriteTheirRecord : Prop :=
  ∀ (cid : Nat) (s : State) (c : Cmd) (r : Ring), s.cmds.get? cid = some c → c.endsPlainly = true → s.rings.get? c.ring = some r → s.evictedBy cid = [] →
    let a := r.cqBase * 4096 + 32 * (r.cqTail % r.cqEntries)
    Memory.wf s.mem = true → s.plainLine (a / 64) = true →
    Completes (.commandComplete cid) s (fun t =>
      t.cmds.get? cid = none ∧
      (t.ringAt c.ring).cqTail = (r.cqTail + 1) % 2 ^ 32 ∧ (t.ringAt c.ring).sqHead = r.sqHead ∧
      (∀ k, k < 32 → t.byte (a + k) =
        byteAt (State.recordOf { c with ended := s.stamp40, r0 := min c.r0 0xFFFF_FFFF, r1 := min c.r1 0xFFFF_FFFF } r.cqTail
          r.cqEntries s.stamp40 0) k) ∧
      SameMemoryOutside s t a 32 ∧ t.regs = s.regs ∧ t.heads = s.heads ∧ t.time = s.time)

/-- How engines and units run the work items of a command (R191, R57, R406). A source that may take the command's next item, one
tile at a time, with the codec unit its tiles need (R246), runs exactly that item, at the command's position: an item that has
to wait leaves nothing of itself but the reads it asks for, or what it keeps where it pauses between lines (R318, R322), and one of
MOVE or FILL that waits for a page lets the next go ahead
(R265); any other item stands whole, with the command moved on past it. A source of another kind, a unit with a tile of another
command, or a spent engine share changes nothing. -/
def Obligations.UnitsRunWorkItems : Prop :=
  ∀ (x : UnitOp), x ∈ unitOps → ∀ (cid : Nat) (run : RunEnv) (s : State) (c : Cmd),
    s.cmds.get? cid = some c → c.phase = .running → hdrOpcode c.desc = x.op → c.pos < c.total → c.late = [] → c.stopping = false →
    isKeystone run.src = false → run.items = 1 →
    let go := exec (x.cmd cid run) s
    (x.runs s cid run.src = false → go = .next s) ∧
    (c.busy.has run.src = false → s.shareSpent (s.cmdComp c) = true → go = .next s) ∧
    (State.codecFits c run = false → go = .next s) ∧
    ((State.unitsOf c run).any (s.elsewhere cid) = true → go = .next s) ∧
    (x.runs s cid run.src = true → s.srcRuns run.src = true → (c.busy.has run.src = true ∨ s.shareSpent (s.cmdComp c) = false) →
      State.codecFits c run = true → (State.unitsOf c run).any (s.elsewhere cid) = false →
      let s1 := s.begunOn cid c run
      ∃ c1, s1.cmds.get? cid = some c1 ∧ c1.busy.has run.src = true ∧ c1.begun.has run.src = true ∧ c1.pos = c.pos ∧
        let w := x.item (s1.workAt cid run c1) c.pos
        let s2 := (if w.paused then w.s else s1).issueWants cid w.wants
        (w.blocked = true → go = .next (if w.paged && State.mayOvertake c then s2.suspendItem cid c.pos else s2)) ∧
        (w.blocked = false → go = .next (State.settleItem w c.pos)) ∧
        (∀ c2, w.blocked = false → w.s.cmds.get? w.cid = some c2 →
          ∃ c3, (State.settleItem w c.pos).cmds.get? w.cid = some c3 ∧
            c3.pos = (if w.halt then c2.total else max c2.pos (c.pos + 1)) ∧ c3.r0 = c2.r0 + w.r0 ∧ c3.r1 = c2.r1 + w.r1 ∧
            (w.bad = 0 → c3.status = if w.part && c2.status == 0 then 1 else c2.status) ∧
            (w.bad ≠ 0 → c2.status ≤ 1 → c3.status = w.bad)))

/-- How the owning Keystone runs the opcodes of its own (R238, R240, R306, R307): one item at a time, as a unit does, without an
engine share and without tiles; with the last item the command ends. Another source changes nothing. -/
def Obligations.KeystonesRunTheirOpcodes : Prop :=
  ∀ (x : UnitOp), x ∈ keystoneOps → ∀ (cid src : Nat) (media : List (Nat × Media)) (s : State) (c : Cmd),
    s.cmds.get? cid = some c → c.phase = .running → hdrOpcode c.desc = x.op → c.pos < c.total → c.late = [] → c.stopping = false →
    let run : RunEnv := { src := src, items := 1, media := media }
    let go := exec (x.cmd cid run) s
    (src ≠ 1244 + (s.ringAt c.ring).owner → isKeystone src = true → go = .next s) ∧
    (src = 1244 + (s.ringAt c.ring).owner → isKeystone src = true →
      let w := x.item (s.workAt cid run c) c.pos
      (w.blocked = true → go = .next ((if w.paused then w.s else s).issueWants cid w.wants)) ∧
      (w.blocked = false → ∀ c3, (State.settleItem w c.pos).cmds.get? cid = some c3 →
        (State.workLeft c3 = true → go = .next (State.settleItem w c.pos)) ∧
        (State.workLeft c3 = false → go = .next ((State.settleItem w c.pos).finish cid)))) ∧
    (x.op = 0x00 ∨ x.op = 0x3A ∨ x.op = 0x3B → src = 1244 + (s.ringAt c.ring).owner → isKeystone src = true → c.total = 1 →
      c.begun = Tab.empty → c.busy = Tab.empty →
      ∃ c3 t, go = .next t ∧ t.cmds.get? cid = some c3 ∧ c3.phase = .ended ∧ c3.status = c.status ∧ c3.r0 = c.r0 ∧ c3.r1 = c.r1 ∧
        c3.ended = s.stamp40 ∧ (∀ k, k ≠ cid → t.cmds.get? k = s.cmds.get? k) ∧
        t = { s with cmds := t.cmds, eng := s.withoutPartials cid })

/-- ACQUIRE and RELEASE (R238). ACQUIRE drops every read cache, prefetch buffer and staged copy of the composition on the dies it
names and counts the dies; it moves no byte and ends. RELEASE waits while an earlier command of its ring works or writes; with
nothing outstanding and no host writes to flush it ends, with 0 heads in RESULT0. -/
def Obligations.AcquireDropsCopiesAndReleaseWaits : Prop :=
  ∀ (cid src : Nat) (media : List (Nat × Media)) (s : State) (c : Cmd), s.cmds.get? cid = some c → c.phase = .running →
    c.pos = 0 → c.total = 1 → c.late = [] → c.stopping = false → c.begun = Tab.empty → c.busy = Tab.empty → isKeystone src = true →
    src = 1244 + (s.ringAt c.ring).owner →
    (hdrOpcode c.desc = 0x38 →
      Completes (.acquire cid { src := src, items := 1, media := media }) s (fun t =>
        (∀ u d, courseOf u = some d → bit (fld c.desc 271 256) d = true →
          (t.eng.readCache.getD u Tab.empty).any (fun _ x => x.comp == s.cmdComp c) = false ∧
            (t.eng.prefetch.getD u Tab.empty).any (fun _ x => x.comp == s.cmdComp c) = false) ∧
        (∀ d, d < 16 → bit (fld c.desc 271 256) d = true →
          (t.eng.staged.getD d Tab.empty).any (fun _ x => x.comp == s.cmdComp c) = false) ∧
        (∀ d, bit (fld c.desc 271 256) d = false → t.eng.staged.get? d = s.eng.staged.get? d) ∧
        (∃ c3, t.cmds.get? cid = some c3 ∧ c3.phase = .ended ∧ c3.status = c.status ∧
          c3.r0 = c.r0 + popcount 16 (fld c.desc 271 256)) ∧
        t = { s with cmds := t.cmds, eng := t.eng })) ∧
    (hdrOpcode c.desc = 0x39 → (s.ringWorking c.ring cid = true ∨ s.ringWriting c.ring cid = true) →
      exec (.release cid { src := src, items := 1, media := media }) s = .next s) ∧
    (hdrOpcode c.desc = 0x39 → s.ringWorking c.ring cid = false → s.ringWriting c.ring cid = false →
      (s.ringAt c.ring).hostOut = Tab.empty → (s.ringAt c.ring).lateFail = [] →
      Completes (.release cid { src := src, items := 1, media := media }) s (fun t =>
        (∃ c3, t.cmds.get? cid = some c3 ∧ c3.phase = .ended ∧ c3.status = c.status ∧ c3.r0 = c.r0) ∧
        (∀ k, k ≠ cid → t.cmds.get? k = s.cmds.get? k) ∧
        t = { s with cmds := t.cmds, rings := t.rings, eng := s.withoutPartials cid }))

/-- What the opcodes of the tile set write, row by row (R199, R217, R222, R224, R231), where a row of a plain tensor lies inside
one line that can be read and written as it stands, and no output of the command overlaps it (R218). FILL puts one converted
value into every element; MOVE copies a row whose format does not change byte for byte; an EWISE function of X alone writes, for
each element, the function of the element as the vector unit takes it, converted into Z's format. Each moves the command on by
one row, counts it in RESULT0, and changes no other byte of the store. -/
def Obligations.TileOpcodesWriteTheirRows : Prop :=
  ∀ (cid src die : Nat) (s : State) (c : Cmd), s.cmds.get? cid = some c → c.phase = .running → c.pos < c.total →
    Memory.wf s.mem = true → c.late = [] → c.stopping = false → c.dumpAt = [] → courseOf src = some die → s.srcRuns src = true →
    (c.busy.has src = true ∨ s.shareSpent (s.cmdComp c) = false) → s.elsewhere cid src = false →
    let d := c.desc
    let run : RunEnv := { src := src, items := 1 }
    let done (t : State) : Prop := ∃ c', t.cmds.get? cid = some c' ∧ c'.pos = c.pos + 1 ∧ c'.r0 = c.r0 + 1 ∧ c'.status = c.status
    let fresh (ln : Nat) : Prop := (s.eng.staged.getD die Tab.empty).get? ln = none ∧
      (s.eng.readCache.getD src Tab.empty).get? ln = none ∧ (s.eng.prefetch.getD src Tab.empty).get? ln = none
    let apart (x : Tref) (a n : Nat) : Prop := c.outAt.any (fun o => o.off != x.off && o.meets a n) = false
    -- FILL
    (∀ g a, hdrOpcode d = 0x02 → isMover src = true →
      let z := trefAt d 256
      let cols := fld d 447 416
      z.enc = 0 → fmtOk z.fmt = true → isMx z.fmt = false → c.pos < fld d 415 384 →
      segHolding c.segs (z.addr + c.pos * z.stride) (rowBytes z.fmt cols) = some g → g.kind = 1 → g.ok = true → g.wr = true → g.pin = true →
      a = g.tbase + (z.addr + c.pos * z.stride - g.vbase) → s.PlainRow a (rowBytes z.fmt cols) →
      Completes (.fill cid run) s (fun t => done t ∧ SameMemoryOutside s t a (rowBytes z.fmt cols) ∧
        ∃ n, ∀ j b, j < cols → b < elemBits z.fmt / 8 → t.byte (a + elemBits z.fmt / 8 * j + b) =
          byteAt (convScalar z.fmt (numRnd (fld d 487 480)) (numSat (fld d 487 480)) (Config.free n) (ofFp32 (fld d 479 448))).code
            b)) ∧
    -- MOVE, COPY
    (∀ gx gz ax az, hdrOpcode d = 0x01 → isMover src = true →
      let x := trefAt d 256
      let z := trefAt d 384
      let n := rowBytes z.fmt (fld d 575 544)
      moveMode d = 0 → x.enc = 0 → z.enc = 0 → x.fmt = z.fmt → c.pos < fld d 543 512 → apart x ax n →
      segHolding c.segs (x.addr + c.pos * x.stride) n = some gx → gx.kind = 1 → gx.ok = true →
      ax = gx.tbase + (x.addr + c.pos * x.stride - gx.vbase) → s.PlainRow ax n → fresh (ax / 64) →
      segHolding c.segs (z.addr + c.pos * z.stride) n = some gz → gz.kind = 1 → gz.ok = true → gz.wr = true →
      az = gz.tbase + (z.addr + c.pos * z.stride - gz.vbase) → s.PlainRow az n →
      Completes (.move cid run) s (fun t => done t ∧ SameMemoryOutside s t az n ∧ ∀ b, b < n → t.byte (az + b) = s.byte (ax + b))) ∧
    -- EWISE, a function of X alone
    (∀ gx gz ax az, hdrOpcode d = 0x18 → isEngine src = true →
      let x := trefAt d 256
      let z := trefAt d 512
      let cols := fld d 703 672
      fld d 775 768 < 20 → x.enc = 0 → z.enc = 0 → isMx x.fmt = false → isMx z.fmt = false → fmtOk x.fmt = true → fmtOk z.fmt = true →
      c.pos < fld d 671 640 → apart x ax (rowBytes x.fmt cols) →
      segHolding c.segs (x.addr + c.pos * x.stride) (rowBytes x.fmt cols) = some gx → gx.kind = 1 → gx.ok = true → gx.pin = true →
      ax = gx.tbase + (x.addr + c.pos * x.stride - gx.vbase) → s.PlainRow ax (rowBytes x.fmt cols) → fresh (ax / 64) →
      segHolding c.segs (z.addr + c.pos * z.stride) (rowBytes z.fmt cols) = some gz → gz.kind = 1 → gz.ok = true → gz.wr = true →
      gz.pin = true →
      az = gz.tbase + (z.addr + c.pos * z.stride - gz.vbase) → s.PlainRow az (rowBytes z.fmt cols) →
      Completes (.ewise cid run) s (fun t => done t ∧ SameMemoryOutside s t az (rowBytes z.fmt cols) ∧
        ∃ n m, ∀ j b, j < cols → b < elemBits z.fmt / 8 → t.byte (az + elemBits z.fmt / 8 * j + b) =
          byteAt (convScalar z.fmt (numRnd (fld d 799 792)) (numSat (fld d 799 792)) (Config.free (m + j))
            (ewise1 (n + j) (fld d 775 768) (ofFp32 (fld d 735 704)) (ofFp32 (fld d 767 736))
              (vecVal (scalarVal x.fmt (readMem s.mem (ax + elemBits x.fmt / 8 * j) (elemBits x.fmt / 8)))))).code b))

/-- What CHECK computes (R352, R355 to R358): over a range inside one line, the check value is the folded CRC of the bytes, the
address and the sequence; RESULT0 takes its low 32 bits and RESULT1 its high 32. It moves no byte of the store. -/
def Obligations.CheckFoldsItsRange : Prop :=
  ∀ (cid src : Nat) (s : State) (c : Cmd) (g : Seg) (a : Nat), s.cmds.get? cid = some c → c.phase = .running → c.pos = 0 →
    c.total = 1 → c.stopping = false → hdrOpcode c.desc = 0x08 → s.checkFree cid src = true → s.srcRuns src = true →
    (c.busy.has src = true ∨ s.shareSpent (s.cmdComp c) = false) → s.elsewhere cid src = false → c.late = [] →
    c.scratch = Tab.empty →
    let len := fld c.desc 383 320
    segHolding c.segs (fld c.desc 311 256) 1 = some g → g.kind = 1 → a = (g.tbase + (fld c.desc 311 256 - g.vbase)) % 2 ^ 64 →
    s.PlainRow a len →
    let v := crcEnd (fld c.desc 423 416)
      (crcRun (fld c.desc 423 416) (crcStart (fld c.desc 423 416) a (fld c.desc 415 384)) (readMem s.mem a len) len)
    Completes (.check cid { src := src, items := 1 }) s (fun t =>
      (∃ c', t.cmds.get? cid = some c' ∧ c'.pos = 1 ∧ c'.r0 = c.r0 + fld v 31 0 ∧ c'.r1 = c.r1 + fld v 63 32 ∧
        c'.status = c.status) ∧
      SameMemory s t)

/-- The commits of collective groups (R287 to R290). CREATE reads the member list and makes the group ACTIVE, in the place of
the one entry that names the controller's own port; ATTACH and DETACH put a ring into the group and take it out; CLEAR makes an
aborted group ACTIVE in the next epoch, after an abort still due has been carried out; DESTROY detaches the rings, frees a group
without commands, and lets one with commands drain. A commit the group's state does not allow changes nothing but the domain's
status. How a group aborts (R295 to R298). A record that carries the group's key and epoch aborts an ACTIVE group with cause FEh
and the record's origin; any other record is only counted. A commit with OP = ABORT aborts it with cause FFh and the own port;
an abort that is due stops the group's commands: those running end with ABORTED unless they had failed before. -/
def Obligations.GroupsAreCommittedAndAborted : Prop :=
  (∀ (s : State) (f : Frame) (rest : List Frame) (media : List (Nat × Media)), s.regs.queue = f :: rest → f.dom = .grp →
     let g := f.sel
     let x := s.grpAt g
     let others (t : State) : Prop := ∀ j, j ≠ g → t.eng.grps.get? j = s.eng.grps.get? j
     (∀ v s1 e rx, f.fld offGrp 2 0 = 1 → x.state = .free → s.comps.has (f.fld offGrp 31 24) = true →
       0 < f.fld offGrpLoc 42 32 → f.fld offGrpLoc 42 32 ≤ 1024 → 3 ≤ f.fld offGrpLoc 63 48 →
       (s.taken rest).inOwnSoft (f.fld offGrp 31 24) (f.fld offGrpLoc 30 0 * 4096) (16 * f.fld offGrpLoc 42 32) = true →
       (s.taken rest).ownRead media (f.fld offGrpLoc 30 0 * 4096) (16 * f.fld offGrpLoc 42 32) = ((v, 0), s1) →
       let mem := (List.range (f.fld offGrpLoc 42 32)).map (fun i => fld v (128 * i + 127) (128 * i))
       mem.filter (fun e => memPort e == s.port) = [e] → rx = memBase e →
       s1.inOwnSoft (f.fld offGrp 31 24) (f.fld offGrpLoc 30 0 * 4096) (16 * f.fld offGrpLoc 42 32) = true →
       s1.inOwnSoft (f.fld offGrp 31 24) rx (4096 * f.fld offGrpLoc 63 48) = true →
       Completes (.groupCreate media) s (fun t => Accepted s t .grp ∧ t.regs.queue = rest ∧ others t ∧ t.rings.keys = s.rings.keys ∧
         ∃ y, t.eng.grps.get? g = some y ∧ y.state = .active ∧ y.gkey = f.fld offGrp 63 32 ∧ y.comp = f.fld offGrp 31 24 ∧
           y.size = f.fld offGrpLoc 42 32 ∧ nth mem y.rank 0 = e ∧ y.members = mem ∧ y.rx = rx ∧ y.epoch = 0 ∧
           y.list = f.fld offGrpLoc 30 0 ∧ y.gen = x.gen + 1 ∧ y.gnext = f.word offGrpGnext ∧ y.rings = Tab.empty)) ∧
     (f.fld offGrp 2 0 = 7 →
       Completes (.groupCreate media) s (Rejected (s.taken rest) · .grp ⟨.encoding, offGrp, true⟩)) ∧
     (f.fld offGrp 2 0 = 2 → x.state ≠ .free → s.grpCmds g = [] →
       Completes .groupDestroy s (fun t => Accepted s t .grp ∧ t.regs.queue = rest ∧ others t ∧ t.eng.grps.get? g = some {} ∧
         t.mem = s.mem ∧ t.cmds = s.cmds ∧ t.rings = s.rings)) ∧
     (f.fld offGrp 2 0 = 2 → x.state ≠ .free → s.grpCmds g ≠ [] →
       Completes .groupDestroy s (fun t => Accepted s t .grp ∧ t.regs.queue = rest ∧ others t ∧
         (t.grpAt g).state = .draining ∧ (t.grpAt g).rings = Tab.empty ∧ t.mem = s.mem ∧
         (∀ k c, s.cmds.get? k = some c → c.group = g + 1 → c.phase ≠ .ended → c.phase ≠ .signalled →
           ∃ c', t.cmds.get? k = some c' ∧ c'.phase = .ended ∧
             c'.status = (if c.phase = .running then (State.failWith s.stamp 8 c).status else 8)))) ∧
     (f.fld offGrp 2 0 = 2 → x.state = .free →
       Completes .groupDestroy s (Rejected (s.taken rest) · .grp ⟨.state, offGrp, true⟩)) ∧
     (f.fld offGrp 2 0 = 3 → faultOf ((s.taken rest).grpRingChecks f true) = none →
       Completes .groupAttach s (fun t => Accepted s t .grp ∧ others t ∧
         t.eng.grps.get? g = some { x with rings := x.rings.add (f.fld offGrp 23 12) } ∧
         t = { s with regs := { s.regs with queue := rest, status := t.regs.status }, eng := { s.eng with grps := t.eng.grps } })) ∧
     (f.fld offGrp 2 0 = 4 → faultOf ((s.taken rest).grpRingChecks f false) = none →
       Completes .groupDetach s (fun t => Accepted s t .grp ∧ others t ∧
         t.eng.grps.get? g = some { x with rings := x.rings.erase (f.fld offGrp 23 12) } ∧
         t = { s with regs := { s.regs with queue := rest, status := t.regs.status }, eng := { s.eng with grps := t.eng.grps } })) ∧
     (f.fld offGrp 2 0 = 5 → x.state = .aborted →
       Completes .groupClear s (fun t => Accepted s t .grp ∧ t.regs.queue = rest ∧ others t ∧ t.mem = s.mem ∧
         t.eng.grps.get? g =
           some { x with state := .active, due := false, epoch := (x.epoch + 1) % 65536, gnext := f.word offGrpGnext, base := f.word offGrpGnext } ∧
         (x.due = false → t = { s with regs := { s.regs with queue := rest, status := t.regs.status }, eng := { s.eng with grps := t.eng.grps } })))) ∧
  ((∀ (s : State) (g v : Nat) (rest : List (Nat × Nat)), s.eng.abortDue = (g, v) :: rest →
     ((s.grpAt g).state = .active → fld v 31 0 = (s.grpAt g).gkey → fld v 47 32 = (s.grpAt g).epoch →
       Completes .abortRecord s (fun t =>
         (t.grpAt g).state = .aborted ∧ (t.grpAt g).cause = 0xFE ∧ (t.grpAt g).origin = fld v 59 48 ∧ (t.grpAt g).due = true ∧
         (t.grpAt g).abTime = fld v 191 128 ∧ (t.grpAt g).abCause = fld v 71 64 ∧
         (∀ j, j ≠ g → t.eng.grps.get? j = s.eng.grps.get? j) ∧
         t = { s with eng := { s.eng with abortDue := rest, grps := t.eng.grps } })) ∧
     (((s.grpAt g).state ≠ .active ∨ fld v 31 0 ≠ (s.grpAt g).gkey ∨ fld v 47 32 ≠ (s.grpAt g).epoch) →
       exec .abortRecord s = .next (({ s with eng := { s.eng with abortDue := rest } }).bump cAbortIgnored 1))) ∧
   (∀ (s : State) (g cause : Nat), s.regs.queue = [] → (s.grpAt g).due = false → exec (.groupAbort g cause) s = .next s) ∧
   (∀ (s : State) (g cause : Nat), s.regs.queue = [] → (s.grpAt g).due = true →
     Completes (.groupAbort g cause) s (fun t =>
       (t.grpAt g).due = false ∧ (t.grpAt g).state = (s.grpAt g).state ∧ t.mem = s.mem ∧ t.regs = s.regs ∧
       ∀ k c, s.cmds.get? k = some c → c.group = g + 1 → c.phase ≠ .ended → c.phase ≠ .signalled →
         ∃ c', t.cmds.get? k = some c' ∧ c'.phase = .ended ∧
           c'.status = (if c.phase = .running then (State.failWith s.stamp 8 c).status else 8))) ∧
   (∀ (s : State) (g : Nat) (f : Frame) (rest : List Frame), s.regs.queue = f :: rest → f.dom = .grp → f.sel = g →
     f.fld offGrp 2 0 = 6 → (s.grpAt g).state = .active → s.grpCmds g = [] →
     Completes (.groupAbort g 0xFF) s (fun t =>
       Accepted s t .grp ∧ t.regs.queue = rest ∧ (t.grpAt g).state = .aborted ∧ (t.grpAt g).cause = 0xFF ∧
       (t.grpAt g).origin = s.port ∧ (t.grpAt g).abTime = s.stamp ∧ (t.grpAt g).abCause = 0xFF ∧ (t.grpAt g).aborts = min ((s.grpAt g).aborts + 1) 1023 ∧ (t.grpAt g).due = false ∧
       t.mem = s.mem)))

/-- Search indexes and their epochs (R323 to R325, R342, R344). An accepted CREATE makes the index ACTIVE with the geometry of
its frame and epoch 0; an accepted DESTROY frees it, and one with a command bound to it is refused with STATE; the published
epoch of an index reaches the last one reserved once no reserving command and no write of one is outstanding, and stays below
the oldest one that is. -/
def Obligations.IndexesAndTheirEpochs : Prop :=
  (∀ (s : State) (f : Frame) (rest : List Frame), s.regs.queue = f :: rest → f.dom = .idx →
    (f.fld offIdxAttr 2 0 = 1 → faultOf ((s.taken rest).idxCreateChecks f) = none →
      Completes .indexCreate s (fun t => Accepted s t .idx ∧
        (∀ j, j ≠ f.sel → t.eng.idxs.get? j = s.eng.idxs.get? j) ∧
        (∃ x, t.eng.idxs.get? f.sel = some x ∧ x.state = 1 ∧ x.comp = f.fld offIdxAttr 63 56 ∧ x.words = f.words ∧ x.epoch = 0 ∧
          x.reserved = 0 ∧ x.hwm = 0 ∧ x.live = 0 ∧ x.bound = 0) ∧
        t = { s with regs := { s.regs with queue := rest, status := t.regs.status }, eng := { s.eng with idxs := t.eng.idxs } })) ∧
    (f.fld offIdxAttr 2 0 = 2 → (s.idxAt f.sel).state ≠ 0 → (s.idxAt f.sel).bound = 0 →
      Completes .indexDestroy s (fun t => Accepted s t .idx ∧ t.eng.idxs.get? f.sel = none ∧
        (∀ j, j ≠ f.sel → t.eng.idxs.get? j = s.eng.idxs.get? j) ∧
        t = { s with regs := { s.regs with queue := rest, status := t.regs.status }, eng := { s.eng with idxs := t.eng.idxs } })) ∧
    (f.fld offIdxAttr 2 0 = 2 → ((s.idxAt f.sel).state = 0 ∨ 0 < (s.idxAt f.sel).bound) →
      Completes .indexDestroy s (Rejected (s.taken rest) · .idx ⟨.state, offIdxAttr, true⟩))) ∧
  (∀ (s : State) (i : Nat) (x : Idx), s.eng.idxs.get? i = some x → x.state ≠ 0 →
    let pending (o : Nat × Nat) : Bool := s.cmds.has o.2 || s.remotes.any (fun _ r => r.write && r.cid == some o.2)
    Completes (.epochPublish i) s (fun t =>
      (x.open_.any pending = false → (t.idxAt i).epoch = x.reserved ∧ (t.idxAt i).open_ = []) ∧
      (∀ o, x.open_.find? pending = some o → (t.idxAt i).epoch = o.1 - 1 ∧ (t.idxAt i).open_ = x.open_.filter pending) ∧
      (t.idxAt i).hwm = x.hwm ∧ (t.idxAt i).reserved = x.reserved ∧ (∀ j, j ≠ i → t.eng.idxs.get? j = s.eng.idxs.get? j) ∧
      t = { s with eng := { s.eng with idxs := t.eng.idxs } }))

/-- KV service requests (R268 to R272). A request of a composition without a service page is dropped. ALLOC of COUNT blocks,
with room in the pool and in the quota, gives the composition that many distinct blocks that no one held, each with one
reference and the request's tag, and touches no other block. -/
def Obligations.KvAllocGivesFreeBlocks : Prop :=
  ∀ (media : List (Nat × Media)) (s : State) (q : KvReq) (rest : List KvReq), s.eng.kvDue = q :: rest → q.owed = none →
    ((s.comps.getD (q.key / 64) {}).kv.enable = false →
      exec (.kvServiceRequest media) s = .next { s with eng := { s.eng with kvDue := rest } }) ∧
    (let c := q.key / 64
     let n := fld q.bits 28 16
     (s.comps.getD c {}).kv.enable = true → s.comps.has c = true → s.kvOn = true → fld q.bits 7 0 = 1 → 1 ≤ n → n ≤ 4096 →
     fld q.bits 106 64 % 4 = 0 → (s.extHolding (fld q.bits 106 64) (4 * n) (· == .active)).any (fun x => x.2.comp == c) = true →
     s.eng.kv.size + n ≤ s.kvCount → s.kvHeld c + n ≤ nth (s.comps.getD c {}).quota 7 0 →
     Completes (.kvServiceRequest media) s (fun t =>
       (∃ bs : List Nat, bs.length = n ∧ bs.Nodup ∧
         (∀ b, b ∈ bs → b < s.kvCount ∧ s.eng.kv.has b = false ∧
           t.eng.kv.get? b = some { owner := c, tag := fld q.bits 63 32 }) ∧
         (∀ b, b ∉ bs → t.eng.kv.get? b = s.eng.kv.get? b)) ∧
       t.eng.kvSerial.get? q.key = some ((s.eng.kvSerial.getD q.key 0 + 1) % 2 ^ 32) ∧ t.regs = s.regs ∧
       ((∀ ln, s.protAt ln ≠ 2) → s.cmds.any (fun _ x => x.phase == .waiting) = false → t.cmds = s.cmds)))

/-- Table versions at their Keystone (R303, R306 to R308). TABLE_PUBLISH of a descriptor without a fault makes its version the
CURRENT one and supersedes the version that was, answers the version in RESULT0 and the versions held in RESULT1, and ends; one
whose descriptor is at fault changes no table and ends with INVALID. TABLE_RETIRE waits while a command is bound to its version,
and then takes the version and its row-cache lines away. -/
def Obligations.TablesArePublishedAndRetired : Prop :=
  ∀ (cid src : Nat) (media : List (Nat × Media)) (s : State) (c : Cmd), s.cmds.get? cid = some c → c.phase = .running →
    c.pos = 0 → c.total = 1 → c.late = [] → c.stopping = false → c.begun = Tab.empty → c.busy = Tab.empty → c.status = 0 →
    isKeystone src = true →
    src = 1244 + (s.ringAt c.ring).owner →
    let run : RunEnv := { src := src, items := 1, media := media }
    (∀ v w, hdrOpcode c.desc = 0x2A → (s.workAt cid run c).rd (fld c.desc 311 256) 64 = (v, w) → w.blocked = false →
      w.bad = 0 → w.s.cmds = s.cmds → w.s.rings = s.rings → w.cid = cid → w.src = src → w.r0 = 0 → w.r1 = 0 → w.part = false →
      let t0 := fld c.desc 335 320
      let old : Tbl := w.s.eng.tbls.getD t0 { comp := w.comp }
      (descFault w.s w.comp t0 v = none →
        Completes (.tablePublish cid run) s (fun t =>
          (∃ x, t.eng.tbls.get? t0 = some x ∧ x.comp = w.comp ∧
            x.vers = old.vers.map (fun y => if y.state = 1 then { y with state := 2 } else y) ++ [verOf w.s v]) ∧
          (∀ j, j ≠ t0 → t.eng.tbls.get? j = w.s.eng.tbls.get? j) ∧
          (∃ c', t.cmds.get? cid = some c' ∧ c'.phase = .ended ∧ c'.status = 0 ∧ c'.r0 = c.r0 + fld v 223 192 ∧
            c'.r1 = c.r1 + (old.vers.length + 1)) ∧ t.mem = w.s.mem)) ∧
      (∀ off, descFault w.s w.comp t0 v = some off →
        Completes (.tablePublish cid run) s (fun t =>
          t.eng.tbls = w.s.eng.tbls ∧
          (∃ c', t.cmds.get? cid = some c' ∧ c'.phase = .ended ∧ c'.status = 2 ∧ c'.r0 = c.r0 + off) ∧ t.mem = w.s.mem))) ∧
    (hdrOpcode c.desc = 0x2B →
      let t0 := fld c.desc 303 288
      let v := fld c.desc 287 256
      ((s.tblVer t0 v).any (fun x => decide (0 < x.bound)) = true → exec (.tableRetire cid run) s = .next s) ∧
      ((s.tblVer t0 v).any (fun x => decide (0 < x.bound)) = false →
        Completes (.tableRetire cid run) s (fun t =>
          t.tblVer t0 v = none ∧ t.eng.rowCache.any (fun _ r => r.tbl == t0 && r.ver == v) = false ∧
          (∀ j, j ≠ t0 → t.eng.tbls.get? j = s.eng.tbls.get? j) ∧
          (∃ c', t.cmds.get? cid = some c' ∧ c'.phase = .ended ∧ c'.status = 0 ∧
            c'.r1 = c.r1 + (s.eng.rowCache.vals.filter (fun r => r.tbl == t0 && r.ver == v)).length) ∧
          t = { s with cmds := t.cmds, eng := { s.withoutPartials cid with tbls := t.eng.tbls, rowCache := t.eng.rowCache } })))

/-- Dump watches (R242): a watch ends when it has its dumps or its limit has passed, with the dumps taken in RESULT0 and those
skipped in RESULT1, as PARTIAL where it is short of dumps or skipped one; before that nothing changes. -/
def Obligations.WatchesEndWithTheirCounts : Prop :=
  ∀ (cid : Nat) (s : State) (c : Cmd) (x : Watch), s.cmds.get? cid = some c → c.phase = .running → hdrOpcode c.desc = 0x48 →
    c.begun = Tab.empty → c.busy = Tab.empty → 0 < c.total → s.eng.watches = [x] → x.cid = cid →
    let ended (t : State) : Prop := t.eng.watches = [] ∧ (∀ k, k ≠ cid → t.cmds.get? k = s.cmds.get? k) ∧
      (∃ c', t.cmds.get? cid = some c' ∧ c'.phase = .ended ∧ c'.r0 = x.taken ∧ c'.r1 = x.skipped ∧
        c'.status = (if (x.taken < fld c.desc 463 448 ∨ 0 < x.skipped) ∧ c.status = 0 then 1 else c.status)) ∧
      t = { s with cmds := t.cmds, eng := { s.withoutPartials cid with watches := t.eng.watches } }
    (∀ run : RunEnv, isKeystone run.src = true ∨ isMover run.src = true →
      (fld c.desc 463 448 ≤ x.taken → Completes (.dumpWatch cid run) s ended) ∧
      (x.taken < fld c.desc 463 448 → exec (.dumpWatch cid run) s = .next s)) ∧
    (x.since + 1000 * fld c.desc 511 480 ≤ s.now → Completes (.dumpWatchLimit cid) s ended) ∧
    (s.now < x.since + 1000 * fld c.desc 511 480 → exec (.dumpWatchLimit cid) s = .next s)

/-- Migration pages (R206, R264, R265). Only a tile mover that runs a MOVE faults. With no earlier fault waiting, its touch of a page
that is not there claims the lowest free frames and starts its fill, for which the command waits; a touch of a RESIDENT page changes
nothing; without frames the command ends with QUOTA. A page whose last piece has come becomes RESIDENT and clean. -/
def Obligations.PagesAreFilled : Prop :=
  (∀ (cid va : Nat) (s : State) (c : Cmd) (g : Seg), s.cmds.get? cid = some c → c.phase = .running →
    segHolding c.segs va 1 = some g → g.ok = true → g.kind = 3 → g.pin = false → s.eng.faults = [] →
    let comp := s.cmdComp c
    let big := g.pg == 1
    let host := (g.tbase + (va - g.vbase)) / pageSize big * pageSize big
    let away : Prop := s.eng.pages.any (fun _ p => (p.comp == comp && p.head == g.head) &&
      State.meets host (pageSize big) p.host (pageSize p.big)) = false ∧
      (s.eng.pages.vals.filter (fun (p : MigPage) => p.state == .filling)).length < 256
    let tiles : Prop := hdrOpcode c.desc = 0x01 ∧ c.busy.keys.any isMover = true
    (¬ tiles → exec (.pageFault cid va) s = .next s) ∧
    (∀ k p, s.eng.pages.find? (fun _ (p : MigPage) => (p.comp == comp && p.head == g.head) && p.big == big && p.host == host) = some (k, p) →
      p.state = .resident → exec (.pageFault cid va) s = .next s) ∧
    (tiles → away → s.freeFrames comp big = none →
      Completes (.pageFault cid va) s (fun t =>
        (∃ c', t.cmds.get? cid = some c' ∧ c'.phase = .ended ∧ c'.status = (State.failWith s.stamp 10 c).status) ∧
        t.eng.pages = s.eng.pages ∧ t.mem = s.mem)) ∧
    (∀ f, tiles → away → s.freeFrames comp big = some f → (s.heads.getD g.head {}).bme = true →
      Completes (.pageFault cid va) s (fun t =>
        (∃ p, t.eng.pages.get? s.nextId = some p ∧ p.state = .filling ∧ p.comp = comp ∧ p.head = g.head ∧ p.host = host ∧
          p.big = big ∧ p.frame = f ∧ p.waiters = [cid] ∧ p.dirty = false ∧
          (∀ j, p.pieces.has j = decide (j < pageSize big / 4096))) ∧
        (∀ j, j ≠ s.nextId → t.eng.pages.get? j = s.eng.pages.get? j) ∧
        t.cmds = s.cmds ∧ t.mem = s.mem ∧ t.regs = s.regs))) ∧
  (∀ (k : Nat) (p : MigPage) (s : State), s.eng.pages.get? k = some p → p.state = .filling → s.eng.faults = [] →
    (p.pieces.size = 0 →
      Completes (.pageResident k) s (fun t =>
        t.eng.pages.get? k = some { p with state := .resident, dirty := false, waiters := [] } ∧
        (∀ j, j ≠ k → t.eng.pages.get? j = s.eng.pages.get? j) ∧ t = { s with eng := { s.eng with pages := t.eng.pages } })) ∧
    (0 < p.pieces.size → exec (.pageResident k) s = .next s))

/-- The end of the controller's own requests (R84, R85). A completion of a read gives its command the data and the status of
R85; one of a write counts a write down and gives a failure on; the request is then gone, and its target's fault ends. A request
without a completion within REMOTE_TIMEOUT of its transmission, or of its issue where its link was down then, times out: its
command has TIMEOUT for it and the target's fault alarm occurs; a completion after that is discarded and counted. -/
def Obligations.RemoteRequestsEnd : Prop :=
  ∀ (id cid : Nat) (s : State) (r : Remote) (c : Cmd), s.cmds.get? cid = some c → r.cid = some cid →
    (s.remotes.get? id = some r → r.sent.isSome = true →
      (∀ key st data, r.purpose = .read cid key →
        Completes (.remoteCompletion id st data) s (fun t =>
          t.remotes.get? id = none ∧ t.remFault.has r.target = false ∧ t.mem = s.mem ∧
          (∃ c', t.cmds.get? cid = some c' ∧ c'.phase = c.phase ∧ c'.status = c.status ∧
            c'.prefetch.get? key = some { status := st.code, time := s.stamp, data :=
              if st.code = 0 ∨ st.code = 6 then data % 2 ^ (8 * r.len) else 2 ^ (8 * r.len) - 1 }))) ∧
      (∀ w st data, r.purpose = .write w →
        Completes (.remoteCompletion id st data) s (fun t =>
          t.remotes.get? id = none ∧ t.remFault.has r.target = false ∧ t.mem = s.mem ∧
          (∃ c', t.cmds.get? cid = some c' ∧ c'.writesOut = c.writesOut - 1 ∧
            c'.status = (if st.code = 0 then c.status else (State.failWith s.stamp st.code c).status)))) ∧
      (∀ key sent, r.purpose = .read cid key → r.sent = some sent →
        let at_ := if r.early then r.issued else sent
        (s.now < at_ + r.limit → exec (.remoteTimeout id) s = .next s) ∧
        (at_ + r.limit ≤ s.now →
          Completes (.remoteTimeout id) s (fun t =>
            t.remotes.get? id = none ∧ t.timedOut.get? id = some r ∧ t.remFault.has r.target = true ∧
            t.obs.acc.has (256 * (4 + r.head) + 11) = true ∧ t.mem = s.mem ∧
            (∃ c', t.cmds.get? cid = some c' ∧ c'.prefetch.get? key = some { status := 7, data := 2 ^ (8 * r.len) - 1, time := s.stamp }))))) ∧
    (s.remotes.get? id = some r → r.sent = none → ∀ st data, exec (.remoteCompletion id st data) s = .next s) ∧
    (s.remotes.get? id = none → ∀ st data, s.timedOut.get? id = some r →
      Completes (.remoteCompletion id st data) s (fun t =>
        t.timedOut.get? id = none ∧ t.obs.counters.get? cLateCpl = some (s.obs.counters.getD cLateCpl 0 + 1) ∧
        t.remFault.has r.target = false ∧ t = { s with timedOut := t.timedOut, obs := t.obs, remFault := t.remFault })) ∧
    (s.remotes.get? id = none → s.timedOut.get? id = none → ∀ st data, exec (.remoteCompletion id st data) s = .next s)

/-- Mirrored extents (R138, R139). OP DEGRADE makes a mirrored extent DEGRADED with the regions of its unacknowledged writes
dirty; OP RESYNC takes a DEGRADED one to RESYNC, and straight to MIRRORED where nothing is dirty; a due probe of a DEGRADED
extent goes out where PROBE is set; a resync slot reads the next line of a dirty region, where no request to it is under way,
and asks the partner to write it. No byte of the store changes. -/
def Obligations.MirrorsDegradeAndResync : Prop :=
  ∀ (i : Nat) (e : Extent) (s : State), s.exts.get? i = some e → e.state = .active →
    (∀ h (v : BitVec 32), s.headUp h = true → fld v.toNat 13 0 = i → fld v.toNat 31 30 = 2 → (e.mir = .mirrored ∨ e.mir = .resync) →
      Completes (.mirDegrade h v) s (fun t =>
        (∃ d, t.exts.get? i = some { e with mir := .degraded, probeAt := s.now, copied := Tab.empty, dirty := d } ∧
          ∀ rg, d.has rg = (e.dirty.has rg || s.remotes.any (fun _ r => match r.purpose with
            | .mirror j ln => j == i && regionOf ln == rg
            | .resync j ln => j == i && regionOf ln == rg
            | _ => false))) ∧ t.obs.acc.has 5 = true ∧
        (∀ j, j ≠ i → t.exts.get? j = s.exts.get? j) ∧ t.mem = s.mem ∧ t.regs.setupSrc = s.regs.setupSrc ||| 2 ^ h)) ∧
    (∀ h (v : BitVec 32), s.headUp h = true → fld v.toNat 13 0 = i → fld v.toNat 31 30 = 1 → e.mir = .degraded →
      Completes (.mirResync h v) s (fun t =>
        (e.dirty.size ≠ 0 → t.exts.get? i = some { e with mir := .resync, copied := Tab.empty }) ∧
        (e.dirty.size = 0 → t.exts.get? i = some { e with mir := .mirrored, copied := Tab.empty }) ∧
        (∀ j, j ≠ i → t.exts.get? j = s.exts.get? j) ∧ t.mem = s.mem ∧ t.regs.setupSrc = s.regs.setupSrc ||| 2 ^ h)) ∧
    (∀ q, e.mir = .degraded → bit (s.cfg offMedMirCfg) 16 = true →
      e.probeAt + s.cfgF offMedMirCfg 13 0 * 1000000 ≤ s.now → s.route e.partner = some q →
      Completes (.mirrorProbe i) s (fun t =>
        t.exts.get? i = some { e with probeAt := s.now } ∧ t.mem = s.mem ∧
        ∃ r, t.remotes.get? s.nextId = some r ∧ r.purpose = .probe i ∧ r.port = e.partner ∧ r.head = q ∧ r.write = false ∧
          r.addr = e.pbase * 2 ^ 21 ∧ r.len = 64)) ∧
    (∀ k q rg, e.mir = .resync → s.permitted actResync k = true → s.route e.partner = some q →
      e.dirty.keys.find? (fun rg => lineHome (rg * regionLines) == k && decide (e.copied.getD rg 0 < regionLines)) = some rg →
      let ln := rg * regionLines + e.copied.getD rg 0
      s.readsNow ln = true → s.free ln = true →
      Completes (.mirrorResync i k .clean) s (fun t =>
        (∃ e', t.exts.get? i = some e' ∧ e'.mir = .resync ∧ e'.copied.get? rg = some (e.copied.getD rg 0 + 1) ∧
          e'.dirty = e.dirty) ∧ t.mem = s.mem ∧
        ∃ r, t.remotes.get? s.nextId = some r ∧ r.purpose = .resync i ln ∧ r.port = e.partner ∧ r.head = q ∧ r.write = true ∧
          r.addr = e.pbase * 2 ^ 21 + (64 * ln - e.base * 2 ^ 21) ∧ r.data = (s.rawLine ln).toNat ∧ r.poison = s.marked ln))

/-- Repair, failure and retirement (R131, R140 to R145). The write-back of a corrected line waits for a calibration of its channel
and changes no byte; a channel whose cause
holds becomes failed, with its alarm; a rebuild claims the lowest free slot of the rescue pool and then copies line after line into
it, the poisoned ones counted; a region whose copy is done is retired, with its slot in use; MED_RETIRE starts the retirement of a
region that may be retired, which outside Active and Draining extents is retired at once;
MED_RESCUE_RELEASE takes a used slot out of the pool. -/
def Obligations.RegionsAreRebuiltAndRetired : Prop :=
  (∀ (ln : Nat) (s : State), s.med.repair.has ln = true →
    (s.chanBusy (lineChan ln) = true → exec (.eccRepairWriteback ln) s = .next s) ∧
    (s.chanBusy (lineChan ln) = false → Completes (.eccRepairWriteback ln) s (fun t =>
      t.med.repair.has ln = false ∧
        t = { s with med := { s.med with repair := s.med.repair.erase ln, banks := t.med.banks }, obs := t.obs } ∧
        (s.chanFailed (lineChan ln) = false →
          t.obs.counters.get? (cChWr + lineChan ln) = some (s.obs.counters.getD (cChWr + lineChan ln) 0 + 64))))) ∧
  (∀ (ch : Nat) (cause : ChanCause) (s : State), ch < 32 → (s.chanAt ch).failed = false →
    (cause = .calibration → 3 ≤ (s.chanAt ch).calFails) →
    (cause = .errors → 1024 < ((s.chanAt ch).ueTimes.filter (fun t => s.now < t + 1000000)).length) →
    Completes (.channelFailed ch cause) s (fun t =>
      (t.chanAt ch).failed = true ∧ (t.chanAt ch).calBusy = false ∧ t.calHeld.get? ch = none ∧
        t.obs.acc.has (256 * (32 + ch / 4) + 4) = true ∧
        (s.calHeld.get? ch = none → (∀ d, d ≠ ch → t.chanAt d = s.chanAt d) ∧ t.mem = s.mem) ∧
        (s.calHeld.get? ch = none → s.conflicts = [] →
          t = { s with med := t.med, obs := t.obs, lineBuf := t.lineBuf, calHeld := t.calHeld, calAcc := t.calAcc }))) ∧
  (∀ (rg : Nat) (m : Media) (b : Rebuild) (s : State), s.med.rebuilds.get? rg = some b → s.needsSlot rg = true →
    (∀ sl, b.slot = none → s.freeSlot = some sl →
      Completes (.regionRebuild rg m) s (fun t =>
        t.med.rebuilds.get? rg = some { b with slot := some sl } ∧ (∀ r, r ≠ rg → t.med.rebuilds.get? r = s.med.rebuilds.get? r) ∧
          t.mem = s.mem)) ∧
    (∀ sl, b.slot = some sl → b.next < regionLines →
      let ln := rg * regionLines + b.next
      Memory.wf s.mem = true → s.readsNow ln = true → s.free ln = true → s.heldElsewhere ln = false →
      Completes (.regionRebuild rg .clean) s (fun t =>
        t.med.rebuilds.get? rg = some { b with next := b.next + 1, bad := b.bad + (if s.poison.has ln = true then 1 else 0) } ∧
        (∀ k, k < 64 → t.byte (64 * (sl * regionLines + b.next) + k) = s.byte (64 * ln + k)) ∧
        SameMemoryOutside s t (64 * (sl * regionLines + b.next)) 64 ∧
        t.poison.has (sl * regionLines + b.next) = s.poison.has ln ∧ t.lost.has (sl * regionLines + b.next) = s.lost.has ln))) ∧
  (∀ (rg : Nat) (b : Rebuild) (s : State), s.med.rebuilds.get? rg = some b →
    (s.needsSlot rg = false ∨ (b.slot.isSome = true ∧ regionLines ≤ b.next)) →
    Completes (.regionRetired rg) s (fun t =>
      t.med.retired.has rg = true ∧ t.med.rebuilds.get? rg = none ∧ (∀ sl, b.slot = some sl → t.med.used.has sl = true) ∧
        (∀ r, r ≠ rg → t.med.retired.has r = s.med.retired.has r) ∧ t = { s with med := t.med, obs := t.obs, lineBuf := t.lineBuf })) ∧
  (∀ (h : Nat) (v : BitVec 32) (s : State), s.headUp h = true →
    let rg := fld v.toNat 21 0
    rg * 2 ^ 21 < s.med.p → s.med.retired.has rg = false → s.med.rebuilds.has rg = false → s.inReserve rg = false →
    s.inPool rg = false →
    Completes (.medRetire h v) s (fun t =>
      (s.needsSlot rg = true → t.med.rebuilds.get? rg = some { slot := none, cause := 3 } ∧ t.med.retired = s.med.retired) ∧
      (s.needsSlot rg = false → t.med.retired.has rg = true) ∧
        t = { s with med := t.med, obs := t.obs, lineBuf := t.lineBuf, regs := { s.regs with setupSrc := s.regs.setupSrc ||| 2 ^ h } })) ∧
  (∀ (h : Nat) (v : BitVec 32) (s : State), s.headUp h = true →
    let rg := s.cfgF offMedRescue 21 0 + fld v.toNat 5 0
    s.med.used.has rg = true → s.inPool rg = true →
    Completes (.medRescueRelease h v) s (fun t =>
      t.med.used.has rg = false ∧ t.med.released.has rg = true ∧
        t = { s with med := t.med, regs := { s.regs with setupSrc := s.regs.setupSrc ||| 2 ^ h } }))

/-- The work a Footing does by itself (R146 to R149, R377, R378): a refresh leaves and takes its banks' activations off; a bank
that has reached RAAIMT and a row that has reached ACT_LIMIT are mitigated, and no others; a due calibration blocks its channel
until it ends, when what waited for the channel is done, and a failed one is due again at once; a forced one is counted; patrol,
where its pace allows a batch, moves on through its pass, and
a pass that runs 48 h raises SCRUB_COVERAGE. None of it changes a byte of the store, where no write's access waits for a channel. -/
def Obligations.FootingsMaintainTheirChannels : Prop :=
  ∀ (s : State) (ch : Nat), ch < 32 →
    (s.sec.trained = true →
      ∀ bank mr4, Completes (.refresh ch bank mr4) s (fun t => t.out = .refresh ch bank :: s.out ∧
        (t.chanAt ch).refreshes = (s.chanAt ch).refreshes.mapIdx (fun b n => if bank.all (fun x => x == b) = true then n + 1 else n) ∧
        (t.chanAt ch).mr4 = mr4 ∧
        (∀ k b, s.med.banks.get? k = some b → k / 4096 = ch → (∀ n, bank = some n → k % 32 / 8 = n) →
          ∃ y, t.med.banks.get? k = some y ∧ y.raa = b.raa - (s.med.dimm.map (·.raaimt)).getD 0 ∧ y.row = none ∧
            y.rows = (if nth (t.chanAt ch).refreshes (k % 32 / 8) 0 % 8192 = 0 then [] else b.rows)) ∧
        (∀ k, (k / 4096 ≠ ch ∨ ∃ n, bank = some n ∧ k % 32 / 8 ≠ n) → t.med.banks.get? k = s.med.banks.get? k) ∧
        t = { s with out := t.out, med := { s.med with chans := t.med.chans, banks := t.med.banks } })) ∧
    (∀ d bank, s.med.dimm = some d → (d.rfm = false ∨ (s.bankAt ch bank).raa < d.raaimt) → exec (.rfm ch bank) s = .next s) ∧
    (∀ d bank, s.med.dimm = some d → d.rfm = true → d.raaimt ≤ (s.bankAt ch bank).raa →
      Completes (.rfm ch bank) s (fun t => t.out = .mitigate ch bank none :: s.out ∧
        (t.bankAt ch bank).raa = (s.bankAt ch bank).raa - d.raaimt ∧ (t.chanAt ch).mitigations = (s.chanAt ch).mitigations + 1 ∧
        t = { s with out := t.out, med := { s.med with chans := t.med.chans, banks := t.med.banks } })) ∧
    (∀ d bank row, s.med.dimm = some d →
      (∀ r, r ∈ (s.bankAt ch bank).rows → r.row = row → r.count < s.cfgF offMedDist 15 0) → exec (.actLimit ch bank row) s = .next s) ∧
    (∀ d bank r, s.med.dimm = some d → r ∈ (s.bankAt ch bank).rows → s.cfgF offMedDist 15 0 ≤ r.count →
      Completes (.actLimit ch bank r.row) s (fun t => t.out = .mitigate ch bank (if d.drfm = true then some r.row else none) :: s.out ∧
        (t.bankAt ch bank).rows = (s.bankAt ch bank).rows.map (fun x => if x.row = r.row then { x with count := 0 } else x) ∧
        (t.bankAt ch bank).raa = (s.bankAt ch bank).raa ∧
        (t.chanAt ch).mitigations = (s.chanAt ch).mitigations + 1 ∧
        t = { s with out := t.out, med := { s.med with chans := t.med.chans, banks := t.med.banks } })) ∧
    (s.calNext ch = true → s.permitted actCalibration (ch / 4) = true →
      Completes (.calibration ch) s (fun t => t.out = .calibrate ch :: s.out ∧ (t.chanAt ch).calBusy = true ∧
        (t.chanAt ch).calStart = s.now ∧ t = { s with out := t.out, med := { s.med with chans := t.med.chans } })) ∧
    (s.calNext ch = true → s.calDue ch + 128000000 ≤ s.now →
      Completes (.calibrationForced ch) s (fun t => t.out = .calibrate ch :: s.out ∧ (t.chanAt ch).calBusy = true ∧
        (t.chanAt ch).calStart = s.now ∧ (t.chanAt ch).forced = (s.chanAt ch).forced + 1 ∧
        t = { s with out := t.out, obs := t.obs, med := { s.med with chans := t.med.chans } })) ∧
    (∀ ok, (s.chanAt ch).calBusy = true →
      Completes (.calibrationEnd ch ok) s (fun t => (t.chanAt ch).calBusy = false ∧ (t.chanAt ch).calSince = s.now ∧
        (t.chanAt ch).calAgain = !ok ∧ (t.chanAt ch).calFails = (if ok = true then 0 else (s.chanAt ch).calFails + 1) ∧
        t.calHeld.get? ch = none ∧ t.calAcc.get? ch = none ∧
        (s.calHeld.get? ch = none → s.calAcc.get? ch = none →
          t.med = { s.med with chans := t.med.chans } ∧ t.mem = s.mem ∧
          (s.conflicts = [] → t = { s with med := t.med, calHeld := t.calHeld, calAcc := t.calAcc })) ∧
        (∀ a, s.calHeld.get? ch = some [a] → s.calAcc.get? ch = none → s.conflicts = [] → a.req.kind = .memRd →
          s.headUp a.req.head = true → lineChan a.req.line = ch → a.req.env.media = .clean → s.unreadable a.req.line = false →
          s.parityHeals a.req.line = false →
          t.mem = s.mem ∧ t.out = .memData a.req.head a.req.tag a.req.line (if a.poison = true then 0 else a.data) a.poison
            (State.grantOf a.req.grant) :: s.out))) ∧
    (∀ f, f < 8 → s.sec.scrubbed = true → (s.med.patrol.getD f {}).covered = true →
      (s.med.patrol.getD f {}).start + 172800000000000 ≤ s.now →
      Completes (.scrubCoverage f) s (fun t => (t.med.patrol.getD f {}).covered = false ∧
        t.obs.acc.has (256 * (32 + f) + 17) = true ∧ t = { s with med := { s.med with patrol := t.med.patrol }, obs := t.obs })) ∧
    (∀ f, s.patrolMay f (min 64 (s.patrolTotal - (s.med.patrol.getD f {}).next)) = true →
      (∀ j, j < 4 → s.chanBusy (4 * f + j) = false) → s.med.ue = Tab.empty →
      s.exts.any (fun _ e => e.prot != 0) = false →
      let p := s.med.patrol.getD f {}
      p.next < s.patrolTotal →
      Completes (.patrolScrub f []) s (fun t => t.mem = s.mem ∧ t.poison = s.poison ∧
        (t.med.patrol.getD f {}).next = (if p.next + 64 < s.patrolTotal then p.next + 64 else 0) ∧
        (t.med.patrol.getD f {}).readAt = some s.now ∧
        (s.patrolTotal ≤ p.next + 64 → (t.med.patrol.getD f {}).start = s.now ∧ (t.med.patrol.getD f {}).covered = true)))

/-- Memory training and the start-up scrub (R125, R126, R443, R444). With 32 channels that agree and are supported the memory is
active, with the population 32 times one channel; otherwise the population is 0, MED_POP names the first channel at fault and its
reason, the population alarm occurs, and no later training of the same start-up is made. The scrub makes every byte of the next regions read 0, takes their marks away, starts
the retirement of those that met an uncorrectable error, and has passed the memory when it reaches the population. -/
def Obligations.MemoryTrainsAndIsScrubbed : Prop :=
  (∀ (ds : List (Option Dimm)) (d : Dimm) (s : State), s.sec.fw = true → s.sec.trained = false → s.med.popReason = 0 → nth ds 0 none = some d →
    (∀ ch, ch < 32 → State.popReasonOf (some d) (nth ds ch none) = 0) →
    Completes (.memoryTraining ds) s (fun t =>
      t.sec.trained = true ∧ t.sec.active = true ∧ t.med.dimm = some d ∧ t.med.p = 32 * (d.capGiB * d.dpc * 2 ^ 30) ∧
      t.med.popReason = 0 ∧ t.med.front = 0 ∧ t.out = .memActive :: s.out ∧ t = { s with out := t.out, med := t.med, sec := t.sec })) ∧
  (∀ (ds : List (Option Dimm)) (s : State), s.med.popReason ≠ 0 → exec (.memoryTraining ds) s = .next s) ∧
  (∀ (ds : List (Option Dimm)) (ch : Nat) (s : State), s.sec.fw = true → s.sec.trained = false → s.med.popReason = 0 → ch < 32 →
    State.popReasonOf (nth ds 0 none) (nth ds ch none) ≠ 0 → (∀ c, c < ch → State.popReasonOf (nth ds 0 none) (nth ds c none) = 0) →
    Completes (.memoryTraining ds) s (fun t =>
      t.med.p = 0 ∧ t.med.popReason = State.popReasonOf (nth ds 0 none) (nth ds ch none) ∧ t.med.popChannel = ch ∧
      t.sec.trained = false ∧ t.obs.acc.has 3 = true ∧ t.mem = s.mem ∧ t = { s with med := t.med, obs := t.obs })) ∧
  (∀ (n : Nat) (bad : List Nat) (s : State), s.sec.trained = true → s.sec.scrubbed = false → s.med.front % 2 ^ 21 = 0 → s.med.front ≤ s.med.p →
    s.med.p % 2 ^ 21 = 0 →
    Completes (.startUpScrub n bad) s (fun t =>
      let b := min (s.med.front + n * 2 ^ 21) s.med.p
      t.med.front = b ∧ (∀ a, s.med.front ≤ a → a < b → t.byte a = 0 ∧ t.poison.has (a / 64) = false ∧ t.lost.has (a / 64) = false) ∧
      (∀ a, a < s.med.front ∨ b ≤ a → t.byte a = s.byte a) ∧ (t.sec.scrubbed = true ↔ b = s.med.p) ∧
      (∀ rg, rg ∈ bad → s.med.front ≤ rg * 2 ^ 21 → rg * 2 ^ 21 < b → t.med.retired.has rg = true ∨ t.med.rebuilds.has rg = true) ∧
      t.exts = s.exts ∧ t.heads = s.heads ∧ t.regs = s.regs))

/-- Start-up and the ends of a run (R186, R362, R398, R426, R428 to R430, R433, R434, R443, R461, R488). RESET_N released samples the
straps, from which CTL_MASTER takes its reset value, drives the SPI contacts and begins the estimation intervals; the ROM loads from
the flash an image it accepts and burns a fresh boot bit for its signature range, or goes on without one, or stays in the failed
state with ALERT_N asserted, and releases the SPI contacts; trained Mortar links start the firmware; a reset, or the loss of PWROK while
running, loses every byte of the store and every register, and keeps the fuses and the trip record; loss of VDD_AUX takes the
trip record. -/
def Obligations.StartUpAndReset : Prop :=
  ∀ s : State,
    (∀ straps levels, s.sec.running = false → s.power.thermtrip = false →
      let m := if 12 ≤ straps % 16 then 0 else straps % 16
      Completes (.resetDeassert straps levels) s (fun t =>
        t.sec = { s.sec with running := true, resetAt := s.now, strapHead := m, straps := straps % 16, spi := true } ∧
        t.power = { s.power with began := s.now, ends := s.edgeAfter s.now } ∧
        t.ctrlHead = m ∧ t.mem = s.mem ∧ t.heads = s.heads ∧ t.time = s.time)) ∧
    (∀ (flash later : Nat) (ones bad : List Nat), s.sec.running = true → s.sec.loaded = false → s.sec.boot = 0 →
      let cert := flashBytes later 0x1000000 4096
      let meas (image : Nat) : List Nat :=
        [Config.romMeasure, image, Config.fuseMeasure s.sec.floorBits, Config.certMeasure cert s.sec.straps]
      ((State.imagesOf flash later).find? (fun x => slotAccepted s.sec.floorBits x.2) = none →
        exec (.bootImageAccepted flash later ones bad) s = .next { s with
          sec := { s.sec with boot := 2, spi := false, cert := cert, meas := meas 0 }, obs := { s.obs with alert := true } }) ∧
      Completes (.bootImageAccepted flash later ones bad) s (fun t =>
        ∀ n i, (State.imagesOf flash later).find? (fun x => slotAccepted s.sec.floorBits x.2) = some (n, i) →
          t.sec.loaded = true ∧ t.sec.svn = i.svn % 256 ∧ t.sec.slot = n ∧ t.sec.spi = false ∧ t.sec.cert = cert ∧
          t.sec.meas = meas (Config.shake256 (84 + i.bodyLen) (signedBytes i)) ∧ t.sec.floorBits = s.sec.floorBits ∧
          (∀ k, bootBit (s.burned ones) bad = some k →
            t.sec.otp.has k = true ∧ s.sec.otp.has k = false ∧ k ∉ bad ∧ t.sec.xnext = some (k * 2 ^ 24) ∧
            t.sec.xend = (k + 1) * 2 ^ 24 ∧ t.sec.boots = (s.burned ones).size + 1) ∧
          (bootBit (s.burned ones) bad = none → t.sec.otp = s.sec.otp ∧ t.sec.xnext = none ∧ t.sec.boots = (s.burned ones).size) ∧
          t = { s with sec := t.sec })) ∧
    (s.sec.loaded = true → s.sec.mortar = false →
      exec (.mortarTrained none) s = .next { s with sec := { s.sec with mortar := true, fw := true, fwAt := s.now, boot := 1 } }) ∧
    (∀ d e, s.sec.loaded = true → s.sec.mortar = false → s.sec.pkgFault = false →
      Completes (.mortarTrained (some (d, e))) s (fun t => t.sec.pkgFault = true ∧ t.sec.fw = true ∧ t.obs.acc.has 1 = true ∧
        t.trans = Tab.empty ∧ t.waitQ = Tab.empty ∧ t.mem = s.mem)) ∧
    Completes .controllerReset s (fun t => t.mem = [] ∧ t.exts = Tab.empty ∧ t.comps = Tab.empty ∧ t.rings = Tab.empty ∧
      t.cmds = Tab.empty ∧ t.dir = Tab.empty ∧ t.regs = {} ∧ t.sec.running = false ∧ t.sec.floorBits = s.sec.floorBits ∧
      t.sec.otp = s.sec.otp ∧ t.time.counter = 0 ∧ t.time.elapsed = s.time.elapsed ∧ t.power.tripCount = s.power.tripCount ∧
      t.out = s.out ∧ t.pending = s.pending ∧ (∀ h, (t.headAt h).up = false ∧ (t.headAt h).perst = (s.headAt h).perst)) ∧
    (s.sec.running = false → s.power.thermtrip = false → exec .pwrokLoss s = .next s) ∧
    (s.power.thermtrip = true → Completes .pwrokLoss s (fun t => t.power.thermtrip = false ∧ Out.thermtrip false ∈ t.out)) ∧
    (s.sec.running = true → s.power.thermtrip = false →
      Completes .pwrokLoss s (fun t => exec .controllerReset s = .next { t with out := s.out } ∧ t.out = .released :: s.out)) ∧
    (∀ trip, trip = s.power.thermtrip →
      Completes .vddAuxRemoval s (fun t => t.power.tripValid = false ∧ t.power.tripCount = 0 ∧ t.power.thermtrip = false ∧
        t.out = (if trip = true then [Out.thermtrip false] else []) ++ s.out ∧
        t = { s with out := t.out, power := { s.power with tripValid := false, tripDie := 0, tripTemp := 0, tripCount := 0,
                                                             thermtrip := false } }))

/-- A head's PERST_N, its link and Bus Master Enable (R116, R262, R443, R445, R461). A falling PERST_N takes the link down and
the head to its reset record, erases its context keys, returns its HED page except HED_ROUTE to reset values and keeps every byte of
the store; a rising one lets the link train; L0 brings the head up with its width and rate; leaving L0 starts its outage with the
grace in force. -/
def Obligations.HeadsResetAndTrain : Prop :=
  ∀ (h : Nat) (s : State), h < 12 →
    (s.sec.running = true → (s.headAt h).perst = false → s.remotes = Tab.empty → s.flags = Tab.empty →
      Completes (.perstAssert h) s (fun t =>
        (t.headAt h).perst = true ∧ (t.headAt h).up = false ∧ (t.headAt h).bme = false ∧ (t.headAt h).psk = none ∧
        (t.headAt h).cxl = Tab.empty ∧ (t.headAt h).spdm = .idle ∧ (t.headAt h).ideMem = .off ∧ (t.headAt h).ideIo = .off ∧ (t.headAt h).keys = Tab.empty ∧
        (∀ j, j ≠ h → t.heads.get? j = s.heads.get? j) ∧
        (∀ k, k % 16 = h → t.sec.ctxKeys.has k = false) ∧ (∀ k, k % 16 ≠ h → t.sec.ctxKeys.get? k = s.sec.ctxKeys.get? k) ∧
        (∀ v, t.msix.has (2048 * h + v % 2048) = false) ∧
        (∀ o, State.hedReset h o = true → t.regs.committedAt o = regReset o ∧ t.regs.stagedAt o = regReset o) ∧
        (∀ o, State.hedReset h o = false → t.regs.committedAt o = s.regs.committedAt o) ∧ t.mem = s.mem ∧ t.time = s.time)) ∧
    ((s.headAt h).perst = true →
      Completes (.perstDeassert h) s (fun t =>
        t.headAt h = { s.headAt h with perst := false, perstAt := s.now, uathes := .standard } ∧
        (∀ j, j ≠ h → t.heads.get? j = s.heads.get? j) ∧ t = { s with heads := t.heads })) ∧
    (∀ w r, s.sec.fw = true → (s.headAt h).perst = false → (s.headAt h).up = false → 1 ≤ w → w ≤ 5 → 1 ≤ r → r ≤ 4 →
      Completes (.linkUp h w r) s (fun t =>
        t.headAt h = { s.headAt h with up := true, width := w, rate := r, wasDown := false, gone := Tab.empty } ∧
        (∀ j, j ≠ h → t.heads.get? j = s.heads.get? j) ∧ t.mem = s.mem ∧
        (s.remotes = Tab.empty → s.trans = Tab.empty → t = { s with heads := t.heads, obs := t.obs }))) ∧
    ((s.headAt h).up = true → (s.headAt h).wasDown = false →
      Completes (.linkDown h) s (fun t =>
        t.headAt h = { s.headAt h with up := false, width := 0, rate := 0, wasDown := true, gone := Tab.empty, downAt := s.now,
                                       graceMs := s.graceMs } ∧
        (∀ j, j ≠ h → t.heads.get? j = s.heads.get? j) ∧ t.mem = s.mem ∧
        (s.remotes = Tab.empty → t = { s with heads := t.heads }))) ∧
    (s.headUp h = true → max (s.headAt h).perstAt s.sec.fwAt + 100000000 ≤ s.now →
      Completes (.busMasterEnable h true) s (fun t =>
        t.headAt h = { s.headAt h with bme := true } ∧ (∀ j, j ≠ h → t.heads.get? j = s.heads.get? j) ∧
        t = { s with heads := t.heads }) ∧
      (s.remotes = Tab.empty → Completes (.busMasterEnable h false) s (fun t =>
        t.headAt h = { s.headAt h with bme := false } ∧ (∀ j, j ≠ h → t.heads.get? j = s.heads.get? j) ∧
        t = { s with heads := t.heads })))

/-- The Uathes rate of a head (R446 to R449): a partner's round of the vendor's protocol is answered ACCEPT, and the head agrees,
when the policy, the version, the family and the rate allow; otherwise it is answered DECLINE, and a round of another protocol with
the PCIe rejection; GO in Recovery at 64 GT/s, then L0 within 48 ms, brings the head to 128 GT/s; a failure takes it to FAILED and
64 GT/s, from which only RETRY leads back to STANDARD; entries to Recovery and replays within their limits are only counted. -/
def Obligations.UathesNegotiates : Prop :=
  ∀ (h : Nat) (s : State), h < 12 →
    (∀ vendor uver family rates, s.sec.fw = true → (s.headAt h).perst = false →
      let yes := bit (s.cfg offSecPolicy) h && (s.headAt h).uathes != .failed && decide (1 ≤ uver) && family % 256 != 0 && bit rates 0
      (vendor ≠ 0x1E2A → exec (.uathesOffer h vendor uver family rates) s = .next { s with out := .altReject h :: s.out }) ∧
      (vendor = 0x1E2A → yes = true → (s.headAt h).uathes ≠ .standard → (s.headAt h).up = true →
        Completes (.uathesOffer h vendor uver family rates) s (fun t =>
          t.headAt h = { s.headAt h with pfamily := family % 256 } ∧
          t.out = .uathes h 0x114010 :: s.out ∧ t = { s with heads := t.heads, out := t.out })) ∧
      (vendor = 0x1E2A → yes = true → ((s.headAt h).uathes = .standard ∨ (s.headAt h).up = false) →
        Completes (.uathesOffer h vendor uver family rates) s (fun t =>
          t.headAt h = { s.headAt h with pfamily := family % 256, uathes := .agreed, agreedAt := s.now, goAt := none } ∧
          t.out = .uathes h 0x114010 :: s.out ∧ t = { s with heads := t.heads, out := t.out })) ∧
      (vendor = 0x1E2A → yes = false →
        Completes (.uathesOffer h vendor uver family rates) s (fun t =>
          t.headAt h = { s.headAt h with pfamily := family % 256 } ∧
          t.out = .uathes h 0x124010 :: s.out ∧ t = { s with heads := t.heads, out := t.out }))) ∧
    ((s.headAt h).up = true → (s.headAt h).uathes = .agreed → (s.headAt h).rate = 4 → (s.headAt h).goAt = none →
      Completes (.uathesGo h) s (fun t => t.headAt h = { s.headAt h with goAt := some s.now } ∧ t = { s with heads := t.heads })) ∧
    (∀ g, (s.headAt h).up = true → (s.headAt h).uathes = .agreed → (s.headAt h).goAt = some g → s.now ≤ g + 48000000 →
      Completes (.uathesL0 h) s (fun t =>
        t.headAt h = { s.headAt h with uathes := .uathes, rate := 5, goAt := none } ∧ t = { s with heads := t.heads })) ∧
    (∀ cause, s.uathesCause (s.headAt h) cause = true →
      Completes (.uathesFailed h cause) s (fun t =>
        (t.headAt h).uathes = .failed ∧ (t.headAt h).fallbacks = min 255 ((s.headAt h).fallbacks + 1) ∧ (t.headAt h).goAt = none ∧
        ((s.headAt h).up = true → (t.headAt h).rate = 4) ∧ (∀ j, j ≠ h → t.heads.get? j = s.heads.get? j) ∧
        Out.recovery h ∈ t.out ∧ t = { s with heads := t.heads, out := t.out, obs := t.obs })) ∧
    (∀ n, (s.headAt h).up = true → (n ≤ 4 ∨ (s.headAt h).uathes ≠ .uathes) →
      exec (.uathesFailed h (.recoveries n)) s = .next (s.bump (cHeadErr + 4 * h + 2) n)) ∧
    (∀ crc n flits, (s.headAt h).up = true → (1000000 * n ≤ flits ∨ (s.headAt h).uathes ≠ .uathes) →
      exec (.uathesFailed h (.replays crc n flits)) s =
        .next ((s.bump (cHeadErr + 4 * h) crc).bump (cHeadErr + 4 * h + 1) n)) ∧
    (∀ q (v : BitVec 32), s.headUp q = true → bit v.toNat 0 = true → (s.headAt h).uathes = .failed →
      Completes (.hedUathesCtl q h v) s (fun t =>
        t.headAt h = { s.headAt h with uathes := .standard } ∧ t.out = .recovery h :: s.out ∧
        t = { s with heads := t.heads, out := t.out, obs := t.obs,
                     regs := { s.regs with setupSrc := s.regs.setupSrc ||| 2 ^ q } }))

/-- Power, regulators and throttle levels (R362, R371, R381, R382, R384, R387 to R390, R392, R397; the coding of the counted activities is
the model's, log entry 40). At the end of an interval, which the counter sets, every rail and package average takes in the
interval, each Course die's rail demand is the level its averages so far allow, its level the highest that its demand and its present
voltage carry, and its voltage follows the highest level of 512 intervals; a regulator reading each ms enters the 64 ms comparison; a rail that
has reached a demanded voltage lets its die rise; a droop is counted once and stretches until HOLD cycles have passed; a low
VR_ALERT_N input enters the floor state, which ends 1 ms after the last. No byte of the store changes. -/
def Obligations.PowerLevelsFollow : Prop :=
  ∀ s : State, s.sec.running = true →
    (∀ acts, s.power.ends ≤ s.now →
      Completes (.powerInterval acts) s (fun t =>
        t.power.interval = s.power.interval + 1 ∧ t.power.began = s.power.ends ∧ t.power.ends = s.edgeAfter s.power.ends ∧
        t.power.runs = Tab.empty ∧
        (∀ rail w, rail < 24 → w < 3 → t.power.avg.getD (4 * rail + w) 0 =
          avgNext (s.power.avg.getD (4 * rail + w) 0) (s.railCurrent acts rail) (windowN w)) ∧
        t.power.pkgAvg = avgNext s.power.pkgAvg (s.intervalWatts acts) 512 ∧
        (∀ c, c < 16 → (t.courseAt c).railN = (s.railLevel c 5 16).1 ∧
          (t.courseAt c).n = State.levelFor c (t.courseDemand c) (s.courseAt c).volt ∧
          (t.courseAt c).history = (max (s.courseAt c).peak (s.courseAt c).n :: (s.courseAt c).history).take 512 ∧
          (t.courseAt c).volt = min (s.courseAt c).volt ((t.courseAt c).history.foldl max 5)) ∧
        t.mem = s.mem ∧ t.regs = s.regs ∧ t.time = s.time ∧ t.exts = s.exts ∧ t.heads = s.heads)) ∧
    (∀ acts, s.now < s.power.ends → exec (.powerInterval acts) s = .next s) ∧
    (∀ readings, s.power.pmbAt + 1000000 ≤ s.now →
      let h := ((sumOf readings, s.power.estMs) :: s.power.pmb).take 64
      let m := sumOf (h.map (·.1))
      let e := sumOf (h.map (·.2))
      Completes (.pmbusRead readings) s (fun t =>
        t.power = { s.power with pmb := h, estMs := 0, pmbAt := s.now } ∧ t = { s with power := t.power, obs := t.obs } ∧
        (h.length = 64 ∧ 8 * e < 100 * ((m - e) + (e - m)) → t.obs.acc.has 18 = true) ∧
        (h.length < 64 ∨ 100 * ((m - e) + (e - m)) ≤ 8 * e → t.obs = s.obs))) ∧
    (∀ c l, c < 16 → (s.courseAt c).volt < l → l ≤ s.courseDemand c →
      Completes (.railVoltageReached c l) s (fun t =>
        (t.courseAt c).volt = l ∧ (t.courseAt c).n = State.levelFor c (s.courseDemand c) l ∧
        (∀ d, d < 16 → d ≠ c → (t.courseAt d).volt = (s.courseAt d).volt ∧
          (t.courseAt d).n = State.levelFor d (s.courseDemand d) (s.courseAt d).volt) ∧
        t = { s with courses := t.courses, power := t.power })) ∧
    (∀ c, c < 16 →
      ((s.courseAt c).droop = false →
        Completes (.droop c) s (fun t =>
          t.obs.counters.getD (cDroopEv + c) 0 = s.obs.counters.getD (cDroopEv + c) 0 + 1 ∧
          t = { s with courses := s.courses.set c { s.courseAt c with droop := true },
                       obs := { s.obs with counters := t.obs.counters } })) ∧
      (∀ cycles, (s.courseAt c).droop = true → s.cfgF offPwrDroop 25 16 ≤ cycles →
        Completes (.droopHoldEnd c cycles) s (fun t =>
          t.obs.counters.getD (cDroopCyc + c) 0 = s.obs.counters.getD (cDroopCyc + c) 0 + cycles ∧
          t = { s with courses := s.courses.set c { s.courseAt c with droop := false },
                       obs := { s.obs with counters := t.obs.counters } }))) ∧
    (∀ low, 0 < low → low < 256 →
      Completes (.vrAlert low) s (fun t =>
        t.power.floor = true ∧ t.power.alert = low ∧ t.power.r ≤ 1 ∧ t.power.rFt ≤ 1 ∧
        (∀ c, c < 16 → bit low (if c < 8 then 0 else 1) = true → (t.courseAt c).n ≤ 5) ∧
        (∃ x, t.obs.acc.get? 24 = some x ∧ x.a.detail = low ∧ x.setsActive = some true) ∧
        t = { s with courses := t.courses, power := t.power, obs := t.obs })) ∧
    (s.power.floor = true → s.power.alert = 0 → s.power.alertClear + 1000000 ≤ s.now →
      Completes .floorExit s (fun t =>
        t.power.floor = false ∧ (∃ x, t.obs.acc.get? 24 = some x ∧ x.setsActive = some false) ∧
        (∀ c, c < 16 → (t.courseAt c).n = State.levelFor c
          (min (min (s.courseAt c).railN (s.courseAt c).pkgN) (min (s.courseAt c).thermN 16)) (s.courseAt c).volt) ∧
        t = { s with courses := t.courses, power := t.power, obs := t.obs }))

/-- Heat, trips and failed Mortar links (R20, R121, R395, R396, R398, R403). A collection enters the sensor table and moves each Course
die's thermal demand by one level at most; a trip at 110 °C halts the die and ends every command with a tile on it, with THERMAL
unless an earlier failure decides; a reading of 110 °C on a halted die starts its time below 100 °C anew; the die resumes after 1 ms of
it; 125 °C asserts THERMTRIP_N and loses all state but the
trip record; a failed Course link withdraws the die, ends its commands with FAULT and leaves no directory pointer to its
buffer and no waiting request of it; any other is a package fault. -/
def Obligations.DiesHaltAndTrip : Prop :=
  ∀ s : State, s.sec.running = true →
    (∀ rs : List Int, rs.length = 184 → s.power.thermAt + 100000 ≤ s.now →
      Completes (.thermalCollect rs) s (fun t =>
        (∀ i, i < 184 → t.obs.sensor.get? i =
          some (ofInt 16 (nth rs i 0), max (s.obs.sensor.getD i (0, 0)).2 (min 255 (nth rs i 0 / 16).toNat))) ∧
        t.obs.sensorStamp = s.stamp ∧ t.power.thermAt = s.now ∧
        (∀ c, c < 16 →
          let own := (rs.drop (40 + 8 * c)).take 8
          let lim : Int := 16 * (s.cfgF offPwrTherm 7 0 : Nat)
          (t.courseAt c).thermN = State.thermStep (own.any (fun r => decide (lim ≤ r))) (own.all (fun r => decide (r < lim - 48))) 5 16
            (s.courseAt c).thermN) ∧
        t = { s with courses := t.courses, power := t.power, obs := t.obs })) ∧
    (∀ c temp, c < 16 → 110 ≤ temp → (s.courseAt c).halted = false →
      Completes (.engineTrip c temp) s (fun t =>
        t.courses = s.courses.set c { s.courseAt c with halted := true, haltCool := none } ∧
        (∀ cid x, s.cmds.get? cid = some x → cid ∈ s.cmdsOn c →
          ∃ y, t.cmds.get? cid = some y ∧ y.phase = .ended ∧ y.status = (State.failWith s.stamp 9 x).status) ∧
        (∀ cid, cid ∉ s.cmdsOn c → t.cmds.get? cid = s.cmds.get? cid) ∧
        (∃ x, t.obs.acc.get? (256 * (16 + c) + 23) = some x ∧ x.a.detail = 16 + c ∧ x.setsActive = some true) ∧
        t = { s with courses := t.courses, cmds := t.cmds, comps := t.comps, obs := t.obs, power := { s.power with runs := t.power.runs }
                     eng := { s.eng with spads := t.eng.spads, partials := t.eng.partials } })) ∧
    (∀ c temp, c < 16 → 110 ≤ temp → (s.courseAt c).halted = true →
      exec (.engineTrip c temp) s = .next { s with courses := s.courses.set c { s.courseAt c with haltCool := none } }) ∧
    (∀ c t0, (s.courseAt c).halted = true → (s.courseAt c).haltCool = some t0 → t0 + 1000000 ≤ s.now →
      Completes (.engineResume c) s (fun t =>
        t = { s with courses := s.courses.set c { s.courseAt c with halted := false, haltCool := none }, obs := t.obs })) ∧
    (∀ die temp, die < 40 → 125 ≤ temp →
      Completes (.thermtrip die temp) s (fun t =>
        t.power.thermtrip = true ∧ t.power.tripValid = true ∧ t.power.tripDie = die ∧ t.power.tripTemp = min 255 temp ∧
        t.power.tripCount = min 255 (s.power.tripCount + 1) ∧ t.out = .released :: .thermtrip true :: s.out ∧
        t.mem = [] ∧ t.exts = Tab.empty ∧ t.cmds = Tab.empty ∧ t.regs = {} ∧ t.sec.running = false ∧
        t.sec.floorBits = s.sec.floorBits ∧ t.sec.otp = s.sec.otp ∧ t.pending = s.pending)) ∧
    (∀ c k, c < 16 → k < 4 → s.sec.mortar = true → (s.courseAt c).withdrawn = false → s.trans = Tab.empty →
      s.cfg offCohLostCfg = 0 →
      Completes (.mortarLinkFailed (16 + c) k) s (fun t =>
        t.courses = s.courses.set c { s.courseAt c with withdrawn := true } ∧ t.bufs.get? c = none ∧
        (∀ cid x, s.cmds.get? cid = some x → cid ∈ s.cmdsOn c ∨ cid ∈ s.checksOn c →
          ∃ y, t.cmds.get? cid = some y ∧ y.phase = .ended ∧ y.status = (State.failWith s.stamp 11 x).status) ∧
        (∀ cid, cid ∉ s.cmdsOn c → cid ∉ s.checksOn c → t.cmds.get? cid = s.cmds.get? cid) ∧
        (∀ ln e, s.dir.get? ln = some e → 4080 + c ∈ e.ptrs → e.st = .m → t.dir.get? ln = none ∧ t.lost.has ln = true) ∧
        (∀ ln e, s.dir.get? ln = some e → 4080 + c ∉ e.ptrs → t.dir.get? ln = some e) ∧
        (∀ k l r, t.waitQ.get? k = some l → r ∈ l → r.course = true → r.src ≠ 4080 + c) ∧
        t.mem = s.mem ∧ t.regs = s.regs ∧ t.heads = s.heads)) ∧
    (∀ a b, 32 ≤ a → a < 40 → b < 40 → s.sec.mortar = true → s.sec.pkgFault = false →
      Completes (.mortarLinkFailed a b) s (fun t =>
        t.sec = { s.sec with pkgFault := true } ∧ t.trans = Tab.empty ∧ t.waitQ = Tab.empty ∧
        (∃ x, t.obs.acc.get? 1 = some x ∧ x.a.detail = a ∧ x.setsActive = some true) ∧
        t.mem = s.mem ∧ t.exts = s.exts ∧ t.regs = s.regs ∧ t.heads = s.heads ∧ t.courses = s.courses))

/-- How the fabric-time counter is set (R363 to R366, R368 to R371), and with it the end of the running estimation interval (R381). Two pulses a bond period apart lock it to the nearest
boundary, with a step where it had been locked before; a locked counter takes the boundary of a pulse within 4 ns, and, with
SYNC_JUMP and a step, of one within 1,000 ns or of a second pulse a bond period after one further off, which by itself is
counted and ignored; a TIME_SET takes its value at once, or with AT_SYNC at the next accepted pulse, and answers the step; a PTM
exchange while locked loads its boundary at that pulse; a missed boundary is counted, four are SYNC_MISSING; Plumb without edges
ends the lock and sets UNSYNC; an unlocked PTM exchange beyond 1 µs steps the counter. -/
def Obligations.TimeFollowsPulses : Prop :=
  ∀ s : State,
    let now := s.time.counter
    let b := nearestBoundary now
    let second := match s.time.pulse with | some p => periodAfter p s.now | none => false
    let moved (t : State) (v k : Nat) : Prop := t.time.counter = v % 2 ^ 63 ∧ t.time.expected = v / 2 ^ 26 * 2 ^ 26 ∧
      t.time.steps = (if k = 0 then s.time.steps else (s.time.steps + k) % 2 ^ 32) ∧ t.time.elapsed = s.time.elapsed ∧
      t.power.ends = (if s.power.ends ≤ s.now then s.power.ends else t.edgeAfter s.now)
    let ends (t : State) : PowerSt := { s.power with ends := t.power.ends }
    let taken (t : State) (k : Nat) : Prop := moved t b k ∧ t.time.resid = residField (residNs now b) ∧ t.time.missed = 0 ∧
      t.time.pulse = none ∧ t.time.lock = true ∧ t.time.unsync = s.time.unsync ∧ t = { s with time := t.time, obs := t.obs, power := ends t }
    (s.sec.running = true → s.plumbIn = true →
      (s.time.lock = false → second = false →
        exec .plumbSync s = .next { s with time := { s.time with pulse := some s.now } }) ∧
      (s.time.lock = false → second = true → s.time.hadLock = false →
        Completes .plumbSync s (fun t => moved t b 0 ∧ t.time.lock = true ∧ t.time.pulse = none ∧ t.time.missed = 0 ∧
          t = { s with time := t.time, power := ends t })) ∧
      (s.time.lock = false → second = true → s.time.hadLock = true →
        Completes .plumbSync s (fun t => moved t b 1 ∧ t.time.lock = true ∧ t.time.pulse = none ∧ t.time.missed = 0 ∧
          t.obs.acc.has 16 = true ∧ t = { s with time := t.time, obs := t.obs, power := ends t })) ∧
      (s.time.lock = true → s.waitingSet = none → (s.time.ptmLoad = none ∨ s.cfgF offTimCfg 1 0 ≠ 1) →
        (apart now b ≤ 16 → Completes .plumbSync s (fun t => taken t 0 ∧ t.time.pulses = s.time.pulses + 1)) ∧
        (16 < apart now b → apart now b ≤ 4000 ∨ second = true →
          Completes .plumbSync s (fun t => taken t 1 ∧ t.obs.acc.has 14 = true))) ∧
      (s.time.lock = true → 4000 < apart now b → second = false →
        exec .plumbSync s = .next { s with time := { s.time with pulse := some s.now, spurious := s.time.spurious + 1 } }) ∧
      (∀ v at_, s.time.lock = true → apart now b ≤ 4000 ∨ second = true → s.waitingSet = none → s.time.ptmLoad = some (v, at_) →
        s.cfgF offTimCfg 1 0 = 1 →
        let w := nearestBoundary (v + 4 * (s.now - at_))
        Completes .plumbSync s (fun t => moved t w (if bondOf w ≠ bondOf b ∨ 16 < apart now b then 1 else 0) ∧ t.time.lock = true ∧
          t.time.unsync = false ∧ t.time.ptmLoad = none ∧ t = { s with time := t.time, obs := t.obs, power := ends t })) ∧
      (∀ cid v c, s.time.lock = true → apart now b ≤ 4000 ∨ second = true → s.waitingSet = some (cid, v) → s.cmds.get? cid = some c →
        c.begun = Tab.empty → c.busy = Tab.empty →
        Completes .plumbSync s (fun t => moved t v 1 ∧ t.time.atSync = none ∧ t.time.unsync = false ∧
          (∃ c', t.cmds.get? cid = some c' ∧ c'.phase = .ended ∧ c'.status = c.status ∧
            c'.r0 = fld (State.stepWord v now) 31 0 ∧ c'.r1 = fld (State.stepWord v now) 63 32) ∧
          (∀ k, k ≠ cid → t.cmds.get? k = s.cmds.get? k) ∧ 
            t = { s with time := t.time, cmds := t.cmds, obs := t.obs, power := ends t, eng := s.withoutPartials cid }))) ∧
    (∀ cid src media c, s.cmds.get? cid = some c → c.phase = .running → c.pos = 0 → c.total = 1 → c.late = [] → c.stopping = false →
      c.begun = Tab.empty → c.busy = Tab.empty → hdrOpcode c.desc = 0x50 → isKeystone src = true → src = 1244 + (s.ringAt c.ring).owner →
      let go := Instr.timeSet cid { src := src, items := 1, media := media }
      let v := fld c.desc 319 256
      (s.earlierTimeSet cid = true → exec go s = .next s) ∧
      (s.earlierTimeSet cid = false → fld c.desc 327 320 = 1 →
        exec go s = .next { s with time := { s.time with atSync := some cid } }) ∧
      (s.earlierTimeSet cid = false → fld c.desc 327 320 = 0 →
        Completes go s (fun t => moved t v 1 ∧ t.time.unsync = (s.time.unsync && !s.time.lock) ∧
          (∃ c', t.cmds.get? cid = some c' ∧ c'.phase = .ended ∧ c'.status = c.status ∧
            c'.r0 = c.r0 + fld (State.stepWord v now) 31 0 ∧ c'.r1 = c.r1 + fld (State.stepWord v now) 63 32) ∧
          (∀ k, k ≠ cid → t.cmds.get? k = s.cmds.get? k) ∧ 
            t = { s with time := t.time, cmds := t.cmds, obs := t.obs, power := ends t, eng := s.withoutPartials cid }))) ∧
    (s.time.lock = true → s.time.expected + 2 ^ 26 + 4000 < now →
      Completes .syncMissing s (fun t =>
        t.time = { s.time with missed := min 255 (s.time.missed + 1), expected := s.time.expected + 2 ^ 26 } ∧
        (s.time.missed = 3 → t.obs.acc.has 15 = true) ∧ t = { s with time := t.time, obs := t.obs })) ∧
    (s.time.plumbClk = true →
      Completes .plumbLost s (fun t =>
        t.time = { s.time with plumbClk := false, lock := false, pulse := none, unsync := true } ∧
        (s.time.lock = true → t.obs.acc.has 16 = true) ∧ t = { s with time := t.time, obs := t.obs })) ∧
    (s.time.plumbClk = false →
      exec .plumbClkPresent s = .next { s with time := { s.time with plumbClk := true, pulse := none } }) ∧
    (s.cfgF offTimCfg 1 0 = 1 → s.time.ptmAt + s.cfgF offTimCfg 39 32 * 1000000 ≤ s.now →
      exec (.ptmExchange none) s = .next { s with time := { s.time with ptmAt := s.now, ptmOk := false } } ∧
      (∀ ns : Nat, s.headUp s.ctrlHead = true →
        let v := ofInt 63 (4 * (ns : Int) + sext 64 (s.cfg offTimOffset))
        (s.time.lock = true → exec (.ptmExchange (some ns)) s =
          .next { s with time := { s.time with ptmAt := s.now, ptmOk := true, ptmLoad := some (v, s.now) } }) ∧
        (s.time.lock = false → 4000 < apart v now →
          Completes (.ptmExchange (some ns)) s (fun t => moved t v 1 ∧ t.time.ptmOk = true ∧
            t = { s with time := t.time, obs := t.obs, power := ends t })))) ∧
    (∀ h, s.headUp h = true → exec (.ptmRequest h) s = .next { s with out := .ptmTime h (nsOf now) :: s.out })

/-- The schedule of time (R374, R376, R403). A slot boundary takes the counter's slot into force; a quiet window opens when its time
has come and closes when none is open; a lane sample that the schedule allows is entered for the head's next lane with its stamp, or
counted as abandoned; telemetry runs when the schedule allows it. Nothing else changes. -/
def Obligations.ScheduledActivitiesRun : Prop :=
  ∀ s : State,
    exec .slotBoundary s = .next { s with time := { s.time with slot := slotOf s.time.counter } } ∧
    (s.quietNow = true → exec .quietWindowOpen s = .next { s with time := { s.time with quiet := true } } ∧
      exec .quietWindowClose s = .next s) ∧
    (s.quietNow = false → exec .quietWindowClose s = .next { s with time := { s.time with quiet := false } } ∧
      exec .quietWindowOpen s = .next s) ∧
    (∀ x : LaneReading, x.head < 12 → s.permitted actLane x.head = true → s.headUp x.head = true →
      let n := State.slotIndex s.time.counter
      let lane := s.time.laneNext.getD x.head 0
      s.time.laneSlot.get? x.head ≠ some n →
      (x.done = true →
        Completes (.laneSample [x]) s (fun t =>
          t.obs.lane.get? (16 * x.head + lane) = some (put s.stamp40 63 24 + put x.width 23 16 + put x.height 15 8 + 1) ∧
          (∀ k, k ≠ 16 * x.head + lane → t.obs.lane.get? k = s.obs.lane.get? k) ∧
          t.time.laneNext.get? x.head = some ((lane + 1) % 16) ∧ t.time.laneSlot.get? x.head = some n ∧
          (∀ h, h ≠ x.head → t.time.laneNext.get? h = s.time.laneNext.get? h) ∧
          t = { s with time := { s.time with laneNext := t.time.laneNext, laneSlot := t.time.laneSlot },
                       obs := { s.obs with lane := t.obs.lane } })) ∧
      (x.done = false →
        exec (.laneSample [x]) s = .next { s with
          time := { s.time with laneAbandoned := s.time.laneAbandoned + 1, laneSlot := s.time.laneSlot.set x.head n } })) ∧
    (∀ x : LaneReading, s.permitted actLane x.head = false → exec (.laneSample [x]) s = .next s) ∧
    (s.permitted actTelemetry 0 = true →
      exec .telemetry s = .next { s with time := { s.time with telemetry := s.time.telemetry + 1 } }) ∧
    (s.permitted actTelemetry 0 = false → exec .telemetry s = .next s)

/-- Marks (R405, R407 to R413). What a source holds first, its LOSS mark before any other, enters the buffer of its Keystone against
a credit; without one nothing moves, and a mark whose buffer is frozen is dropped into the loss accumulator, but a PIN_SAMPLE mark
waits. The MARK port sends an ALIGN row, the next waiting mark, or IDLE, on four scrambled lanes. REARM unfreezes every buffer. A
contact sample produces its 81 marks in order, with the levels the controller drives where it drives a contact. -/
def Obligations.MarksReachTheirBuffersAndThePort : Prop :=
  ∀ s : State, s.obs.trace.length = 4 →
    (∀ (src : Nat),
      let q := s.obs.srcs.getD src {}
      let entered (t : State) (k : Nat) (m : Mark) (q' : MarkSrc) : Prop := t.obs.srcs.get? src = some q' ∧ (∀ j, j ≠ src → t.obs.srcs.get? j = s.obs.srcs.get? j) ∧
        (t.traceAt k).marks.get? (s.traceAt k).next = some m ∧ (t.traceAt k).next = ((s.traceAt k).next + 1) % traceSize ∧
        (∀ j, j ≠ (s.traceAt k).next → (t.traceAt k).marks.get? j = (s.traceAt k).marks.get? j) ∧
        (∀ j, j ≠ k → t.traceAt j = s.traceAt j) ∧
        t.obs.counters.getD cMarksOut 0 = s.obs.counters.getD cMarksOut 0 + 1 ∧
        t = { s with comps := t.comps,
                     obs := { s.obs with srcs := t.obs.srcs, trace := t.obs.trace, counters := t.obs.counters } }
      (∀ m rest, q.loss = none → q.queue = m :: rest →
        let k := State.markKeystone m
        (s.traceTakes k = true → Completes (.markAccept src) s (fun t => entered t k m { q with queue := rest })) ∧
        (s.traceTakes k = false → (s.traceAt k).frozen = false ∨ m.kind = 0x20 → exec (.markAccept src) s = .next s) ∧
        (s.traceTakes k = false → (s.traceAt k).frozen = true → m.kind ≠ 0x20 →
          Completes (.markAccept src) s (fun t =>
            t.obs.srcs.get? src = some { q with queue := rest, loss := some { cause := 4, count := 1, first := s.stamp, last := s.stamp } } ∧
            t.obs.trace = s.obs.trace ∧
            t = { s with comps := t.comps, obs := { s.obs with srcs := t.obs.srcs, counters := t.obs.counters } }))) ∧
      (∀ l, q.loss = some l →
        let m := s.lossMark src q l
        (s.traceTakes (State.markKeystone m) = true →
          Completes (.markAccept src) s (fun t => entered t (State.markKeystone m) m { q with loss := none, mseq := (q.mseq + 1) % 65536 })) ∧
        (s.traceTakes (State.markKeystone m) = false → exec (.markAccept src) s = .next s)) ∧
      (q.loss = none → q.queue = [] → exec (.markAccept src) s = .next s)) ∧
    (let p := s.obs.port
     let sent (lanes : List Nat) : List Nat := (List.range 4).map (fun l => (State.scramble (nth p.scr l 0) (nth lanes l 0)).2)
     let idle := List.replicate 4 0x1E
     let frame (t : State) : Prop := t.obs.port.row = p.row + 1 ∧
       t = { s with out := t.out, obs := { s.obs with port := t.obs.port, trace := t.obs.trace } }
     s.sec.running = true → bit (s.cfg offTraceCfg) 1 = true →
      (p.row % 256 = 0 → Completes .markPortRow s (fun t =>
        t.out = .row 2 (sent ((List.range 4).map (fun l =>
          put (if p.row = 0 then 0 else crcEnd 0 (nth p.crc l 0)) 63 32 + put (p.row / 256) 31 16 +
            put (b2n (p.row != 0)) 15 15 + put l 9 8 + 0x4B))) :: s.out ∧
        t.obs.port.crc = List.replicate 4 (crcStart 0 0 0) ∧ t.obs.trace = s.obs.trace ∧ frame t)) ∧
      (p.row % 256 ≠ 0 → s.nextStream = none → Completes .markPortRow s (fun t =>
        t.out = .row 2 (sent idle) :: s.out ∧ t.obs.port.crc = s.runCrc idle ∧ t.obs.trace = s.obs.trace ∧ frame t)) ∧
      (∀ k i rest, p.row % 256 ≠ 0 → s.nextStream = some k → (s.traceAt k).stream = i :: rest →
        let b := (((s.traceAt k).marks.get? i).map markBits).getD 0
        let lanes := (List.range 4).map (fun l => fld b (64 * l + 63) (64 * l))
        Completes .markPortRow s (fun t =>
          t.out = .row 1 (sent lanes) :: s.out ∧ t.obs.port.crc = s.runCrc lanes ∧ t.obs.port.turn = (k + 1) % 4 ∧
          t.traceAt k = { s.traceAt k with stream := rest } ∧ (∀ j, j ≠ k → t.traceAt j = s.traceAt j) ∧ frame t))) ∧
    (∀ h (v : BitVec 32), s.headUp h = true → bit v.toNat 0 = true →
      let regs := { s.regs with setupSrc := s.regs.setupSrc ||| 2 ^ h }
      exec (.obsTraceRearm h v) s = .next { s with regs := regs, obs := { s.obs with trace := s.obs.trace.map (fun (x : Trace) =>
          { x with frozen := false, post := none, next := 0 }) } } ∧
      (∀ levels, Completes (.pinSample h v levels) s (fun t =>
        let q := s.obs.srcs.getD 1244 {}
        let q' := t.obs.srcs.getD 1244 {}
        q'.queue.length = q.queue.length + 81 ∧ q'.mseq = (q.mseq + 81) % 65536 ∧ q'.loss = q.loss ∧
        (∀ i x, i < 81 → State.sampleParts[i]? = some x →
          ∃ m, q'.queue[q.queue.length + i]? = some m ∧ m.kind = 0x20 ∧ m.src = 1244 ∧ m.sys = true ∧ m.time = s.stamp ∧
            m.payload = put x.1 143 136 + put x.2.1 135 128 + put x.2.2 127 120 +
              (s.drivenLevels x (nth levels i 0) % 2 ^ State.partSignals x) <<< 16) ∧
        t = { s with regs := regs, obs := { s.obs with srcs := t.obs.srcs } })))

/-- What the controller reports (R183, R184, R404, R415 to R421). A die's log entry reaches the log ring with the next sequence
number, or waits in the backlog, for which it needs a slot there; an alarm occurrence merges into its entry of the table, whose first and last
occurrence are those by their stamps, and is written to the alarm ring when
it becomes pending; an acknowledgement clears PENDING of its kinds and changes nothing else of the table; a ring that is zeroed
reads as zeros with its pointers at 0; the board management controller reads exactly what the control head would. -/
def Obligations.ReportsAreKept : Prop :=
  ∀ s : State,
    let slot (w wr : Nat) : Nat := ringBase w + 32 * (wr % ringSize w)
    let lands (a : Nat) : Prop := s.plainLine (a / 64) = true
    let zeroable (w : Nat) : Prop := 2 ≤ ringSize w ∧ ∀ j, j < ringSize w / 2 → s.plainLine (ringBase w / 64 + j) = true
    let zeroed (t : State) (w : Nat) : Prop := (∀ x, ringBase w ≤ x → x < ringBase w + 32 * ringSize w → t.byte x = 0) ∧
      SameMemoryOutside s t (ringBase w) (32 * ringSize w) ∧ t.regs = s.regs ∧ t.heads = s.heads
    (∀ die e rest, (s.obs.logQ.getD die {}).entries = e :: rest → (s.obs.logQ.getD die {}).gap = none →
      let w := s.cfg offLogCfg
      let r := s.obs.log
      (ringOn w = false → 1024 ≤ s.obs.backlog.entries.length → exec (.logEntry die) s = .next s) ∧
      (ringOn w = false → s.obs.backlog.entries.length < 1024 →
        Completes (.logEntry die) s (fun t => t.obs.logQ.get? die = some { entries := rest, gap := none } ∧
          t.obs.backlog = (s.obs.backlog.push 1024 e).1 ∧ t = { s with obs := t.obs })) ∧
      (Memory.wf s.mem = true → s.obs.backlog = {} → ringOn w = true → r.zeroing = false → sub32 r.wr r.rd < ringSize w →
        lands (slot w r.wr) →
        Completes (.logEntry die) s (fun t => t.obs.logQ.get? die = some { entries := rest, gap := none } ∧
          t.obs.backlog = {} ∧ t.obs.log.wr = (r.wr + 1) % 2 ^ 32 ∧ t.obs.logSeq = (s.obs.logSeq + 1) % 2 ^ 32 ∧
          (∀ k, k < 32 → t.byte (slot w r.wr + k) = byteAt (State.logBytes e s.obs.logSeq r.wr (ringSize w)) k) ∧
          SameMemoryOutside s t (slot w r.wr) 32 ∧ t.regs = s.regs ∧ t.heads = s.heads ∧ t.time = s.time))) ∧
    (∀ die kind x, kind < 256 → s.obs.acc.get? (256 * die + kind) = some x → 0 < x.a.count →
      let w := s.cfg offAlmCfg
      let r := s.obs.alarm
      let old := s.obs.alarms.getD kind {}
      let later : Bool := !old.pend || decide (old.last % 2 ^ 63 ≤ x.a.last % 2 ^ 63)
      let new : Alarm := { last := if later then x.a.last else old.last, detail := if later then x.a.detail else old.detail,
                           first := if old.pend && decide (old.first % 2 ^ 63 ≤ x.a.first % 2 ^ 63) then old.first else x.a.first,
                           count := min ((if old.pend then old.count else 0) + x.a.count) 0xFFFF_FFFF,
                           active := x.setsActive.getD old.active, pend := true }
      let merged (t : State) : Prop := t.obs.acc.get? (256 * die + kind) = none ∧ t.obs.alarms.get? kind = some new ∧
        (∀ k, k ≠ kind → t.obs.alarms.get? k = s.obs.alarms.get? k) ∧ (s.alertMasked kind = true → t.obs.alert = true)
      (ringOn w = false → Completes (.alarmOccurrence die kind) s (fun t => merged t ∧
        (old.pend = false → t.obs.alarmDue.has kind = true) ∧ t = { s with obs := t.obs })) ∧
      (Memory.wf s.mem = true → old.pend = false → s.obs.alarmDue = Tab.empty → ringOn w = true → r.zeroing = false →
        sub32 r.wr r.rd < ringSize w → lands (slot w r.wr) →
        Completes (.alarmOccurrence die kind) s (fun t => merged t ∧ t.obs.alarmDue.has kind = false ∧
          t.obs.alarm.wr = (r.wr + 1) % 2 ^ 32 ∧
          (∀ k, k < 32 → t.byte (slot w r.wr + k) = byteAt (State.alarmBytes new kind (phaseOf r.wr (ringSize w))) k) ∧
          SameMemoryOutside s t (slot w r.wr) 32 ∧ t.regs = s.regs ∧ t.heads = s.heads ∧ t.time = s.time))) ∧
    (∀ h word (v : Word), s.headUp h = true →
      Completes (.obsAlarmAck h word v) s (fun t =>
        (∀ k, t.obs.alarms.get? k = (s.obs.alarms.get? k).map (fun a =>
          if k / 64 = word && bit v.toNat (k % 64) then { a with pend := false } else a)) ∧
        t = { s with regs := { s.regs with setupSrc := s.regs.setupSrc ||| 2 ^ h },
                     obs := { s.obs with alarms := t.obs.alarms, alert := t.obs.alert } })) ∧
    (s.events.zeroing = true → s.events.backlog = [] → zeroable (s.cfg offRngEvtCfg) →
      Completes .eventRingZeroed s (fun t => zeroed t (s.cfg offRngEvtCfg) ∧
        t.events = { s.events with wr := 0, rd := 0, zeroing := false })) ∧
    (s.obs.log.zeroing = true → s.obs.backlog = {} → zeroable (s.cfg offLogCfg) →
      Completes (.logRingZeroed false) s (fun t => zeroed t (s.cfg offLogCfg) ∧ t.obs.log = {})) ∧
    (s.obs.alarm.zeroing = true → s.obs.alarmDue = Tab.empty → zeroable (s.cfg offAlmCfg) →
      Completes (.logRingZeroed true) s (fun t => zeroed t (s.cfg offAlmCfg) ∧ t.obs.alarm = {})) ∧
    (∀ tag off len, s.sec.running = true →
      (off % 8 = 0 → 0x10000 ≤ off → 8 ≤ len → len ≤ 64 → off + len ≤ 0x40000 →
        exec (.mctpObservationRead tag off len) s =
          .next { s with out := .mctp tag true ((List.range len).map (fun i => s.bar2Byte (off + i))) :: s.out }) ∧
      (off % 8 ≠ 0 ∨ off < 0x10000 ∨ len < 8 ∨ 64 < len ∨ 0x40000 < off + len →
        exec (.mctpObservationRead tag off len) s = .next { s with out := .mctp tag false [] :: s.out }))

/-- Sessions, IDE streams and context keys of a head (R437 to R440; the message codes are those of SPDM 1.2, log entry 47, and
the readings of log entry 48 hold). The connection passes version, capabilities and algorithms in order; PSK_EXCHANGE consumes
the PSK bound to the hint; only the right PSK_FINISH opens the session; keys are programmed and taken into force in a session
only; an integrity failure of a Secure stream makes it Insecure until a new session; a context key is held per head and context.
A message out of its order is answered with an ERROR and changes nothing. -/
def Obligations.SessionsFollowTheirOrder : Prop :=
  ∀ (h : Nat) (s : State), s.configUp h = true →
    let d := s.headAt h
    let becomes (c : Instr) (d' : Head) (o : Out) : Prop := exec c s = .next { s with heads := s.heads.set h d', out := o :: s.out }
    let errs (c : Instr) (code data : Nat) : Prop := exec c s = .next { s with out := .spdm h 0x7F [code, data] :: s.out }
    becomes (.getVersion h) { d with spdm := .version, secret := 0, keyReady := Tab.empty } (.spdm h 0x04 [0x12]) ∧
    (∀ f, d.spdm = .version → becomes (.getCapabilities h f) { d with spdm := .caps } (.spdm h 0x61 [Config.spdmCapabilities])) ∧
    (∀ f, d.spdm ≠ .version → errs (.getCapabilities h f) 4 0) ∧
    (∀ a, d.spdm = .caps → a % 8 = 7 → becomes (.negotiateAlgorithms h a) { d with spdm := .algs } (.spdm h 0x63 [7])) ∧
    (∀ a, d.spdm ≠ .caps → errs (.negotiateAlgorithms h a) 4 0) ∧
    (∀ hint nonce psk, d.spdm = .algs → d.psk = some psk →
      (hint = d.hint → Completes (.pskExchange h hint nonce) s (fun t =>
        ∃ own, t = { s with heads := s.heads.set h { d with psk := none, spdm := .pskSent,
                                                              secret := Config.sessionSecret psk hint nonce own },
                            fresh := s.fresh + 1, out := .spdm h 0x66 [own] :: s.out })) ∧
      (hint ≠ d.hint → errs (.pskExchange h hint nonce) 1 0)) ∧
    (∀ mac, d.spdm = .pskSent →
      if Config.finishAccepts d.secret mac = true then
        becomes (.pskFinish h mac) { d with spdm := .session, keyReady := Tab.empty, ideOld := Tab.empty } (.spdm h 0x67 [])
      else becomes (.pskFinish h mac) { d with spdm := .algs, secret := 0, keyReady := Tab.empty } (.spdm h 0x7F [6, 0])) ∧
    (d.spdm ≠ .session →
      (∀ op, errs (.keyUpdate h op) 4 0) ∧ errs (.heartbeat h) 4 0 ∧ errs (.endSession h) 4 0 ∧ errs (.query h) 4 0 ∧
      (∀ st k key, errs (.keyProg h st k key) 4 0) ∧ (∀ st k, errs (.kSetGo h st k) 4 0 ∧ errs (.kSetStop h st k) 4 0) ∧
      (∀ op ctx key, errs (.contextKeyRequest h op ctx key) 4 0)) ∧
    (∀ code, errs (.unsupportedSpdm h code) 7 code) ∧
    (∀ x, x < 2 → s.ideAt h x = .secure →
      Completes (.ideIntegrityFailure h x) s (fun t =>
        t.ideAt h x = .insecure ∧ t.ideAt h (1 - x) = s.ideAt h (1 - x) ∧
        (t.headAt h).ideFails = min 65535 (d.ideFails + 1) ∧ (t.headAt h).ideOld.has x = true ∧
        (∀ k, k < 2 → (t.headAt h).keyReady.has (2 * x + k) = false) ∧
        (∀ j, j ≠ h → t.heads.get? j = s.heads.get? j) ∧ t = { s with heads := t.heads, out := .aer h :: s.out })) ∧
    (d.spdm = .session →
      (∀ op, 1 ≤ op → op ≤ 2 →
        becomes (.keyUpdate h op) { d with secret := Config.updatedSecret d.secret op } (.spdm h 0x69 [op])) ∧
      exec (.heartbeat h) s = .next { s with out := .spdm h 0x68 [] :: s.out } ∧
      exec (.query h) s = .next { s with out := .spdm h 0x7E [1, 0, 1] :: s.out } ∧
      becomes (.endSession h) { d with spdm := .algs, secret := 0, keyReady := Tab.empty } (.spdm h 0x6C []) ∧
      (∀ x k key, x < 2 → k < 2 →
        Completes (.keyProg h x k key) s (fun t =>
          (t.headAt h).keys.get? (2 * x + k) = some (key % 2 ^ 256) ∧ (t.headAt h).keyReady.has (2 * x + k) = true ∧
          t.ideAt h x = (if s.ideAt h x = .off then .keyed else s.ideAt h x) ∧ t.ideAt h (1 - x) = s.ideAt h (1 - x) ∧
          (∀ j, j ≠ h → t.heads.get? j = s.heads.get? j) ∧
          t = { s with heads := t.heads, out := .spdm h 0x7E [3, x, k, 0] :: s.out })) ∧
      (∀ x k, x < 2 → k < 2 →
        (d.keyReady.has (2 * x + k) = true → d.ideOld.has x = false →
          Completes (.kSetGo h x k) s (fun t =>
            t.ideAt h x = .secure ∧ t.ideAt h (1 - x) = s.ideAt h (1 - x) ∧ (t.headAt h).keySet.get? x = some k ∧
            (∀ j, j ≠ h → t.heads.get? j = s.heads.get? j) ∧
            t = { s with heads := t.heads, out := .spdm h 0x7E [6, x, k] :: s.out })) ∧
        (d.keyReady.has (2 * x + k) = false ∨ d.ideOld.has x = true → errs (.kSetGo h x k) 1 0) ∧
        Completes (.kSetStop h x k) s (fun t =>
          (t.headAt h).keys.get? (2 * x + k) = none ∧ (t.headAt h).keyReady.has (2 * x + k) = false ∧
          (s.ideAt h x = .secure → d.keySet.get? x = some k → t.ideAt h x ≠ .secure) ∧
          t.ideAt h (1 - x) = s.ideAt h (1 - x) ∧ (∀ j, j ≠ h → t.heads.get? j = s.heads.get? j) ∧
          t = { s with heads := t.heads, out := .spdm h 0x7E [6, x, k] :: s.out })) ∧
      (∀ ctx key, ctx < 4096 → (s.eng.ctxs.getD ctx {}).enable = true → bit (s.eng.ctxs.getD ctx {}).hostMask h = true →
        Completes (.contextKeyRequest h 2 ctx key) s (fun t => t.sec.ctxKeys.has (16 * ctx + h) = false ∧
          (∀ k, k ≠ 16 * ctx + h → t.sec.ctxKeys.get? k = s.sec.ctxKeys.get? k) ∧
          t = { s with sec := { s.sec with ctxKeys := t.sec.ctxKeys, sealCtr := t.sec.sealCtr },
                       out := .spdm h 0x7E [2, ctx] :: s.out }) ∧
        (s.sec.ctxKeys.has (16 * ctx + h) = true ∨ s.sec.ctxKeys.size < 1024 →
          Completes (.contextKeyRequest h 1 ctx key) s (fun t =>
            t.sec.ctxKeys.get? (16 * ctx + h) = some (key % 2 ^ 256) ∧
            (∀ k, k ≠ 16 * ctx + h → t.sec.ctxKeys.get? k = s.sec.ctxKeys.get? k) ∧
            (s.sec.ctxKeys.get? (16 * ctx + h) ≠ some (key % 2 ^ 256) → t.sec.sealCtr.has (16 * ctx + h) = false) ∧
            t = { s with sec := { s.sec with ctxKeys := t.sec.ctxKeys, sealCtr := t.sec.sealCtr },
                         out := .spdm h 0x7E [1, ctx] :: s.out }))))

/-- Plinth's answers (R424, R431, R433 to R436; the DOE Discovery order and error lengths are log entry 47's, BUSY before FORMAT
log entry 48's). A mailbox lists its object types; one evidence request of a head waits at a time; a served one uses the next
signature index, never twice, and binds a new PSK to the head; with no index left it is answered EXHAUSTED; a certificate
request is answered at once; the floor rises to the running SVN and never falls; a level 2 attempt consumes the nonce and is
BUSY until it ends, and waits where a line of the token cannot be read now. -/
def Obligations.PlinthAnswers : Prop :=
  ∀ s : State,
    (∀ h, s.configUp h = true →
      (∀ i v t0, State.doeTypes[i]? = some (v, t0) → exec (.doeDiscovery h i) s =
        .next { s with out := .doe h 4 (put v 15 0 + put t0 23 16 + put (if i < 3 then i + 1 else 0) 31 24) :: s.out }) ∧
      (∀ i, 4 ≤ i → exec (.doeDiscovery h i) s = .next { s with out := .doe h 4 0xFFFF :: s.out }) ∧
      (∀ len raw, s.sec.queue.any (fun (q : EvReq) => q.head == h) = true →
        exec (.evidenceReq h len raw) s = .next { s with out := .doe h 8 (State.evidenceError 0x81 2) :: s.out }) ∧
      (∀ len raw, s.sec.queue.any (fun (q : EvReq) => q.head == h) = false →
        (State.evidenceForm len raw 1604 0x01 = true → exec (.evidenceReq h len raw) s =
          .next { s with sec := { s.sec with queue := s.sec.queue ++ [{ head := h, raw := raw % 2 ^ 12832 }] } }) ∧
        (State.evidenceForm len raw 1604 0x01 = false →
          exec (.evidenceReq h len raw) s = .next { s with out := .doe h 8 (State.evidenceError 0x81 1) :: s.out })) ∧
      (∀ len raw, State.evidenceForm len raw 4 0x02 = true → exec (.certReq h len raw) s =
        .next { s with out := .doe h 2912 (State.evidenceError 0x82 0 + (s.sec.cert % 2 ^ 23264) <<< 32) :: s.out })) ∧
    (∀ q rest, s.sec.queue = q :: rest → q.dropped = false → s.headUp q.head = true →
      (s.nextIndex = none → exec .evidenceRsp s =
        .next { s with sec := { s.sec with queue := rest }, out := .doe q.head 8 (State.evidenceError 0x81 3) :: s.out }) ∧
      (∀ x, s.nextIndex = some x →
        if Config.kemAccepts (fld q.raw 12831 288) = true then
          Completes .evidenceRsp s (fun t =>
            t.sec = { s.sec with queue := rest, xnext := some (x + 1) } ∧ (t.headAt q.head).psk.isSome = true ∧
            (∀ j, j ≠ q.head → t.heads.get? j = s.heads.get? j) ∧ (∃ raw, t.out = .doe q.head 11680 raw :: s.out) ∧
            t = { s with sec := t.sec, heads := t.heads, out := t.out, fresh := s.fresh + 2 })
        else exec .evidenceRsp s =
          .next { s with sec := { s.sec with queue := rest }, out := .doe q.head 8 (State.evidenceError 0x81 4) :: s.out })) ∧
    (∀ q rest x, s.sec.queue = q :: rest → q.dropped = true → s.nextIndex = some x →
      Completes .evidenceRsp s (fun t => t.sec.queue = rest ∧ t.out = s.out ∧ t.heads = s.heads ∧
        t = { s with sec := { s.sec with queue := rest, xnext := t.sec.xnext } })) ∧
    (∀ h, s.headUp h = true →
      let regs := { s.regs with setupSrc := s.regs.setupSrc ||| 2 ^ h }
      (∀ v : BitVec 32, bit v.toNat 0 = true → s.sec.boot = 1 → exec (.secFloorCommit h v) s =
        .next { s with regs := regs, sec := { s.sec with floorBits := max s.sec.floorBits s.sec.svn } }) ∧
      (∀ v : BitVec 32, bit v.toNat 0 = false ∨ s.sec.boot ≠ 1 → exec (.secFloorCommit h v) s = .next { s with regs := regs }) ∧
      Completes (.obsL2Chal h) s (fun t => ∃ n, n < 2 ^ 256 ∧
        t = { s with fresh := s.fresh + 1, sec := { s.sec with l2Nonce := some n }, out := .nonce h n :: s.out }) ∧
      (∀ v : Word, s.sec.l2Result ≠ 1 → exec (.obsL2Unlock h v) s =
        .next { s with regs := regs, sec := { s.sec with l2Req := some (fld v.toNat 36 0), l2Result := 1 } }) ∧
      (∀ v : Word, s.sec.l2Result = 1 → exec (.obsL2Unlock h v) s = .next { s with regs := regs })) ∧
    (∀ ln media, s.sec.l2Req = some ln →
      let x := s.readToken ln media
      (x.1.1 = State.readWaits → exec (.l2Unlock media) s = .next x.2) ∧
      (x.1.1 ≠ State.readWaits → Completes (.l2Unlock media) s (fun t =>
        t.sec.l2Req = none ∧ t.sec.l2Nonce = none ∧ t.sec.l2Result = x.1.1 ∧
        t.sec.l2Open = (s.sec.l2Open || x.1.1 == 2) ∧ (x.1.1 ≠ 2 → t.sec.l2Scope = s.sec.l2Scope) ∧
        (x.1.1 = 2 → t.obs.acc.has 25 = true) ∧ (x.1.1 ≠ 2 → t.obs.acc.has 26 = true) ∧
        ((∀ l, s.protAt l = 0) → s.med.ue = Tab.empty → media = [] → t.mem = s.mem) ∧ t.regs = s.regs ∧ t.heads = s.heads)) ∧
      ((s.extHolding (64 * ln) 2944 (· == .active)).isNone = true → x.1.1 = 8)) ∧
    (s.sec.l2Req = none → exec (.l2Unlock []) s = .next s)

/-- Set-up registers (R4, R6, R451 to R458, R495 and the rules of each domain's registers). A register write changes the
writable bits of its staged word, one to a CXL component register is kept by its head; a selector loads its window, OP kept; GO captures the domain's staged frame, or is BUSY with
16 waiting. The engine takes frames in order: one that fails a check, of the precedence of R495, changes nothing but its
domain's status; an accepted one puts every register of its domain into force as captured, and changes no other committed
register. -/
def Obligations.SetupCommitsDecide : Prop :=
  (∀ (s : State) (f : Frame) (rest : List Frame), s.regs.queue = f :: rest → f.words.keys.Nodup →
    let s0 := s.taken rest
    let pages (n a : Nat) : List Nat := (List.range n).map (fun i => a + 8 * i)
    let rules : List (Instr × Dom × List Check × List Nat) :=
      [ (.ctlCommit, .ctl, s0.ctlChecks f, [offCtlMaster, offCtlPort, offCtlMortar, offCtlFlagCfg]),
        (.cohCommit, .coh, s0.cohChecks f, [offCohCfg, offCohLostCfg]),
        (.medCommit, .med, s0.medChecks f,
          [offMedPar, offMedMirCfg, offMedRescue, offMedRetCfg, offMedDist, offMedScrub, offMedSpeed]),
        (.engCommit, .eng, s0.engChecks f, [offKvPool, offKvPool + 8, offRowc]),
        (.timCommit, .tim, s0.timChecks f, [offTimCfg, offTimOffset] ++ pages 512 offTimSched ++ pages 32 offTimQw),
        (.pwrCommit, .pwr, s0.pwrChecks f, pages 24 offPwrRail ++ [offPwrPkg, offPwrDroop, offPwrTherm]),
        (.obsCommit, .obs, s0.obsChecks f, [offTraceCfg, offLogCfg, offAlmCfg] ++ pages 4 offAlertMask),
        (.secCommit, .sec, [], [offSecPolicy]) ] ++
      (List.range 12).map (fun h => (.hedCommit, .hed h, s0.hedChecks f h, pages 8 (offHed h + 0x100) ++ pages 4 (offHed h + 0x140)))
    ∀ x, x ∈ rules → f.dom = x.2.1 →
      (∀ k, faultOf x.2.2.1 = some k → Completes x.1 s (fun t => Rejected s0 t x.2.1 k)) ∧
      (faultOf x.2.2.1 = none → Completes x.1 s (fun t =>
        Accepted s t x.2.1 ∧ t.regs.queue = rest ∧ t.regs.staged = s.regs.staged ∧
        (∀ o, o ∈ x.2.2.2 → t.regs.committedAt o = f.words.getD o (regReset o)) ∧
        (∀ o, o ∉ x.2.2.2 → t.regs.committedAt o = s.regs.committedAt o) ∧
        (f.dom = .eng → State.ctxOfWord (f.word offCtx) ≠ s.eng.ctxs.getD f.sel {} →
          t.eng.ctxs.get? f.sel = some (State.ctxOfWord (f.word offCtx))) ∧
        (f.dom ≠ .ctl → f.dom ≠ .obs → t.mem = s.mem ∧ t.rings = s.rings ∧ t.cmds = s.cmds) ∧ t.heads = s.heads))) ∧
  (∀ (h off : Nat) (s : State), s.headUp h = true →
    let setup (t : State) : Prop := t.regs.setupSrc = s.regs.setupSrc ||| 2 ^ h ∧ t.regs.committed = s.regs.committed ∧
      t = { s with regs := t.regs }
    (∀ (v : BitVec 32) d, domOf off = some d →
      (bit v.toNat 0 = true → s.regs.queue.length < 16 →
        Completes (.commitWrite h off v) s (fun t => setup t ∧ t.regs.status = s.regs.status ∧
          ∃ f, t.regs.queue = s.regs.queue ++ [f] ∧ f.dom = d ∧ (∀ o, d.selOff = some o → f.sel = s.selAt o) ∧
            (∀ o, d.span.1 ≤ o → o < d.span.2 → f.words.get? o = s.regs.staged.get? o))) ∧
      (bit v.toNat 0 = true → 16 ≤ s.regs.queue.length →
        Completes (.commitWrite h off v) s (fun t => setup t ∧ t.regs.queue = s.regs.queue ∧
          t.outcome d = { done := ((s.outcome d).done + 1) % 2 ^ 32, whereOff := 0, reason := .busy })) ∧
      (bit v.toNat 0 = false →
        Completes (.commitWrite h off v) s (fun t => setup t ∧ t.regs.queue = s.regs.queue ∧ t.regs.status = s.regs.status))) ∧
    (∀ v : BitVec 32, selBits off ≠ 0 →
      let n := v.toNat % 2 ^ selBits off
      Completes (.selectorWrite h off v) s (fun t => setup t ∧ t.regs.imm.get? off = some (BitVec.ofNat 64 n) ∧
        t.regs.queue = s.regs.queue ∧
        (∀ x, x ∈ s.window off n → t.regs.stagedAt x.1 = BitVec.ofNat 64
          (x.2 - (x.2 &&& State.opMask x.1) + ((s.regs.stagedAt x.1).toNat &&& State.opMask x.1))) ∧
        (∀ o, (s.window off n).any (fun x => x.1 == o) = false → t.regs.stagedAt o = s.regs.stagedAt o))) ∧
    (∀ v : Word, off % 8 = 0 → rwMask off ≠ 0 →
      Completes (.registerWrite h 0 off 8 v) s (fun t => setup t ∧ t.regs.queue = s.regs.queue ∧
        t.regs.stagedAt off = BitVec.ofNat 64
          ((s.regs.stagedAt off).toNat - ((s.regs.stagedAt off).toNat &&& rwMask off) + (v.toNat &&& rwMask off)) ∧
        (∀ o, o ≠ off → t.regs.stagedAt o = s.regs.stagedAt o))) ∧
    (∀ v : Word, off % 8 = 0 → 0x10000 ≤ off → off < 0x20000 →
      Completes (.registerWrite h 4 off 8 v) s (fun t => (t.headAt h).cxl.getD (off / 8) 0 % 2 ^ 64 = v.toNat ∧
        (∀ o, o ≠ off / 8 → (t.headAt h).cxl.get? o = (s.headAt h).cxl.get? o) ∧
        (∀ j, j ≠ h → t.heads.get? j = s.heads.get? j) ∧ t = { s with heads := t.heads })) ∧
    (∀ bar size (v : Word), (size ≠ 4 ∧ size ≠ 8) ∨ off % size ≠ 0 → exec (.registerWrite h bar off size v) s = .next s))

/-- R33: "It uses that DPA for the home Keystone, the channel, the extent check, the access check and revocation." A flag-alias
DPA names the line, the channel, the home Keystone and the extent of the DPA with bit 47 cleared, and every check of a request
to it comes out alike, revocation of its extent included; a read of the alias is the read of the line, and a MemInv of it that
of the line. -/
def Obligations.FlagAliasesStandForTheirLine : Prop :=
  ∀ (h spid dpa : Nat) (s : State), dpa < 2 ^ 47 →
    lineOf (dpa + 2 ^ 47) = lineOf dpa ∧ chanOf (dpa + 2 ^ 47) = chanOf dpa ∧ homeOf (dpa + 2 ^ 47) = homeOf dpa ∧
    s.extAt (lineOf (dpa + 2 ^ 47)) = s.extAt (lineOf dpa) ∧
    (∀ write, s.admitted h spid (dpa + 2 ^ 47) write = s.admitted h spid dpa write) ∧
    (∀ tag mv env, exec (.memRd h tag spid (dpa + 2 ^ 47) mv env) s = exec (.memRd h tag spid dpa mv env) s) ∧
    (∀ tag mv dir, exec (.memInv h tag spid (dpa + 2 ^ 47) mv dir) s = exec (.memInv h tag spid dpa mv dir) s)

/-- R91: "For a software extent the controller records no cached copy and issues no back-invalidate snoop." Every admitted
caching request to a line where nothing goes on, a MemRd with any MetaValue or a MemInv for ownership, is answered as granting
the state asked for in an HDM-DB region (and none elsewhere); neither it nor a full write changes the directory, opens a
transaction or sends a snoop. -/
def Obligations.SoftwareExtentsKeepNoRecord : Prop :=
  ∀ (h tag spid dpa i : Nat) (e : Extent) (s : State), s.memTakes h = true → s.extAt (lineOf dpa) = some (i, e) → e.coh = 0 →
    s.free (lineOf dpa) = true →
    let asked (mv : MetaVal) : Grant := if s.hdmDb h (lineOf dpa) = true then
      (match mv with | .i => .none | .s => .s | .a => .e) else .none
    let quiet (t : State) : Prop := t.dir = s.dir ∧ t.trans = s.trans ∧ t.waitQ = s.waitQ ∧
      ∀ hd sp ln op, Out.snoop hd sp ln op ∈ t.out → Out.snoop hd sp ln op ∈ s.out
    (s.admitted h spid dpa false = true →
      (∀ mv env, e.prot ≠ 2 → s.readBlocked (lineOf dpa) env.media = false → Completes (.memRd h tag spid dpa mv env) s (fun t => quiet t ∧
        ∃ data poison, Out.memData h tag (lineOf dpa) data poison (asked mv) ∈ t.out)) ∧
      ∀ dir, Completes (.memInv h tag spid dpa .a dir) s (fun t => quiet t ∧ t.out = .cmp h tag (asked .a) :: s.out)) ∧
    (s.admitted h spid dpa true = true → isFlagDpa dpa = false →
      ∀ d p mv env, Completes (.memWr h tag spid dpa d p mv env) s quiet)

end
end

