-- ==== Sys2Proof/Laws/Memory.lean ====
section
/-! SUPPORT. The laws of memory: every operation on it keeps the canonical form, a write is read back, and a write leaves
every other byte alone. -/

namespace Sys2Proof.Machine

/-! ### The canonical form -/

theorem Memory.wf_cons {c : Host.Cell} {m : List Host.Cell} :
    Memory.wf (c :: m) = true ↔ c.2 ≠ 0 ∧ (∀ d ∈ m, c.1 < d.1) ∧ Memory.wf m = true := by
  induction m generalizing c with
  | nil => simp [Memory.wf]
  | cons d t ih =>
    simp only [Memory.wf, Bool.and_eq_true, decide_eq_true_eq, bne_iff_ne, ne_eq, List.mem_cons, forall_eq_or_imp]
    constructor
    · rintro ⟨⟨h1, h2⟩, h3⟩
      refine ⟨h1, ⟨h2, fun x hx => ?_⟩, h3⟩
      exact Nat.lt_trans h2 ((ih.mp h3).2.1 x hx)
    · rintro ⟨h1, ⟨h2, _⟩, h3⟩
      exact ⟨⟨h1, h2⟩, h3⟩

theorem Memory.wf_iff {m : List Host.Cell} :
    Memory.wf m = true ↔ (∀ c ∈ m, c.2 ≠ 0) ∧ m.Pairwise (fun c d => c.1 < d.1) := by
  induction m with
  | nil => simp [Memory.wf]
  | cons c t ih =>
    rw [Memory.wf_cons, ih, List.pairwise_cons]
    simp only [List.mem_cons, forall_eq_or_imp]
    exact ⟨fun ⟨h1, h2, h3, h4⟩ => ⟨⟨h1, h3⟩, h2, h4⟩, fun ⟨⟨h1, h3⟩, h2, h4⟩ => ⟨h1, h2, h3, h4⟩⟩

theorem Memory.wf_filter {m : List Host.Cell} (p : Host.Cell → Bool) (h : Memory.wf m = true) :
    Memory.wf (m.filter p) = true := by
  rw [Memory.wf_iff] at h ⊢
  exact ⟨fun c hc => h.1 c (List.mem_filter.mp hc).1, h.2.filter p⟩

theorem cellsOf_bounds {a : Nat} {bs : List Nat} : ∀ c ∈ cellsOf a bs, a ≤ c.1 ∧ c.1 < a + bs.length ∧ c.2 ≠ 0 := by
  induction bs generalizing a with
  | nil => simp [cellsOf]
  | cons b t ih =>
    intro c hc
    unfold cellsOf at hc
    split at hc
    · obtain ⟨h1, h2, h3⟩ := ih c hc
      simp only [List.length_cons]; exact ⟨by omega, by omega, h3⟩
    · rename_i hb
      simp only [List.mem_cons] at hc
      rcases hc with rfl | hc
      · refine ⟨Nat.le_refl _, by simp, ?_⟩
        intro h0
        have := congrArg BitVec.toNat h0
        simp only [BitVec.toNat_ofNat] at this
        exact hb (by simpa using this)
      · obtain ⟨h1, h2, h3⟩ := ih c hc
        simp only [List.length_cons]; exact ⟨by omega, by omega, h3⟩

theorem cellsOf_wf {a : Nat} {bs : List Nat} : Memory.wf (cellsOf a bs) = true := by
  rw [Memory.wf_iff]
  refine ⟨fun c hc => (cellsOf_bounds c hc).2.2, ?_⟩
  induction bs generalizing a with
  | nil => simp [cellsOf]
  | cons b t ih =>
    unfold cellsOf
    split
    · exact ih
    · rw [List.pairwise_cons]
      exact ⟨fun d hd => by have := (cellsOf_bounds d hd).1; simp only; omega, ih⟩

theorem writeMem_wf {m : List Host.Cell} {a : Nat} {bs : List Nat} (h : Memory.wf m = true) :
    Memory.wf (writeMem m a bs) = true := by
  rw [Memory.wf_iff] at h ⊢
  have hc := Memory.wf_iff.mp (cellsOf_wf (a := a) (bs := bs))
  unfold writeMem
  constructor
  · intro c hm
    simp only [List.mem_append, List.mem_filter] at hm
    rcases hm with (hm | hm) | hm
    · exact h.1 c hm.1
    · exact hc.1 c hm
    · exact h.1 c hm.1
  · rw [List.pairwise_append, List.pairwise_append]
    refine ⟨⟨h.2.filter _, hc.2, ?_⟩, h.2.filter _, ?_⟩
    · intro x hx y hy
      have hx := (List.mem_filter.mp hx).2
      have hy := cellsOf_bounds y hy
      simp only [decide_eq_true_eq] at hx
      omega
    · intro x hx y hy
      have hy := (List.mem_filter.mp hy).2
      simp only [decide_eq_true_eq] at hy
      rcases List.mem_append.mp hx with hx | hx
      · have hx := (List.mem_filter.mp hx).2
        simp only [decide_eq_true_eq] at hx
        omega
      · have hx := cellsOf_bounds x hx
        omega

theorem zeroMem_wf {m : List Host.Cell} {a b : Nat} (h : Memory.wf m = true) : Memory.wf (zeroMem m a b) = true :=
  Memory.wf_filter _ h

/-! ### Reading bytes -/

/-- What one cell adds to a read of `n` bytes from `a`. -/
def cellPart (a n : Nat) (c : Host.Cell) : Nat := if a ≤ c.1 && c.1 < a + n then c.2.toNat <<< (8 * (c.1 - a)) else 0

theorem readMem_sum {m : List Host.Cell} {a n : Nat} : readMem m a n = (m.map (cellPart a n)).sum := by
  have gen : ∀ (m : List Host.Cell) (k : Nat),
      m.foldl (fun acc c => if a ≤ c.1 && c.1 < a + n then acc + c.2.toNat <<< (8 * (c.1 - a)) else acc) k
        = k + (m.map (cellPart a n)).sum := by
    intro m
    induction m with
    | nil => simp
    | cons c t ih =>
      intro k
      simp only [List.foldl_cons, List.map_cons, List.sum_cons, ih, cellPart]
      split <;> omega
  simpa [readMem] using gen m 0

theorem sum_eq_zero_of {l : List Host.Cell} {f : Host.Cell → Nat} (h : ∀ c ∈ l, f c = 0) : (l.map f).sum = 0 := by
  induction l with
  | nil => rfl
  | cons c t ih => simp [h c (by simp), ih (fun d hd => h d (by simp [hd]))]

theorem sum_filter_of {l : List Host.Cell} {f : Host.Cell → Nat} {p : Host.Cell → Bool}
    (h : ∀ c ∈ l, p c = false → f c = 0) : ((l.filter p).map f).sum = (l.map f).sum := by
  induction l with
  | nil => rfl
  | cons c t ih =>
    have iht := ih (fun d hd => h d (by simp [hd]))
    by_cases hp : p c
    · simp [List.filter_cons_of_pos hp, iht]
    · have h0 := h c (by simp) (by simpa using hp)
      rw [List.filter_cons_of_neg (by simpa using hp)]
      simp [iht, h0]

/-- A byte outside a write reads as before. -/
theorem readMem_writeMem_other {m : List Host.Cell} {a x : Nat} {bs : List Nat} (h : x < a ∨ a + bs.length ≤ x) :
    readMem (writeMem m a bs) x 1 = readMem m x 1 := by
  rw [readMem_sum, readMem_sum, writeMem, List.map_append, List.map_append, List.sum_append, List.sum_append]
  have hmid : ((cellsOf a bs).map (cellPart x 1)).sum = 0 := by
    apply sum_eq_zero_of
    intro c hc
    have := cellsOf_bounds c hc
    unfold cellPart
    rw [if_neg]
    simp only [Bool.and_eq_true, decide_eq_true_eq]
    omega
  rw [hmid]
  rcases h with h | h
  · have h2 : ((m.filter (fun c => decide (a + bs.length ≤ c.1))).map (cellPart x 1)).sum = 0 := by
      apply sum_eq_zero_of
      intro c hc
      have := (List.mem_filter.mp hc).2
      simp only [decide_eq_true_eq] at this
      unfold cellPart
      rw [if_neg]
      simp only [Bool.and_eq_true, decide_eq_true_eq]
      omega
    simp only [h2, Nat.add_zero]
    apply sum_filter_of
    intro c _ hc
    simp only [decide_eq_false_iff_not] at hc
    unfold cellPart
    rw [if_neg]
    simp only [Bool.and_eq_true, decide_eq_true_eq]
    omega
  · have h2 : ((m.filter (fun c => decide (c.1 < a))).map (cellPart x 1)).sum = 0 := by
      apply sum_eq_zero_of
      intro c hc
      have := (List.mem_filter.mp hc).2
      simp only [decide_eq_true_eq] at this
      unfold cellPart
      rw [if_neg]
      simp only [Bool.and_eq_true, decide_eq_true_eq]
      omega
    simp only [h2, Nat.zero_add]
    apply sum_filter_of
    intro c _ hc
    simp only [decide_eq_false_iff_not] at hc
    unfold cellPart
    rw [if_neg]
    simp only [Bool.and_eq_true, decide_eq_true_eq]
    omega

theorem cellsOf_read {a : Nat} {bs : List Nat} {i : Nat} (h : i < bs.length) :
    ((cellsOf a bs).map (cellPart (a + i) 1)).sum = bs[i] % 256 := by
  induction bs generalizing a i with
  | nil => simp at h
  | cons b t ih =>
    have rest : ∀ (a' : Nat), a < a' → ((cellsOf a' t).map (cellPart a 1)).sum = 0 := by
      intro a' ha
      apply sum_eq_zero_of
      intro c hc
      have := cellsOf_bounds c hc
      unfold cellPart
      rw [if_neg]
      simp only [Bool.and_eq_true, decide_eq_true_eq]
      omega
    unfold cellsOf
    cases i with
    | zero =>
      simp only [Nat.add_zero, List.getElem_cons_zero]
      split
      · rw [rest _ (by omega)]; omega
      · simp only [List.map_cons, List.sum_cons, rest _ (Nat.lt_succ_self a), cellPart]
        simp
    | succ i =>
      have hi : i < t.length := by simpa using h
      have e : a + (i + 1) = a + 1 + i := by omega
      simp only [List.getElem_cons_succ, e]
      split
      · exact ih hi
      · simp only [List.map_cons, List.sum_cons, ih hi]
        have : cellPart (a + 1 + i) 1 (a, BitVec.ofNat 8 b) = 0 := by
          unfold cellPart
          rw [if_neg]
          simp only [Bool.and_eq_true, decide_eq_true_eq]
          omega
        omega

/-- A byte inside a write reads as written. -/
theorem readMem_writeMem_same {m : List Host.Cell} {a i : Nat} {bs : List Nat} (h : i < bs.length) :
    readMem (writeMem m a bs) (a + i) 1 = bs[i] % 256 := by
  rw [readMem_sum, writeMem, List.map_append, List.map_append, List.sum_append, List.sum_append, cellsOf_read h]
  have h1 : ((m.filter (fun c => decide (c.1 < a))).map (cellPart (a + i) 1)).sum = 0 := by
    apply sum_eq_zero_of
    intro c hc
    have := (List.mem_filter.mp hc).2
    simp only [decide_eq_true_eq] at this
    unfold cellPart
    rw [if_neg]
    simp only [Bool.and_eq_true, decide_eq_true_eq]
    omega
  have h2 : ((m.filter (fun c => decide (a + bs.length ≤ c.1))).map (cellPart (a + i) 1)).sum = 0 := by
    apply sum_eq_zero_of
    intro c hc
    have := (List.mem_filter.mp hc).2
    simp only [decide_eq_true_eq] at this
    unfold cellPart
    rw [if_neg]
    simp only [Bool.and_eq_true, decide_eq_true_eq]
    omega
  omega

/-- A byte of a range made zero reads 0. -/
theorem readMem_zeroMem {m : List Host.Cell} {a b x : Nat} :
    readMem (zeroMem m a b) x 1 = if a ≤ x ∧ x < b then 0 else readMem m x 1 := by
  rw [readMem_sum, readMem_sum, zeroMem]
  split
  · apply sum_eq_zero_of
    intro c hc
    have := (List.mem_filter.mp hc).2
    simp only [Bool.or_eq_true, decide_eq_true_eq] at this
    unfold cellPart
    rw [if_neg]
    simp only [Bool.and_eq_true, decide_eq_true_eq]
    omega
  · apply sum_filter_of
    intro c _ hc
    simp only [Bool.or_eq_false_iff, decide_eq_false_iff_not] at hc
    unfold cellPart
    rw [if_neg]
    simp only [Bool.and_eq_true, decide_eq_true_eq]
    omega

theorem lineBytes_length {d : Line} : (lineBytes d).length = 64 := by simp [lineBytes, bytesOf]

end Sys2Proof.Machine
end

