-- ==== Sys2Proof/Laws/Tab.lean ====
section
/-! SUPPORT. Reading a table after an update of it. -/

namespace Sys2Proof.Machine.Tab

variable {α : Type}

theorem findRow_putRow {k j : Nat} {v : α} {l : List (Nat × α)} :
    findRow (putRow k v l) j = if k = j then some v else findRow l j := by
  induction l with
  | nil => simp only [putRow, findRow]
  | cons x t ih =>
    obtain ⟨i, w⟩ := x
    simp only [putRow]
    split
    · simp only [findRow]
    · split
      · subst_vars
        simp only [findRow]
        split <;> rfl
      · simp only [findRow, ih]
        split
        · split
          · omega
          · rfl
        · rfl

@[simp] theorem get?_empty {k : Nat} : (empty : Tab α).get? k = none := rfl

theorem get?_set {t : Tab α} {k j : Nat} {v : α} : (t.set k v).get? j = if k = j then some v else t.get? j :=
  findRow_putRow

@[simp] theorem get?_set_self {t : Tab α} {k : Nat} {v : α} : (t.set k v).get? k = some v := by simp [get?_set]

@[simp] theorem getD_set_self {t : Tab α} {k : Nat} {v d : α} : (t.set k v).getD k d = v := by simp [getD]

theorem get?_set_other {t : Tab α} {k j : Nat} {v : α} (h : k ≠ j) : (t.set k v).get? j = t.get? j := by
  simp [get?_set, h]

theorem getD_set_other {t : Tab α} {k j : Nat} {v d : α} (h : k ≠ j) : (t.set k v).getD j d = t.getD j d := by
  simp [getD, get?_set, h]

theorem has_set {t : Tab α} {k j : Nat} {v : α} : (t.set k v).has j = (decide (k = j) || t.has j) := by
  simp only [has, get?_set]
  split <;> simp_all

theorem get?_erase {t : Tab α} {k j : Nat} : (t.erase k).get? j = if k = j then none else t.get? j := by
  obtain ⟨l⟩ := t
  induction l with
  | nil => simp [erase, get?, findRow]
  | cons x t ih =>
    obtain ⟨i, w⟩ := x
    simp only [erase, get?, List.filter_cons, findRow, bne_iff_ne, ne_eq] at ih ⊢
    by_cases hk : k = j
    · subst hk
      by_cases hi : i = k
      · simp_all
      · simp_all [findRow]
    · by_cases hi : i = k
      · subst hi
        simp_all [findRow]
      · simp_all [findRow]

theorem get?_modify {t : Tab α} {k j : Nat} {f : α → α} :
    (t.modify k f).get? j = if k = j then (t.get? j).map f else t.get? j := by
  obtain ⟨l⟩ := t
  induction l with
  | nil => simp [modify, get?, findRow]
  | cons x t ih =>
    obtain ⟨i, w⟩ := x
    simp only [modify, get?, List.map_cons] at ih ⊢
    by_cases hi : i = k
    · subst hi
      simp only [findRow, if_pos, ih]
      by_cases hj : i = j
      · simp [hj]
      · simp [hj]
    · simp only [if_neg hi, findRow, ih]
      by_cases hj : i = j
      · subst hj
        simp [Ne.symm hi]
      · simp [hj]

end Sys2Proof.Machine.Tab

namespace Sys2Proof.Machine

theorem NSet.has_add {t : NSet} {k j : Nat} : (NSet.add t k).has j = (decide (k = j) || t.has j) := Tab.has_set

end Sys2Proof.Machine
end

