-- ==== Sys2Proof/Laws/Evolve.lean ====
section
/-! SUPPORT. The relation `Evolves` between a state and a later one: that it composes, that an update of other fields keeps
it, and how it passes through folds, pairs and choices. -/

namespace Sys2Proof.Machine

namespace Evolves

theorem refl (s : State) : Evolves s s :=
  ⟨id, rfl, rfl, List.suffix_refl _, Nat.le_refl _, Nat.le_refl _, fun _ h => h⟩

theorem trans {s t u : State} (h : Evolves s t) (k : Evolves t u) : Evolves s u :=
  ⟨fun x => k.mem (h.mem x), k.pending.trans h.pending, k.elapsed.trans h.elapsed, h.out.trans k.out,
    Nat.le_trans h.fresh k.fresh, Nat.le_trans h.floor k.floor, fun i x => k.otp i (h.otp i x)⟩

/-- An update of fields that `Evolves` does not speak of. -/
theorem of_eq {s t u : State} (h : Evolves s u) (e1 : t.mem = u.mem) (e2 : t.pending = u.pending)
    (e3 : t.time.elapsed = u.time.elapsed) (e4 : t.out = u.out) (e5 : t.fresh = u.fresh)
    (e6 : t.sec.floorBits = u.sec.floorBits) (e7 : t.sec.otp = u.sec.otp) : Evolves s t :=
  h.trans ⟨fun x => e1 ▸ x, e2, e3, e4 ▸ List.suffix_refl _, e5 ▸ Nat.le_refl _, e6 ▸ Nat.le_refl _, fun _ x => e7 ▸ x⟩

/-- An update of memory by cells that stand in canonical form whenever the old ones do. -/
theorem of_mem {s t u : State} (h : Evolves s u) (e1 : Memory.wf u.mem = true → Memory.wf t.mem = true)
    (e2 : t.pending = u.pending) (e3 : t.time.elapsed = u.time.elapsed) (e4 : t.out = u.out) (e5 : t.fresh = u.fresh)
    (e6 : t.sec.floorBits = u.sec.floorBits) (e7 : t.sec.otp = u.sec.otp) : Evolves s t :=
  h.trans ⟨e1, e2, e3, e4 ▸ List.suffix_refl _, e5 ▸ Nat.le_refl _, e6 ▸ Nat.le_refl _, fun _ x => e7 ▸ x⟩

/-- `Evolves` as it bears on the fields it speaks of. -/
structure Core (s0 : State) (mem : List Host.Cell) (pending : List Instr) (elapsed : Nat) (out : List Out) (fresh : Nat)
    (floor : Nat) (otp : NSet) : Prop where
  mem : Memory.wf s0.mem = true → Memory.wf mem = true
  pending : pending = s0.pending
  elapsed : elapsed = s0.time.elapsed
  out : s0.out <:+ out
  fresh : s0.fresh ≤ fresh
  floor : s0.sec.floorBits ≤ floor
  otp : ∀ k, s0.sec.otp.has k = true → otp.has k = true

/-- An update bears on `Evolves` only through those fields. -/
theorem mk_iff {s0 : State} {pending out fresh time mem poison lost lineBuf med exts comps flags dir dirOrder dirFix trans waitQ toBuf fromBuf
     bufs uio hostDown lostWr lostRd lostDrop remotes nextId owed mirReads mirCopy calHeld calAcc conflicts timedOut remFault
     rings fetchLast cmds nextCid events msix eng courses heads regs obs power sec} :
    Evolves s0 (State.mk pending out fresh time mem poison lost lineBuf med exts comps flags dir dirOrder dirFix trans waitQ toBuf
        fromBuf bufs uio hostDown lostWr lostRd lostDrop remotes nextId owed mirReads mirCopy calHeld calAcc conflicts
        timedOut remFault rings fetchLast cmds nextCid events msix eng courses heads regs obs power sec) ↔
      Core s0 mem pending time.elapsed out fresh sec.floorBits sec.otp :=
  ⟨fun h => ⟨h.mem, h.pending, h.elapsed, h.out, h.fresh, h.floor, h.otp⟩,
    fun h => ⟨h.mem, h.pending, h.elapsed, h.out, h.fresh, h.floor, h.otp⟩⟩

theorem core {s0 s : State} (h : Evolves s0 s) :
    Core s0 s.mem s.pending s.time.elapsed s.out s.fresh s.sec.floorBits s.sec.otp :=
  ⟨h.mem, h.pending, h.elapsed, h.out, h.fresh, h.floor, h.otp⟩

/-- The same where memory, the count of free values, the floor or the fuses changed as they may. -/
theorem core_by {s0 s : State} {mem fresh floor otp} (h : Evolves s0 s) (hm : Memory.wf s.mem = true → Memory.wf mem = true)
    (hf : s.fresh ≤ fresh) (hl : s.sec.floorBits ≤ floor) (ho : ∀ k, s.sec.otp.has k = true → otp.has k = true) :
    Core s0 mem s.pending s.time.elapsed s.out fresh floor otp :=
  ⟨fun x => hm (h.mem x), h.pending, h.elapsed, h.out, Nat.le_trans h.fresh hf, Nat.le_trans h.floor hl,
    fun k x => ho k (h.otp k x)⟩

theorem core_mem {s0 s : State} {mem} (h : Evolves s0 s) (hm : Memory.wf s.mem = true → Memory.wf mem = true) :
    Core s0 mem s.pending s.time.elapsed s.out s.fresh s.sec.floorBits s.sec.otp :=
  core_by h hm (Nat.le_refl _) (Nat.le_refl _) (fun _ x => x)

theorem core_fresh {s0 s : State} {fresh} (h : Evolves s0 s) (hf : s.fresh ≤ fresh) :
    Core s0 s.mem s.pending s.time.elapsed s.out fresh s.sec.floorBits s.sec.otp :=
  core_by h id hf (Nat.le_refl _) (fun _ x => x)

theorem core_floor {s0 s : State} {floor} (h : Evolves s0 s) (hl : s.sec.floorBits ≤ floor) :
    Core s0 s.mem s.pending s.time.elapsed s.out s.fresh floor s.sec.otp :=
  core_by h id (Nat.le_refl _) hl (fun _ x => x)

theorem core_otp {s0 s : State} {k : Nat} (h : Evolves s0 s) :
    Core s0 s.mem s.pending s.time.elapsed s.out s.fresh s.sec.floorBits (s.sec.otp.add k) :=
  core_by h id (Nat.le_refl _) (Nat.le_refl _) (fun _ x => by rw [NSet.has_add, x, Bool.or_true])

theorem foldl {α : Type} {s0 s : State} {f : State → α → State} {l : List α}
    (hf : ∀ t x, Evolves s0 t → Evolves s0 (f t x)) (h : Evolves s0 s) : Evolves s0 (l.foldl f s) := by
  induction l generalizing s with
  | nil => exact h
  | cons x t ih => exact ih (hf _ _ h)

theorem foldl_work {α : Type} {s0 : State} {w : Work} {f : Work → α → Work} {l : List α}
    (hf : ∀ v x, Evolves s0 v.s → Evolves s0 (f v x).s) (h : Evolves s0 w.s) : Evolves s0 (l.foldl f w).s := by
  induction l generalizing w with
  | nil => exact h
  | cons x t ih => exact ih (hf _ _ h)

theorem foldl_snd {α β : Type} {s0 : State} {p : β × State} {f : β × State → α → β × State} {l : List α}
    (hf : ∀ q x, Evolves s0 q.2 → Evolves s0 (f q x).2) (h : Evolves s0 p.2) : Evolves s0 (l.foldl f p).2 := by
  induction l generalizing p with
  | nil => exact h
  | cons x t ih => exact ih (hf _ _ h)

theorem foldl_fst {α β : Type} {s0 : State} {p : State × β} {f : State × β → α → State × β} {l : List α}
    (hf : ∀ q x, Evolves s0 q.1 → Evolves s0 (f q x).1) (h : Evolves s0 p.1) : Evolves s0 (l.foldl f p).1 := by
  induction l generalizing p with
  | nil => exact h
  | cons x t ih => exact ih (hf _ _ h)

theorem foldl_work_snd {α β : Type} {s0 : State} {p : β × Work} {f : β × Work → α → β × Work} {l : List α}
    (hf : ∀ q x, Evolves s0 q.2.s → Evolves s0 (f q x).2.s) (h : Evolves s0 p.2.s) : Evolves s0 (l.foldl f p).2.s := by
  induction l generalizing p with
  | nil => exact h
  | cons x t ih => exact ih (hf _ _ h)

theorem foldl_work_fst {α β : Type} {s0 : State} {p : Work × β} {f : Work × β → α → Work × β} {l : List α}
    (hf : ∀ q x, Evolves s0 q.1.s → Evolves s0 (f q x).1.s) (h : Evolves s0 p.1.s) : Evolves s0 (l.foldl f p).1.s := by
  induction l generalizing p with
  | nil => exact h
  | cons x t ih => exact ih (hf _ _ h)

theorem foldl_work_trd {α β γ : Type} {s0 : State} {p : β × γ × Work} {f : β × γ × Work → α → β × γ × Work} {l : List α}
    (hf : ∀ q x, Evolves s0 q.2.2.s → Evolves s0 (f q x).2.2.s) (h : Evolves s0 p.2.2.s) : Evolves s0 (l.foldl f p).2.2.s := by
  induction l generalizing p with
  | nil => exact h
  | cons x t ih => exact ih (hf _ _ h)

theorem foldl_work_qtd {α β γ δ : Type} {s0 : State} {p : β × γ × δ × Work} {f : β × γ × δ × Work → α → β × γ × δ × Work}
    {l : List α} (hf : ∀ q x, Evolves s0 q.2.2.2.s → Evolves s0 (f q x).2.2.2.s) (h : Evolves s0 p.2.2.2.s) :
    Evolves s0 (l.foldl f p).2.2.2.s := by
  induction l generalizing p with
  | nil => exact h
  | cons x t ih => exact ih (hf _ _ h)

/-- The state of a pair that a call answered. -/
theorem snd_of {α : Type} {s0 t : State} {p : α × State} {a : α} (e : p = (a, t)) (h : Evolves s0 p.2) : Evolves s0 t := by
  subst e; exact h

theorem fst_of {α : Type} {s0 t : State} {p : State × α} {a : α} (e : p = (t, a)) (h : Evolves s0 p.1) : Evolves s0 t := by
  subst e; exact h

theorem work_snd_of {α : Type} {s0 : State} {w : Work} {p : α × Work} {a : α} (e : p = (a, w)) (h : Evolves s0 p.2.s) :
    Evolves s0 w.s := by
  subst e; exact h

theorem work_fst_of {α : Type} {s0 : State} {w : Work} {p : Work × α} {a : α} (e : p = (w, a)) (h : Evolves s0 p.1.s) :
    Evolves s0 w.s := by
  subst e; exact h

theorem trd_of {α β : Type} {s0 t : State} {p : α × β × State} {a : α} {b : β} (e : p = (a, b, t)) (h : Evolves s0 p.2.2) :
    Evolves s0 t := by
  subst e; exact h

theorem work_trd_of {α β : Type} {s0 : State} {w : Work} {p : α × β × Work} {a : α} {b : β} (e : p = (a, b, w))
    (h : Evolves s0 p.2.2.s) : Evolves s0 w.s := by
  subst e; exact h

end Evolves

end Sys2Proof.Machine
end

