-- ==== Sys2Proof/Laws/EvolveOps.lean ====
section
/-! SUPPORT. No operation of `Machine/Ops.lean` does what no command may do (`Evolves`). -/

namespace Sys2Proof.Machine

set_option linter.all false

theorem State.putLine_evolves {s0 s : State} {ln : Nat} {d : Line} (h : Evolves s0 s) : Evolves s0 (s.putLine ln d) :=
  h.of_mem writeMem_wf rfl rfl rfl rfl rfl rfl

theorem State.emit_evolves {s0 s : State} {o : Out} (h : Evolves s0 s) : Evolves s0 (s.emit o) :=
  h.trans ⟨id, rfl, rfl, List.suffix_cons _ _, Nat.le_refl _, Nat.le_refl _, fun _ x => x⟩

theorem State.draw_evolves {s0 s : State} (h : Evolves s0 s) : Evolves s0 s.draw.2 :=
  h.trans ⟨id, rfl, rfl, List.suffix_refl _, Nat.le_succ _, Nat.le_refl _, fun _ x => x⟩

theorem State.bump_evolves {s0 : State} {a1 : State} {a2} {a3} (h : Evolves s0 a1) : Evolves s0 (State.bump a1 a2 a3) := by
  unfold State.bump
  repeat' first | with_reducible assumption | (simp only [Evolves.mk_iff]; apply Evolves.core) | dsimp only

theorem State.modComp_evolves {s0 : State} {a1 : State} {a2} {a3} (h : Evolves s0 a1) : Evolves s0 (State.modComp a1 a2 a3) := by
  unfold State.modComp
  repeat' first | with_reducible assumption | (simp only [Evolves.mk_iff]; apply Evolves.core) | dsimp only

theorem State.bumpMeter_evolves {s0 : State} {a1 : State} {a2} {a3} {a4} (h : Evolves s0 a1) : Evolves s0 (State.bumpMeter a1 a2 a3 a4) := by
  unfold State.bumpMeter
  repeat' first | with_reducible assumption | with_reducible apply State.modComp_evolves | (simp only [Evolves.mk_iff]; apply Evolves.core) | (intro _) | dsimp only

theorem State.charge_evolves {s0 : State} {a1 : State} {a2} {a3} (h : Evolves s0 a1) : Evolves s0 (State.charge a1 a2 a3) := by
  unfold State.charge
  repeat' first | with_reducible assumption | (simp only [Evolves.mk_iff]; apply Evolves.core) | dsimp only

theorem State.bumpCount_evolves {s0 : State} {a1 : State} {a2} {a3} {a4} (h : Evolves s0 a1) : Evolves s0 (State.bumpCount a1 a2 a3 a4) := by
  unfold State.bumpCount
  repeat' first | with_reducible assumption | with_reducible apply State.modComp_evolves | (simp only [Evolves.mk_iff]; apply Evolves.core) | (intro _) | dsimp only

theorem State.logAt_evolves {s0 : State} {a1 : State} {a2} {a3} {a4} {a5} {a6} (h : Evolves s0 a1) : Evolves s0 (State.logAt a1 a2 a3 a4 a5 a6) := by
  unfold State.logAt
  repeat' first | with_reducible assumption | with_reducible apply State.bump_evolves | split | (simp only [Evolves.mk_iff]; apply Evolves.core) | dsimp only

theorem State.setActives_evolves {s0 : State} {a1 : State} {a2} {a3} (h : Evolves s0 a1) : Evolves s0 (State.setActives a1 a2 a3) := by
  unfold State.setActives
  repeat' first | with_reducible assumption | split | (simp only [Evolves.mk_iff]; apply Evolves.core) | (intro _) | dsimp only

theorem State.alarm_evolves {s0 : State} {a1 : State} {a2} {a3} {a4} {a5} (h : Evolves s0 a1) : Evolves s0 (State.alarm a1 a2 a3 a4 a5) := by
  unfold State.alarm
  repeat' first | with_reducible assumption | with_reducible apply State.setActives_evolves | split | (simp only [Evolves.mk_iff]; apply Evolves.core) | dsimp only

theorem State.alarmEnd_evolves {s0 : State} {a1 : State} {a2} {a3} (h : Evolves s0 a1) : Evolves s0 (State.alarmEnd a1 a2 a3) := by
  unfold State.alarmEnd
  repeat' first | with_reducible assumption | with_reducible apply State.setActives_evolves | split | (simp only [Evolves.mk_iff]; apply Evolves.core) | dsimp only

theorem State.markAt_evolves {s0 : State} {a1 : State} {a2} {a3} {a4} {a5} {a6} {a7} (h : Evolves s0 a1) : Evolves s0 (State.markAt a1 a2 a3 a4 a5 a6 a7) := by
  unfold State.markAt
  repeat' first | with_reducible assumption | with_reducible apply State.modComp_evolves | with_reducible apply State.bump_evolves | with_reducible apply State.bumpCount_evolves | split | (simp only [Evolves.mk_iff]; apply Evolves.core) | (intro _) | dsimp only

theorem State.mark_evolves {s0 : State} {a1 : State} {a2} {a3} {a4} {a5} {a6} (h : Evolves s0 a1) : Evolves s0 (State.mark a1 a2 a3 a4 a5 a6) := by
  unfold State.mark
  repeat' first | with_reducible assumption | with_reducible apply State.markAt_evolves | dsimp only

theorem State.sendMsix_evolves {s0 : State} {a1 : State} {a2} {a3} (h : Evolves s0 a1) : Evolves s0 (State.sendMsix a1 a2 a3) := by
  unfold State.sendMsix
  repeat' first | with_reducible assumption | with_reducible apply State.bump_evolves | split | (simp only [Evolves.mk_iff]; apply Evolves.core) | dsimp only

theorem State.msixLeaves_evolves {s0 : State} {a1 : State} {a2} (h : Evolves s0 a1) : Evolves s0 (State.msixLeaves a1 a2) := by
  unfold State.msixLeaves
  repeat' first | with_reducible assumption | with_reducible apply State.emit_evolves | with_reducible apply State.bump_evolves | split | (simp only [Evolves.mk_iff]; apply Evolves.core) | dsimp only

theorem State.msixOut_evolves {s0 : State} {a1 : State} (h : Evolves s0 a1) : Evolves s0 (State.msixOut a1) := by
  unfold State.msixOut
  repeat' first | with_reducible assumption | with_reducible apply State.msixLeaves_evolves | with_reducible apply Evolves.foldl | (intro _) | dsimp only

end Sys2Proof.Machine
end

