-- ==== Sys2Proof/Laws/EvolveRemote.lean ====
section
/-! SUPPORT. No operation of `Machine/Remote.lean` does what no command may do (`Evolves`). -/

namespace Sys2Proof.Machine

set_option linter.all false

theorem State.setPeer_evolves {s0 : State} {a1 : State} {a2} {a3} (h : Evolves s0 a1) : Evolves s0 (State.setPeer a1 a2 a3) := by
  unfold State.setPeer
  repeat' first | with_reducible assumption | (simp only [Evolves.mk_iff]; apply Evolves.core) | dsimp only

theorem State.transmit_evolves {s0 : State} {a1 : State} {a2} {a3} (h : Evolves s0 a1) : Evolves s0 (State.transmit a1 a2 a3) := by
  unfold State.transmit
  repeat' first | with_reducible assumption | with_reducible apply State.emit_evolves | with_reducible apply State.setPeer_evolves | split | (simp only [Evolves.mk_iff]; apply Evolves.core) | dsimp only

theorem State.pumpOne_evolves {s0 : State} {a1} {a2} (h : Evolves s0 a1.1) : Evolves s0 (State.pumpOne a1 a2).1 := by
  unfold State.pumpOne
  repeat' first | with_reducible assumption | with_reducible apply State.transmit_evolves | split | (simp only [Evolves.mk_iff]; apply Evolves.core) | dsimp only

theorem State.pump_evolves {s0 : State} {a1 : State} (h : Evolves s0 a1) : Evolves s0 (State.pump a1) := by
  unfold State.pump
  repeat' first | with_reducible assumption | with_reducible apply State.pumpOne_evolves | with_reducible apply Evolves.foldl | with_reducible apply Evolves.foldl_fst | (intro _) | dsimp only

theorem State.startPeerSync_evolves {s0 : State} {a1 : State} {a2} {a3} (h : Evolves s0 a1) : Evolves s0 (State.startPeerSync a1 a2 a3) := by
  unfold State.startPeerSync
  repeat' first | with_reducible assumption | with_reducible apply State.setPeer_evolves | split | (simp only [Evolves.mk_iff]; apply Evolves.core) | dsimp only

theorem State.retrySyncs_evolves {s0 : State} {a1 : State} (h : Evolves s0 a1) : Evolves s0 (State.retrySyncs a1) := by
  unfold State.retrySyncs
  repeat' first | with_reducible assumption | with_reducible apply State.startPeerSync_evolves | with_reducible apply Evolves.foldl | split | (intro _) | dsimp only

theorem State.rerouteSync_evolves {s0 : State} {a1 : State} {a2} {a3} (h : Evolves s0 a1) : Evolves s0 (State.rerouteSync a1 a2 a3) := by
  unfold State.rerouteSync
  repeat' first | with_reducible assumption | with_reducible apply State.startPeerSync_evolves | split | dsimp only

theorem State.issue_evolves {s0 : State} {a1 : State} {a2} (h : Evolves s0 a1) : Evolves s0 (State.issue a1 a2).2 := by
  unfold State.issue
  repeat' first | with_reducible assumption | with_reducible apply State.pump_evolves | with_reducible apply State.rerouteSync_evolves | split | (simp only [Evolves.mk_iff]; apply Evolves.core) | (intro _) | dsimp only

end Sys2Proof.Machine
end

