-- ==== Sys2Proof/Laws/EvolveReply.lean ====
section
/-! SUPPORT. No operation of `Machine/Reply.lean` does what no command may do (`Evolves`). -/

namespace Sys2Proof.Machine

set_option linter.all false

theorem State.reply_evolves {s0 : State} {a1 : State} {a2} {a3} (h : Evolves s0 a1) : Evolves s0 (State.reply a1 a2 a3) := by
  unfold State.reply
  repeat' first | with_reducible assumption | with_reducible apply State.emit_evolves | split | dsimp only

theorem State.modCmd_evolves {s0 : State} {a1 : State} {a2} {a3} (h : Evolves s0 a1) : Evolves s0 (State.modCmd a1 a2 a3) := by
  unfold State.modCmd
  repeat' first | with_reducible assumption | (simp only [Evolves.mk_iff]; apply Evolves.core) | dsimp only

theorem State.ackConflicts_evolves {s0 : State} {a1 : State} (h : Evolves s0 a1) : Evolves s0 (State.ackConflicts a1) := by
  unfold State.ackConflicts
  repeat' first | with_reducible assumption | with_reducible apply State.reply_evolves | with_reducible apply Evolves.foldl | split | (simp only [Evolves.mk_iff]; apply Evolves.core) | (intro _) | dsimp only

theorem State.uioLineDone_evolves {s0 : State} {a1 : State} {a2} {a3} {a4} {a5} (h : Evolves s0 a1) : Evolves s0 (State.uioLineDone a1 a2 a3 a4 a5) := by
  unfold State.uioLineDone
  repeat' first | with_reducible assumption | with_reducible apply State.ackConflicts_evolves | with_reducible apply State.reply_evolves | split | (simp only [Evolves.mk_iff]; apply Evolves.core) | dsimp only

theorem State.flagCpl_evolves {s0 : State} {a1 : State} {a2} {a3} (h : Evolves s0 a1) : Evolves s0 (State.flagCpl a1 a2 a3) := by
  unfold State.flagCpl
  repeat' first | with_reducible assumption | with_reducible apply State.uioLineDone_evolves | with_reducible apply State.reply_evolves | split | dsimp only

theorem State.bufDrop_evolves {s0 : State} {a1 : State} {a2} {a3} (h : Evolves s0 a1) : Evolves s0 (State.bufDrop a1 a2 a3) := by
  unfold State.bufDrop
  repeat' first | with_reducible assumption | (simp only [Evolves.mk_iff]; apply Evolves.core) | (intro _) | dsimp only

theorem State.sendUp_evolves {s0 : State} {a1 : State} {a2} {a3} (h : Evolves s0 a1) : Evolves s0 (State.sendUp a1 a2 a3) := by
  unfold State.sendUp
  repeat' first | with_reducible assumption | (simp only [Evolves.mk_iff]; apply Evolves.core) | dsimp only

theorem State.bufEvict_evolves {s0 : State} {a1 : State} {a2} (h : Evolves s0 a1) : Evolves s0 (State.bufEvict a1 a2) := by
  unfold State.bufEvict
  repeat' first | with_reducible assumption | with_reducible apply State.sendUp_evolves | split | (simp only [Evolves.mk_iff]; apply Evolves.core) | (intro _) | dsimp only

theorem State.bufMake_evolves {s0 : State} {a1 : State} {a2} {a3} (h : Evolves s0 a1) : Evolves s0 (State.bufMake a1 a2 a3) := by
  unfold State.bufMake
  repeat' first | with_reducible assumption | with_reducible apply State.bufEvict_evolves | with_reducible apply Evolves.foldl | (intro _) | dsimp only

theorem State.bufPut_evolves {s0 : State} {a1 : State} {a2} {a3} {a4} (h : Evolves s0 a1) : Evolves s0 (State.bufPut a1 a2 a3 a4) := by
  unfold State.bufPut
  repeat' first | with_reducible assumption | with_reducible apply State.bufMake_evolves | split | (simp only [Evolves.mk_iff]; apply Evolves.core) | dsimp only

theorem State.fillBuf_evolves {s0 : State} {a1 : State} {a2} {a3} {a4} {a5} (h : Evolves s0 a1) : Evolves s0 (State.fillBuf a1 a2 a3 a4 a5) := by
  unfold State.fillBuf
  repeat' first | with_reducible assumption | with_reducible apply State.bufPut_evolves | split | (simp only [Evolves.mk_iff]; apply Evolves.core) | dsimp only

theorem State.respond_evolves {s0 : State} {a1 : State} {a2} {a3} {a4} (h : Evolves s0 a1) : Evolves s0 (State.respond a1 a2 a3 a4) := by
  unfold State.respond
  repeat' first | with_reducible assumption | with_reducible apply State.reply_evolves | with_reducible apply State.flagCpl_evolves | with_reducible apply State.uioLineDone_evolves | with_reducible apply State.fillBuf_evolves | split | (simp only [Evolves.mk_iff]; apply Evolves.core) | dsimp only

theorem State.wait_evolves {s0 : State} {a1 : State} {a2} (h : Evolves s0 a1) : Evolves s0 (State.wait a1 a2) := by
  unfold State.wait
  repeat' first | with_reducible assumption | (simp only [Evolves.mk_iff]; apply Evolves.core) | dsimp only

theorem State.finishOwed_evolves {s0 : State} {a1 : State} {a2} (h : Evolves s0 a1) : Evolves s0 (State.finishOwed a1 a2) := by
  unfold State.finishOwed
  repeat' first | with_reducible assumption | with_reducible apply State.ackConflicts_evolves | with_reducible apply State.respond_evolves | with_reducible apply Evolves.foldl | (simp only [Evolves.mk_iff]; apply Evolves.core) | (intro _) | dsimp only

theorem State.letWriteGo_evolves {s0 : State} {a1 : State} {a2} (h : Evolves s0 a1) : Evolves s0 (State.letWriteGo a1 a2) := by
  unfold State.letWriteGo
  repeat' first | with_reducible assumption | split | (simp only [Evolves.mk_iff]; apply Evolves.core) | (intro _) | dsimp only

theorem State.degrade_evolves {s0 : State} {a1 : State} {a2} (h : Evolves s0 a1) : Evolves s0 (State.degrade a1 a2) := by
  unfold State.degrade
  repeat' first | with_reducible assumption | with_reducible apply State.alarm_evolves | with_reducible apply State.finishOwed_evolves | with_reducible apply State.letWriteGo_evolves | with_reducible apply Evolves.foldl | split | (simp only [Evolves.mk_iff]; apply Evolves.core) | (intro _) | dsimp only

end Sys2Proof.Machine
end

