-- ==== Sys2Proof/Laws/EvolveStore.lean ====
section
/-! SUPPORT. No operation of `Machine/Store.lean` does what no command may do (`Evolves`). -/

namespace Sys2Proof.Machine

set_option linter.all false

theorem State.endSlotWait_evolves {s0 : State} {a1 : State} (h : Evolves s0 a1) : Evolves s0 (State.endSlotWait a1) := by
  unfold State.endSlotWait
  repeat' first | with_reducible assumption | with_reducible apply State.alarmEnd_evolves | split | (intro _) | dsimp only

theorem State.retireRegion_evolves {s0 : State} {a1 : State} {a2} (h : Evolves s0 a1) : Evolves s0 (State.retireRegion a1 a2) := by
  unfold State.retireRegion
  repeat' first | with_reducible assumption | with_reducible apply State.endSlotWait_evolves | with_reducible apply State.alarm_evolves | with_reducible apply State.logAt_evolves | split | (simp only [Evolves.mk_iff]; apply Evolves.core) | dsimp only

theorem State.startRetire_evolves {s0 : State} {a1 : State} {a2} {a3} (h : Evolves s0 a1) : Evolves s0 (State.startRetire a1 a2 a3) := by
  unfold State.startRetire
  repeat' first | with_reducible assumption | with_reducible apply State.retireRegion_evolves | split | (simp only [Evolves.mk_iff]; apply Evolves.core) | dsimp only

theorem State.setBank_evolves {s0 : State} {a1 : State} {a2} {a3} {a4} (h : Evolves s0 a1) : Evolves s0 (State.setBank a1 a2 a3 a4) := by
  unfold State.setBank
  repeat' first | with_reducible assumption | (simp only [Evolves.mk_iff]; apply Evolves.core) | dsimp only

theorem State.activateAt_evolves {s0 : State} {a1 : State} {a2} {a3} (h : Evolves s0 a1) : Evolves s0 (State.activateAt a1 a2 a3) := by
  unfold State.activateAt
  repeat' first | with_reducible assumption | with_reducible apply State.setBank_evolves | split | (simp only [Evolves.mk_iff]; apply Evolves.core) | dsimp only

theorem State.touch_evolves {s0 : State} {a1 : State} {a2} {a3} (h : Evolves s0 a1) : Evolves s0 (State.touch a1 a2 a3) := by
  unfold State.touch
  repeat' first | with_reducible assumption | with_reducible apply State.activateAt_evolves | with_reducible apply State.bump_evolves | split | dsimp only

theorem State.defer_evolves {s0 : State} {a1 : State} {a2} {a3} (h : Evolves s0 a1) : Evolves s0 (State.defer a1 a2 a3) := by
  unfold State.defer
  repeat' first | with_reducible assumption | (simp only [Evolves.mk_iff]; apply Evolves.core) | dsimp only

theorem State.chanWrite_evolves {s0 : State} {a1 : State} {a2} (h : Evolves s0 a1) : Evolves s0 (State.chanWrite a1 a2) := by
  unfold State.chanWrite
  repeat' first | with_reducible assumption | with_reducible apply State.defer_evolves | with_reducible apply State.touch_evolves | split | dsimp only

theorem State.zeroOn_evolves {s0 : State} {a1 : State} {a2} {a3} (h : Evolves s0 a1) : Evolves s0 (State.zeroOn a1 a2 a3) := by
  unfold State.zeroOn
  repeat' first | with_reducible assumption | with_reducible apply State.bump_evolves | with_reducible apply State.activateAt_evolves | with_reducible apply Evolves.foldl | split | (simp only [Evolves.mk_iff]; apply Evolves.core) | (intro _) | dsimp only

theorem State.zeroChan_evolves {s0 : State} {a1} {a2 : State} {a3} (h : Evolves s0 a2) : Evolves s0 (State.zeroChan a1 a2 a3) := by
  unfold State.zeroChan
  repeat' first | with_reducible assumption | with_reducible apply State.defer_evolves | with_reducible apply State.zeroOn_evolves | split | dsimp only

theorem State.zeroChans_evolves {s0 : State} {a1 : State} {a2} {a3} (h : Evolves s0 a1) : Evolves s0 (State.zeroChans a1 a2 a3) := by
  unfold State.zeroChans
  repeat' first | with_reducible assumption | with_reducible apply State.zeroChan_evolves | with_reducible apply Evolves.foldl | split | (intro _) | dsimp only

theorem State.keepLine_evolves {s0 : State} {a1 : State} {a2} (h : Evolves s0 a1) : Evolves s0 (State.keepLine a1 a2) := by
  unfold State.keepLine
  repeat' first | with_reducible assumption | split | (simp only [Evolves.mk_iff]; apply Evolves.core) | (intro _) | dsimp only

theorem State.countUe_evolves {s0 : State} {a1 : State} {a2} (h : Evolves s0 a1) : Evolves s0 (State.countUe a1 a2) := by
  unfold State.countUe
  repeat' first | with_reducible assumption | with_reducible apply State.bump_evolves | with_reducible apply State.bumpCount_evolves | split | (simp only [Evolves.mk_iff]; apply Evolves.core) | (intro _) | dsimp only

theorem State.logUe_evolves {s0 : State} {a1 : State} {a2} {a3} {a4} (h : Evolves s0 a1) : Evolves s0 (State.logUe a1 a2 a3 a4) := by
  unfold State.logUe
  repeat' first | with_reducible assumption | with_reducible apply State.logAt_evolves | split | dsimp only

theorem State.noteRepair_evolves {s0 : State} {a1 : State} {a2} (h : Evolves s0 a1) : Evolves s0 (State.noteRepair a1 a2) := by
  unfold State.noteRepair
  repeat' first | with_reducible assumption | (simp only [Evolves.mk_iff]; apply Evolves.core) | dsimp only

theorem State.repeatUe_evolves {s0 : State} {a1 : State} {a2} (h : Evolves s0 a1) : Evolves s0 (State.repeatUe a1 a2) := by
  unfold State.repeatUe
  repeat' first | with_reducible assumption | with_reducible apply State.startRetire_evolves | split | (intro _) | dsimp only

theorem State.postMediaEvent_evolves {s0 : State} {a1 : State} {a2} (h : Evolves s0 a1) : Evolves s0 (State.postMediaEvent a1 a2) := by
  unfold State.postMediaEvent
  repeat' first | with_reducible assumption | with_reducible apply State.emit_evolves | with_reducible apply Evolves.foldl | split | (simp only [Evolves.mk_iff]; apply Evolves.core) | (intro _) | dsimp only

theorem State.correctedRead_evolves {s0 : State} {a1 : State} {a2} {a3} (h : Evolves s0 a1) : Evolves s0 (State.correctedRead a1 a2 a3) := by
  unfold State.correctedRead
  repeat' first | with_reducible assumption | with_reducible apply State.bump_evolves | with_reducible apply State.bumpCount_evolves | with_reducible apply State.alarm_evolves | with_reducible apply State.startRetire_evolves | with_reducible apply Evolves.foldl | split | (simp only [Evolves.mk_iff]; apply Evolves.core) | (intro _) | dsimp only

theorem State.adviseRetire_evolves {s0 : State} {a1 : State} {a2} {a3} (h : Evolves s0 a1) : Evolves s0 (State.adviseRetire a1 a2 a3) := by
  unfold State.adviseRetire
  repeat' first | with_reducible assumption | with_reducible apply State.alarm_evolves | split | dsimp only

theorem State.uncorrectableRead_evolves {s0 : State} {a1 : State} {a2} {a3} {a4} (h : Evolves s0 a1) : Evolves s0 (State.uncorrectableRead a1 a2 a3 a4).2 := by
  unfold State.uncorrectableRead
  repeat' first | with_reducible assumption | with_reducible apply State.countUe_evolves | with_reducible apply State.startRetire_evolves | with_reducible apply State.logUe_evolves | with_reducible apply State.repeatUe_evolves | with_reducible apply State.noteRepair_evolves | with_reducible apply State.chanWrite_evolves | with_reducible apply State.putLine_evolves | with_reducible apply State.postMediaEvent_evolves | with_reducible apply State.adviseRetire_evolves | split | (simp only [Evolves.mk_iff]; apply Evolves.core) | dsimp only

theorem State.showMedia_evolves {s0 : State} {a1 : State} {a2} (h : Evolves s0 a1) : Evolves s0 (State.showMedia a1 a2) := by
  unfold State.showMedia
  repeat' first | with_reducible assumption | with_reducible apply State.correctedRead_evolves | with_reducible apply State.putLine_evolves | with_reducible apply State.countUe_evolves | split | (simp only [Evolves.mk_iff]; apply Evolves.core) | dsimp only

theorem State.sideRead_evolves {s0 : State} {a1} {a2 : State} {a3} (h : Evolves s0 a2) : Evolves s0 (State.sideRead a1 a2 a3) := by
  unfold State.sideRead
  repeat' first | with_reducible assumption | with_reducible apply State.defer_evolves | with_reducible apply State.showMedia_evolves | with_reducible apply State.touch_evolves | split | dsimp only

theorem State.showStripe_evolves {s0 : State} {a1 : State} {a2} {a3} (h : Evolves s0 a1) : Evolves s0 (State.showStripe a1 a2 a3) := by
  unfold State.showStripe
  repeat' first | with_reducible assumption | with_reducible apply State.sideRead_evolves | with_reducible apply Evolves.foldl | (intro _) | dsimp only

theorem State.showOwn_evolves {s0 : State} {a1 : State} {a2} {a3} (h : Evolves s0 a1) : Evolves s0 (State.showOwn a1 a2 a3) := by
  unfold State.showOwn
  repeat' first | with_reducible assumption | with_reducible apply State.uncorrectableRead_evolves | with_reducible apply State.showMedia_evolves | split | (simp only [Evolves.mk_iff]; apply Evolves.core) | (refine Evolves.snd_of (by assumption) ?_) | dsimp only

theorem State.oldRead_evolves {s0 : State} {a1 : State} {a2} {a3} (h : Evolves s0 a1) : Evolves s0 (State.oldRead a1 a2 a3) := by
  unfold State.oldRead
  repeat' first | with_reducible assumption | with_reducible apply State.defer_evolves | with_reducible apply State.showOwn_evolves | with_reducible apply State.touch_evolves | split | dsimp only

theorem State.showOld_evolves {s0 : State} {a1 : State} {a2} {a3} {a4} {a5} (h : Evolves s0 a1) : Evolves s0 (State.showOld a1 a2 a3 a4 a5) := by
  unfold State.showOld
  repeat' first | with_reducible assumption | with_reducible apply State.sideRead_evolves | with_reducible apply State.oldRead_evolves | with_reducible apply Evolves.foldl | split | (simp only [Evolves.mk_iff]; apply Evolves.core) | (intro _) | dsimp only

theorem State.putParity_evolves {s0 : State} {a1 : State} {a2} {a3} (h : Evolves s0 a1) : Evolves s0 (State.putParity a1 a2 a3) := by
  unfold State.putParity
  repeat' first | with_reducible assumption | with_reducible apply State.putLine_evolves | with_reducible apply State.chanWrite_evolves | (simp only [Evolves.mk_iff]; apply Evolves.core) | dsimp only

theorem State.healParity_evolves {s0 : State} {a1 : State} {a2} (h : Evolves s0 a1) : Evolves s0 (State.healParity a1 a2) := by
  unfold State.healParity
  repeat' first | with_reducible assumption | with_reducible apply State.putParity_evolves | split | (simp only [Evolves.mk_iff]; apply Evolves.core) | dsimp only

theorem State.countPoisonRead_evolves {s0 : State} {a1 : State} {a2} (h : Evolves s0 a1) : Evolves s0 (State.countPoisonRead a1 a2) := by
  unfold State.countPoisonRead
  repeat' first | with_reducible assumption | with_reducible apply State.bumpMeter_evolves | split | (simp only [Evolves.mk_iff]; apply Evolves.core) | dsimp only

theorem State.readFailed_evolves {s0 : State} {a1 : State} {a2} (h : Evolves s0 a1) : Evolves s0 (State.readFailed a1 a2).2 := by
  unfold State.readFailed
  repeat' first | with_reducible assumption | with_reducible apply State.countPoisonRead_evolves | split | (simp only [Evolves.mk_iff]; apply Evolves.core) | dsimp only

theorem State.readDram_evolves {s0 : State} {a1 : State} {a2} {a3} (h : Evolves s0 a1) : Evolves s0 (State.readDram a1 a2 a3).2 := by
  unfold State.readDram
  repeat' first | with_reducible assumption | with_reducible apply State.touch_evolves | with_reducible apply State.uncorrectableRead_evolves | with_reducible apply State.correctedRead_evolves | with_reducible apply State.putLine_evolves | with_reducible apply State.keepLine_evolves | with_reducible apply State.healParity_evolves | split | (simp only [Evolves.mk_iff]; apply Evolves.core) | (refine Evolves.snd_of (by assumption) ?_) | dsimp only

theorem State.readLine_evolves {s0 : State} {a1 : State} {a2} {a3} (h : Evolves s0 a1) : Evolves s0 (State.readLine a1 a2 a3).2 := by
  unfold State.readLine
  repeat' first | with_reducible assumption | with_reducible apply State.countPoisonRead_evolves | with_reducible apply State.readFailed_evolves | with_reducible apply State.readDram_evolves | split | dsimp only

theorem State.readHome_evolves {s0 : State} {a1 : State} {a2} {a3} {a4} (h : Evolves s0 a1) : Evolves s0 (State.readHome a1 a2 a3 a4).2 := by
  unfold State.readHome
  repeat' first | with_reducible assumption | with_reducible apply State.readLine_evolves | with_reducible apply State.showStripe_evolves | split | dsimp only

theorem State.chanServe_evolves {s0 : State} {a1} {a2 : State} {a3} (h : Evolves s0 a2) : Evolves s0 (State.chanServe a1 a2 a3) := by
  unfold State.chanServe
  repeat' first | with_reducible assumption | with_reducible apply State.touch_evolves | with_reducible apply State.showOwn_evolves | with_reducible apply State.showMedia_evolves | with_reducible apply State.zeroOn_evolves | split | (simp only [Evolves.mk_iff]; apply Evolves.core) | dsimp only

theorem State.serveChan_evolves {s0 : State} {a1 : State} {a2} (h : Evolves s0 a1) : Evolves s0 (State.serveChan a1 a2) := by
  unfold State.serveChan
  repeat' first | with_reducible assumption | with_reducible apply State.chanServe_evolves | with_reducible apply Evolves.foldl | (simp only [Evolves.mk_iff]; apply Evolves.core) | (intro _) | dsimp only

theorem State.compareWait_evolves {s0 : State} {a1} {a2} {a3} {a4 : State} {a5} (h : Evolves s0 a4) : Evolves s0 (State.compareWait a1 a2 a3 a4 a5) := by
  unfold State.compareWait
  repeat' first | with_reducible assumption | with_reducible apply State.modCmd_evolves | split | (simp only [Evolves.mk_iff]; apply Evolves.core) | (intro _) | dsimp only

theorem State.landed_evolves {s0 : State} {a1 : State} {a2} {a3} {a4} {a5} (h : Evolves s0 a1) : Evolves s0 (State.landed a1 a2 a3 a4 a5) := by
  unfold State.landed
  repeat' first | with_reducible assumption | with_reducible apply State.compareWait_evolves | with_reducible apply State.bump_evolves | with_reducible apply Evolves.foldl | split | (simp only [Evolves.mk_iff]; apply Evolves.core) | (intro _) | dsimp only

theorem State.updateParity_evolves {s0 : State} {a1 : State} {a2} {a3} {a4} (h : Evolves s0 a1) : Evolves s0 (State.updateParity a1 a2 a3 a4) := by
  unfold State.updateParity
  repeat' first | with_reducible assumption | with_reducible apply State.putParity_evolves | with_reducible apply State.logUe_evolves | split | (simp only [Evolves.mk_iff]; apply Evolves.core) | dsimp only

theorem State.mirrorWrite_evolves {s0 : State} {a1 : State} {a2} {a3} {a4} {a5} {a6} {a7} (h : Evolves s0 a1) : Evolves s0 (State.mirrorWrite a1 a2 a3 a4 a5 a6 a7).2 := by
  unfold State.mirrorWrite
  repeat' first | with_reducible assumption | with_reducible apply State.issue_evolves | with_reducible apply State.degrade_evolves | split | (simp only [Evolves.mk_iff]; apply Evolves.core) | (intro _) | (refine Evolves.snd_of (by assumption) ?_) | dsimp only

theorem State.rescueWrite_evolves {s0 : State} {a1 : State} {a2} {a3} {a4} {a5} (h : Evolves s0 a1) : Evolves s0 (State.rescueWrite a1 a2 a3 a4 a5) := by
  unfold State.rescueWrite
  repeat' first | with_reducible assumption | with_reducible apply State.chanWrite_evolves | with_reducible apply State.putLine_evolves | split | (simp only [Evolves.mk_iff]; apply Evolves.core) | dsimp only

theorem State.dropWrite_evolves {s0 : State} {a1 : State} {a2} (h : Evolves s0 a1) : Evolves s0 (State.dropWrite a1 a2) := by
  unfold State.dropWrite
  repeat' first | with_reducible assumption | with_reducible apply State.bumpMeter_evolves | split | (simp only [Evolves.mk_iff]; apply Evolves.core) | dsimp only

theorem State.writeParity_evolves {s0 : State} {a1 : State} {a2} {a3} (h : Evolves s0 a1) : Evolves s0 (State.writeParity a1 a2 a3) := by
  unfold State.writeParity
  repeat' first | with_reducible assumption | with_reducible apply State.updateParity_evolves | split | (simp only [Evolves.mk_iff]; apply Evolves.core) | dsimp only

theorem State.markWritten_evolves {s0 : State} {a1 : State} {a2} {a3} {a4} {a5} (h : Evolves s0 a1) : Evolves s0 (State.markWritten a1 a2 a3 a4 a5) := by
  unfold State.markWritten
  repeat' first | with_reducible assumption | split | (simp only [Evolves.mk_iff]; apply Evolves.core) | dsimp only

theorem State.putWritten_evolves {s0 : State} {a1 : State} {a2} {a3} {a4} (h : Evolves s0 a1) : Evolves s0 (State.putWritten a1 a2 a3 a4) := by
  unfold State.putWritten
  repeat' first | with_reducible assumption | with_reducible apply State.keepLine_evolves | with_reducible apply State.chanWrite_evolves | with_reducible apply State.putLine_evolves | split | dsimp only

theorem State.mirrorLine_evolves {s0 : State} {a1 : State} {a2} {a3} {a4} {a5} (h : Evolves s0 a1) : Evolves s0 (State.mirrorLine a1 a2 a3 a4 a5).2 := by
  unfold State.mirrorLine
  repeat' first | with_reducible assumption | with_reducible apply State.mirrorWrite_evolves | split | (simp only [Evolves.mk_iff]; apply Evolves.core) | (refine Evolves.snd_of (by assumption) ?_) | dsimp only

theorem State.setLine_evolves {s0 : State} {a1 : State} {a2} {a3} {a4} {a5} {a6} {a7} {a8} (h : Evolves s0 a1) : Evolves s0 (State.setLine a1 a2 a3 a4 a5 a6 a7 a8).2 := by
  unfold State.setLine
  repeat' first | with_reducible assumption | with_reducible apply State.writeParity_evolves | with_reducible apply State.putWritten_evolves | with_reducible apply State.markWritten_evolves | with_reducible apply State.mirrorLine_evolves | with_reducible apply State.rescueWrite_evolves | split | (simp only [Evolves.mk_iff]; apply Evolves.core) | dsimp only

theorem State.landBytes_evolves {s0 : State} {a1 : State} {a2} {a3} {a4} {a5} {a6} {a7} (h : Evolves s0 a1) : Evolves s0 (State.landBytes a1 a2 a3 a4 a5 a6 a7).2 := by
  unfold State.landBytes
  repeat' first | with_reducible assumption | with_reducible apply State.dropWrite_evolves | with_reducible apply State.setLine_evolves | split | dsimp only

theorem State.fetchCopy_evolves {s0 : State} {a1 : State} {a2} (h : Evolves s0 a1) : Evolves s0 (State.fetchCopy a1 a2).2 := by
  unfold State.fetchCopy
  repeat' first | with_reducible assumption | with_reducible apply State.issue_evolves | split | (simp only [Evolves.mk_iff]; apply Evolves.core) | (refine Evolves.snd_of (by assumption) ?_) | dsimp only

theorem State.partnerLost_evolves {s0 : State} {a1 : State} {a2} (h : Evolves s0 a1) : Evolves s0 (State.partnerLost a1 a2) := by
  unfold State.partnerLost
  repeat' first | with_reducible assumption | with_reducible apply State.countPoisonRead_evolves | with_reducible apply State.postMediaEvent_evolves | with_reducible apply State.logUe_evolves | split | dsimp only

theorem State.landNow_evolves {s0 : State} {a1 : State} {a2} {a3} {a4} {a5} {a6} {a7} {a8} (h : Evolves s0 a1) : Evolves s0 (State.landNow a1 a2 a3 a4 a5 a6 a7 a8).2 := by
  unfold State.landNow
  repeat' first | with_reducible assumption | with_reducible apply State.landBytes_evolves | with_reducible apply State.landed_evolves | split | dsimp only

theorem State.landLine_evolves {s0 : State} {a1 : State} {a2} {a3} {a4} {a5} {a6} {a7} {a8} (h : Evolves s0 a1) : Evolves s0 (State.landLine a1 a2 a3 a4 a5 a6 a7 a8).2 := by
  unfold State.landLine
  repeat' first | with_reducible assumption | with_reducible apply State.fetchCopy_evolves | with_reducible apply State.landNow_evolves | with_reducible apply State.partnerLost_evolves | split | (simp only [Evolves.mk_iff]; apply Evolves.core) | (refine Evolves.snd_of (by assumption) ?_) | dsimp only

theorem State.ownLine_evolves {s0 : State} {a1 : State} {a2} {a3} {a4} {a5} {a6} (h : Evolves s0 a1) : Evolves s0 (State.ownLine a1 a2 a3 a4 a5 a6) := by
  unfold State.ownLine
  repeat' first | with_reducible assumption | with_reducible apply State.dropWrite_evolves | with_reducible apply State.charge_evolves | with_reducible apply State.wait_evolves | with_reducible apply State.landLine_evolves | split | dsimp only

theorem State.ownWrite_evolves {s0 : State} {a1 : State} {a2} {a3} {a4} (h : Evolves s0 a1) : Evolves s0 (State.ownWrite a1 a2 a3 a4) := by
  unfold State.ownWrite
  repeat' first | with_reducible assumption | with_reducible apply State.ownLine_evolves | with_reducible apply Evolves.foldl | (intro _) | dsimp only

theorem State.landedLine_evolves {s0 : State} {a1 : State} {a2} {a3} (h : Evolves s0 a1) : Evolves s0 (State.landedLine a1 a2 a3).2 := by
  unfold State.landedLine
  repeat' first | with_reducible assumption | with_reducible apply State.readHome_evolves | with_reducible apply State.charge_evolves | with_reducible apply State.fetchCopy_evolves | with_reducible apply State.partnerLost_evolves | split | (simp only [Evolves.mk_iff]; apply Evolves.core) | (refine Evolves.snd_of (by assumption) ?_) | dsimp only

theorem State.ownReadLine_evolves {s0 : State} {a1 : State} {a2} {a3} {a4} (h : Evolves s0 a1) : Evolves s0 (State.ownReadLine a1 a2 a3 a4).2 := by
  unfold State.ownReadLine
  repeat' first | with_reducible assumption | with_reducible apply State.wait_evolves | with_reducible apply State.landedLine_evolves | split | (simp only [Evolves.mk_iff]; apply Evolves.core) | (intro _) | (refine Evolves.snd_of (by assumption) ?_) | dsimp only

theorem State.ownReadLines_evolves {s0 : State} {a1 : State} {a2} {a3} {a4} (h : Evolves s0 a1) : Evolves s0 (State.ownReadLines a1 a2 a3 a4).2 := by
  unfold State.ownReadLines
  repeat' first | with_reducible assumption | with_reducible apply State.countPoisonRead_evolves | with_reducible apply State.ownReadLine_evolves | with_reducible apply Evolves.foldl | with_reducible apply Evolves.foldl_snd | split | (intro _) | (refine Evolves.snd_of (by assumption) ?_) | dsimp only

theorem State.ownRead_evolves {s0 : State} {a1 : State} {a2} {a3} {a4} (h : Evolves s0 a1) : Evolves s0 (State.ownRead a1 a2 a3 a4).2 := by
  unfold State.ownRead
  repeat' first | with_reducible assumption | with_reducible apply State.ownReadLines_evolves | split | (simp only [Evolves.mk_iff]; apply Evolves.core) | dsimp only

end Sys2Proof.Machine
end

