-- ==== Sys2Proof/Laws/EvolveAccess.lean ====
section
/-! SUPPORT. No operation of `Machine/Access.lean` does what no command may do (`Evolves`). -/

namespace Sys2Proof.Machine

set_option linter.all false

theorem State.modHead_evolves {s0 : State} {a1 : State} {a2} {a3} (h : Evolves s0 a1) : Evolves s0 (State.modHead a1 a2 a3) := by
  unfold State.modHead
  repeat' first | with_reducible assumption | (simp only [Evolves.mk_iff]; apply Evolves.core) | dsimp only

theorem State.landSetup_evolves {s0 : State} {a1 : State} {a2} (h : Evolves s0 a1) : Evolves s0 (State.landSetup a1 a2) := by
  unfold State.landSetup
  repeat' first | with_reducible assumption | (simp only [Evolves.mk_iff]; apply Evolves.core) | dsimp only

theorem State.setupWrite_evolves {s0 : State} {a1 : State} {a2} {a3 : State → State} (hf : ∀ t, Evolves s0 t → Evolves s0 (a3 t)) (h : Evolves s0 a1) : Evolves s0 (State.setupWrite a1 a2 a3) := by
  unfold State.setupWrite
  repeat' first | with_reducible assumption | apply hf | with_reducible apply State.landSetup_evolves | split | (intro _) | dsimp only

theorem State.meterAt_evolves {s0 : State} {a1 : State} {a2} {a3} (h : Evolves s0 a1) : Evolves s0 (State.meterAt a1 a2 a3) := by
  unfold State.meterAt
  repeat' first | with_reducible assumption | with_reducible apply State.bumpMeter_evolves | split | (simp only [Evolves.mk_iff]; apply Evolves.core) | dsimp only

theorem State.countAt_evolves {s0 : State} {a1 : State} {a2} {a3} {a4} (h : Evolves s0 a1) : Evolves s0 (State.countAt a1 a2 a3 a4) := by
  unfold State.countAt
  repeat' first | with_reducible assumption | with_reducible apply State.bumpCount_evolves | split | (simp only [Evolves.mk_iff]; apply Evolves.core) | dsimp only

theorem State.setFlagSrc_evolves {s0 : State} {a1 : State} {a2} {a3} (h : Evolves s0 a1) : Evolves s0 (State.setFlagSrc a1 a2 a3) := by
  unfold State.setFlagSrc
  repeat' first | with_reducible assumption | (simp only [Evolves.mk_iff]; apply Evolves.core) | dsimp only

theorem State.countWrites_evolves {s0 : State} {a1 : State} {a2} {a3} (h : Evolves s0 a1) : Evolves s0 (State.countWrites a1 a2 a3) := by
  unfold State.countWrites
  repeat' first | with_reducible assumption | with_reducible apply State.setFlagSrc_evolves | (simp only [Evolves.mk_iff]; apply Evolves.core) | dsimp only

theorem State.refuseWrite_evolves {s0 : State} {a1 : State} {a2} {a3} (h : Evolves s0 a1) : Evolves s0 (State.refuseWrite a1 a2 a3) := by
  unfold State.refuseWrite
  repeat' first | with_reducible assumption | with_reducible apply State.countWrites_evolves | with_reducible apply State.meterAt_evolves | dsimp only

theorem State.refuseRead_evolves {s0 : State} {a1 : State} {a2} (h : Evolves s0 a1) : Evolves s0 (State.refuseRead a1 a2) := by
  unfold State.refuseRead
  repeat' first | with_reducible assumption | with_reducible apply State.meterAt_evolves | dsimp only

theorem State.readLost_evolves {s0 : State} {a1 : State} {a2} (h : Evolves s0 a1) : Evolves s0 (State.readLost a1 a2) := by
  unfold State.readLost
  repeat' first | with_reducible assumption | with_reducible apply State.respond_evolves | with_reducible apply State.partnerLost_evolves | dsimp only

theorem State.readFor_evolves {s0 : State} {a1 : State} {a2} {a3} (h : Evolves s0 a1) : Evolves s0 (State.readFor a1 a2 a3) := by
  unfold State.readFor
  repeat' first | with_reducible assumption | with_reducible apply State.readHome_evolves | with_reducible apply State.fetchCopy_evolves | with_reducible apply State.readLost_evolves | with_reducible apply State.respond_evolves | split | (simp only [Evolves.mk_iff]; apply Evolves.core) | (refine Evolves.snd_of (by assumption) ?_) | dsimp only

theorem State.serveHeld_evolves {s0 : State} {a1 : State} {a2} (h : Evolves s0 a1) : Evolves s0 (State.serveHeld a1 a2) := by
  unfold State.serveHeld
  repeat' first | with_reducible assumption | with_reducible apply State.readFor_evolves | split | (simp only [Evolves.mk_iff]; apply Evolves.core) | dsimp only

theorem State.serveRead_evolves {s0 : State} {a1 : State} {a2} (h : Evolves s0 a1) : Evolves s0 (State.serveRead a1 a2) := by
  unfold State.serveRead
  repeat' first | with_reducible assumption | with_reducible apply State.serveHeld_evolves | with_reducible apply State.readFor_evolves | split | dsimp only

theorem State.endCalWait_evolves {s0 : State} {a1 : State} {a2} (h : Evolves s0 a1) : Evolves s0 (State.endCalWait a1 a2) := by
  unfold State.endCalWait
  repeat' first | with_reducible assumption | with_reducible apply State.ackConflicts_evolves | with_reducible apply State.serveHeld_evolves | with_reducible apply State.serveChan_evolves | with_reducible apply Evolves.foldl | (simp only [Evolves.mk_iff]; apply Evolves.core) | (intro _) | dsimp only

theorem State.completeWrite_evolves {s0 : State} {a1 : State} {a2} {a3} (h : Evolves s0 a1) : Evolves s0 (State.completeWrite a1 a2 a3) := by
  unfold State.completeWrite
  repeat' first | with_reducible assumption | with_reducible apply State.respond_evolves | split | (simp only [Evolves.mk_iff]; apply Evolves.core) | dsimp only

theorem State.flagAction_evolves {s0 : State} {a1 : State} {a2} {a3} {a4} {a5} {a6} (h : Evolves s0 a1) : Evolves s0 (State.flagAction a1 a2 a3 a4 a5 a6).2 := by
  unfold State.flagAction
  repeat' first | with_reducible assumption | with_reducible apply State.landed_evolves | with_reducible apply State.landLine_evolves | split | dsimp only

theorem State.logFlag_evolves {s0 : State} {a1 : State} {a2} {a3} {a4} {a5} (h : Evolves s0 a1) : Evolves s0 (State.logFlag a1 a2 a3 a4 a5) := by
  unfold State.logFlag
  repeat' first | with_reducible assumption | with_reducible apply State.bump_evolves | with_reducible apply State.countAt_evolves | with_reducible apply State.logAt_evolves | split | dsimp only

theorem State.completeLanded_evolves {s0 : State} {a1 : State} {a2} {a3} {a4} (h : Evolves s0 a1) : Evolves s0 (State.completeLanded a1 a2 a3 a4) := by
  unfold State.completeLanded
  repeat' first | with_reducible assumption | with_reducible apply State.completeWrite_evolves | split | (simp only [Evolves.mk_iff]; apply Evolves.core) | (intro _) | dsimp only

theorem State.countLanding_evolves {s0 : State} {a1 : State} {a2} (h : Evolves s0 a1) : Evolves s0 (State.countLanding a1 a2) := by
  unfold State.countLanding
  repeat' first | with_reducible assumption | with_reducible apply State.countAt_evolves | split | dsimp only

theorem State.landHere_evolves {s0 : State} {a1 : State} {a2} (h : Evolves s0 a1) : Evolves s0 (State.landHere a1 a2) := by
  unfold State.landHere
  repeat' first | with_reducible assumption | with_reducible apply State.flagAction_evolves | with_reducible apply State.completeLanded_evolves | with_reducible apply State.logFlag_evolves | with_reducible apply State.landLine_evolves | with_reducible apply State.countLanding_evolves | split | dsimp only

theorem State.landWithout_evolves {s0 : State} {a1 : State} {a2} (h : Evolves s0 a1) : Evolves s0 (State.landWithout a1 a2) := by
  unfold State.landWithout
  repeat' first | with_reducible assumption | with_reducible apply State.landHere_evolves | with_reducible apply State.partnerLost_evolves | (simp only [Evolves.mk_iff]; apply Evolves.core) | dsimp only

theorem State.landReq_evolves {s0 : State} {a1 : State} {a2} (h : Evolves s0 a1) : Evolves s0 (State.landReq a1 a2) := by
  unfold State.landReq
  repeat' first | with_reducible assumption | with_reducible apply State.showOld_evolves | with_reducible apply State.fetchCopy_evolves | with_reducible apply State.landWithout_evolves | with_reducible apply State.landHere_evolves | split | (simp only [Evolves.mk_iff]; apply Evolves.core) | (refine Evolves.snd_of (by assumption) ?_) | dsimp only

end Sys2Proof.Machine
end

