-- ==== Sys2Proof/Laws/EvolveCoherence.lean ====
section
/-! SUPPORT. No operation of `Machine/Coherence.lean` does what no command may do (`Evolves`). -/

namespace Sys2Proof.Machine

set_option linter.all false

theorem State.setDir_evolves {s0 : State} {a1 : State} {a2} {a3} (h : Evolves s0 a1) : Evolves s0 (State.setDir a1 a2 a3) := by
  unfold State.setDir
  repeat' first | with_reducible assumption | split | (simp only [Evolves.mk_iff]; apply Evolves.core) | dsimp only

theorem State.newDir_evolves {s0 : State} {a1 : State} {a2} {a3} {a4} (h : Evolves s0 a1) : Evolves s0 (State.newDir a1 a2 a3 a4) := by
  unfold State.newDir
  repeat' first | with_reducible assumption | (simp only [Evolves.mk_iff]; apply Evolves.core) | dsimp only

theorem State.putLost_evolves {s0 : State} {a1 : State} {a2} {a3} (h : Evolves s0 a1) : Evolves s0 (State.putLost a1 a2 a3) := by
  unfold State.putLost
  repeat' first | with_reducible assumption | with_reducible apply State.charge_evolves | with_reducible apply State.wait_evolves | with_reducible apply State.landReq_evolves | split | dsimp only

theorem State.loseLine_evolves {s0 : State} {a1 : State} {a2} {a3} {a4} {a5} (h : Evolves s0 a1) : Evolves s0 (State.loseLine a1 a2 a3 a4 a5) := by
  unfold State.loseLine
  repeat' first | with_reducible assumption | with_reducible apply State.putLost_evolves | split | (simp only [Evolves.mk_iff]; apply Evolves.core) | dsimp only

theorem State.tellBuf_evolves {s0 : State} {a1 : State} {a2} {a3} {a4} (h : Evolves s0 a1) : Evolves s0 (State.tellBuf a1 a2 a3 a4) := by
  unfold State.tellBuf
  repeat' first | with_reducible assumption | (simp only [Evolves.mk_iff]; apply Evolves.core) | dsimp only

theorem State.sendSnoop_evolves {s0 : State} {a1} {a2 : State} {a3} (h : Evolves s0 a2) : Evolves s0 (State.sendSnoop a1 a2 a3) := by
  unfold State.sendSnoop
  repeat' first | with_reducible assumption | with_reducible apply State.emit_evolves | split | (simp only [Evolves.mk_iff]; apply Evolves.core) | (intro _) | dsimp only

theorem State.pumpSnoops_evolves {s0 : State} {a1 : State} {a2} (h : Evolves s0 a1) : Evolves s0 (State.pumpSnoops a1 a2) := by
  unfold State.pumpSnoops
  repeat' first | with_reducible assumption | with_reducible apply State.sendSnoop_evolves | with_reducible apply Evolves.foldl | (intro _) | dsimp only

theorem State.track_evolves {s0 : State} {a1 : State} {a2} {a3} {a4} {a5} (h : Evolves s0 a1) : Evolves s0 (State.track a1 a2 a3 a4 a5).2 := by
  unfold State.track
  repeat' first | with_reducible assumption | with_reducible apply State.setDir_evolves | with_reducible apply State.newDir_evolves | split | (simp only [Evolves.mk_iff]; apply Evolves.core) | (intro _) | dsimp only

theorem State.grantReq_evolves {s0 : State} {a1 : State} {a2} {a3} {a4} (h : Evolves s0 a1) : Evolves s0 (State.grantReq a1 a2 a3 a4) := by
  unfold State.grantReq
  repeat' first | with_reducible assumption | with_reducible apply State.respond_evolves | with_reducible apply State.serveRead_evolves | split | (simp only [Evolves.mk_iff]; apply Evolves.core) | dsimp only

theorem State.uncachedAnswer_evolves {s0 : State} {a1 : State} {a2} (h : Evolves s0 a1) : Evolves s0 (State.uncachedAnswer a1 a2) := by
  unfold State.uncachedAnswer
  repeat' first | with_reducible assumption | with_reducible apply State.respond_evolves | with_reducible apply State.serveRead_evolves | split | (simp only [Evolves.mk_iff]; apply Evolves.core) | dsimp only

theorem State.soleHolder_evolves {s0 : State} {a1 : State} {a2} {a3} {a4} (h : Evolves s0 a1) : Evolves s0 (State.soleHolder a1 a2 a3 a4) := by
  unfold State.soleHolder
  repeat' first | with_reducible assumption | with_reducible apply State.uncachedAnswer_evolves | with_reducible apply State.track_evolves | with_reducible apply State.grantReq_evolves | split | (refine Evolves.snd_of (by assumption) ?_) | dsimp only

theorem State.readFromI_evolves {s0 : State} {a1 : State} {a2} (h : Evolves s0 a1) : Evolves s0 (State.readFromI a1 a2) := by
  unfold State.readFromI
  repeat' first | with_reducible assumption | with_reducible apply State.uncachedAnswer_evolves | with_reducible apply State.soleHolder_evolves | with_reducible apply State.track_evolves | with_reducible apply State.grantReq_evolves | split | (refine Evolves.snd_of (by assumption) ?_) | dsimp only

theorem State.joinSharers_evolves {s0 : State} {a1 : State} {a2} {a3} (h : Evolves s0 a1) : Evolves s0 (State.joinSharers a1 a2 a3) := by
  unfold State.joinSharers
  repeat' first | with_reducible assumption | with_reducible apply State.uncachedAnswer_evolves | with_reducible apply State.readFromI_evolves | with_reducible apply State.grantReq_evolves | with_reducible apply State.setDir_evolves | split | (simp only [Evolves.mk_iff]; apply Evolves.core) | dsimp only

theorem State.endShareRead_evolves {s0 : State} {a1 : State} {a2} {a3} {a4} {a5} (h : Evolves s0 a1) : Evolves s0 (State.endShareRead a1 a2 a3 a4 a5) := by
  unfold State.endShareRead
  repeat' first | with_reducible assumption | with_reducible apply State.uncachedAnswer_evolves | with_reducible apply State.track_evolves | with_reducible apply State.grantReq_evolves | with_reducible apply State.readFromI_evolves | split | (simp only [Evolves.mk_iff]; apply Evolves.core) | (refine Evolves.snd_of (by assumption) ?_) | dsimp only

theorem State.settleReq_evolves {s0 : State} {a1 : State} {a2} {a3} (h : Evolves s0 a1) : Evolves s0 (State.settleReq a1 a2 a3) := by
  unfold State.settleReq
  repeat' first | with_reducible assumption | with_reducible apply State.landReq_evolves | with_reducible apply State.respond_evolves | with_reducible apply State.soleHolder_evolves | with_reducible apply State.readFromI_evolves | with_reducible apply State.joinSharers_evolves | with_reducible apply State.endShareRead_evolves | with_reducible apply State.setDir_evolves | with_reducible apply State.grantReq_evolves | with_reducible apply State.serveRead_evolves | split | (simp only [Evolves.mk_iff]; apply Evolves.core) | (intro _) | dsimp only

theorem State.settle_evolves {s0 : State} {a1 : State} {a2} {a3} (h : Evolves s0 a1) : Evolves s0 (State.settle a1 a2 a3) := by
  unfold State.settle
  repeat' first | with_reducible assumption | with_reducible apply State.settleReq_evolves | with_reducible apply State.setDir_evolves | split | (simp only [Evolves.mk_iff]; apply Evolves.core) | dsimp only

theorem State.answered_evolves {s0 : State} {a1 : State} {a2} {a3} {a4} {a5} {a6} {a7} (h : Evolves s0 a1) : Evolves s0 (State.answered a1 a2 a3 a4 a5 a6 a7) := by
  unfold State.answered
  repeat' first | with_reducible assumption | with_reducible apply State.landLine_evolves | with_reducible apply State.settle_evolves | split | (simp only [Evolves.mk_iff]; apply Evolves.core) | (intro _) | (refine Evolves.snd_of (by assumption) ?_) | dsimp only

theorem State.walkEntry_evolves {s0 : State} {a1} {a2} {a3} {a4} (h : Evolves s0 a3.1) : Evolves s0 (State.walkEntry a1 a2 a3 a4).1 := by
  unfold State.walkEntry
  repeat' first | with_reducible assumption | with_reducible apply State.loseLine_evolves | with_reducible apply State.setDir_evolves | split | (simp only [Evolves.mk_iff]; apply Evolves.core) | dsimp only

theorem State.declareDown_evolves {s0 : State} {a1 : State} {a2} {a3} (h : Evolves s0 a1) : Evolves s0 (State.declareDown a1 a2 a3) := by
  unfold State.declareDown
  repeat' first | with_reducible assumption | with_reducible apply State.walkEntry_evolves | with_reducible apply State.alarm_evolves | with_reducible apply State.answered_evolves | with_reducible apply State.pumpSnoops_evolves | with_reducible apply Evolves.foldl | with_reducible apply Evolves.foldl_fst | split | (simp only [Evolves.mk_iff]; apply Evolves.core) | (intro _) | (refine Evolves.fst_of (by assumption) ?_) | dsimp only

theorem State.startTrans_evolves {s0 : State} {a1 : State} {a2} {a3} {a4} {a5} {a6} (h : Evolves s0 a1) : Evolves s0 (State.startTrans a1 a2 a3 a4 a5 a6) := by
  unfold State.startTrans
  repeat' first | with_reducible assumption | with_reducible apply State.settle_evolves | with_reducible apply State.tellBuf_evolves | with_reducible apply State.pumpSnoops_evolves | with_reducible apply Evolves.foldl | split | (simp only [Evolves.mk_iff]; apply Evolves.core) | (intro _) | dsimp only

theorem State.dropUnrouted_evolves {s0 : State} {a1 : State} {a2} (h : Evolves s0 a1) : Evolves s0 (State.dropUnrouted a1 a2) := by
  unfold State.dropUnrouted
  repeat' first | with_reducible assumption | with_reducible apply State.declareDown_evolves | with_reducible apply Evolves.foldl | split | (intro _) | dsimp only

theorem State.evictLine_evolves {s0 : State} {a1 : State} {a2} {a3} (h : Evolves s0 a1) : Evolves s0 (State.evictLine a1 a2 a3) := by
  unfold State.evictLine
  repeat' first | with_reducible assumption | with_reducible apply State.dropUnrouted_evolves | with_reducible apply State.startTrans_evolves | split | (simp only [Evolves.mk_iff]; apply Evolves.core) | dsimp only

theorem State.evictBroadcast_evolves {s0 : State} {a1 : State} {a2} (h : Evolves s0 a1) : Evolves s0 (State.evictBroadcast a1 a2) := by
  unfold State.evictBroadcast
  repeat' first | with_reducible assumption | with_reducible apply State.dropUnrouted_evolves | with_reducible apply State.startTrans_evolves | dsimp only

theorem State.countAdmitted_evolves {s0 : State} {a1 : State} {a2} (h : Evolves s0 a1) : Evolves s0 (State.countAdmitted a1 a2) := by
  unfold State.countAdmitted
  repeat' first | with_reducible assumption | with_reducible apply State.charge_evolves | with_reducible apply State.countWrites_evolves | with_reducible apply State.countAt_evolves | split | (simp only [Evolves.mk_iff]; apply Evolves.core) | dsimp only

theorem State.recallFor_evolves {s0 : State} {a1 : State} {a2} {a3} (h : Evolves s0 a1) : Evolves s0 (State.recallFor a1 a2 a3).2 := by
  unfold State.recallFor
  repeat' first | with_reducible assumption | with_reducible apply State.evictLine_evolves | split | (simp only [Evolves.mk_iff]; apply Evolves.core) | dsimp only

theorem State.makeRoom_evolves {s0 : State} {a1 : State} {a2} (h : Evolves s0 a1) : Evolves s0 (State.makeRoom a1 a2).2.2 := by
  unfold State.makeRoom
  repeat' first | with_reducible assumption | with_reducible apply State.recallFor_evolves | split | dsimp only

theorem State.admitI_evolves {s0 : State} {a1 : State} {a2} (h : Evolves s0 a1) : Evolves s0 (State.admitI a1 a2).2.2 := by
  unfold State.admitI
  repeat' first | with_reducible assumption | with_reducible apply State.serveRead_evolves | with_reducible apply State.countAdmitted_evolves | with_reducible apply State.landReq_evolves | with_reducible apply State.respond_evolves | with_reducible apply State.makeRoom_evolves | with_reducible apply State.uncachedAnswer_evolves | with_reducible apply State.readFromI_evolves | with_reducible apply State.soleHolder_evolves | split | (simp only [Evolves.mk_iff]; apply Evolves.core) | (refine Evolves.trd_of (by assumption) ?_) | dsimp only

theorem State.admitHeld_evolves {s0 : State} {a1 : State} {a2} {a3} (h : Evolves s0 a1) : Evolves s0 (State.admitHeld a1 a2 a3).2 := by
  unfold State.admitHeld
  repeat' first | with_reducible assumption | with_reducible apply State.countAdmitted_evolves | with_reducible apply State.serveRead_evolves | with_reducible apply State.joinSharers_evolves | with_reducible apply State.startTrans_evolves | split | (simp only [Evolves.mk_iff]; apply Evolves.core) | dsimp only

theorem State.admitRest_evolves {s0 : State} {a1 : State} {a2} (h : Evolves s0 a1) : Evolves s0 (State.admitRest a1 a2).2.2 := by
  unfold State.admitRest
  repeat' first | with_reducible assumption | with_reducible apply State.uncachedAnswer_evolves | with_reducible apply State.countAdmitted_evolves | with_reducible apply State.admitI_evolves | with_reducible apply State.admitHeld_evolves | split | (simp only [Evolves.mk_iff]; apply Evolves.core) | (refine Evolves.snd_of (by assumption) ?_) | (refine Evolves.trd_of (by assumption) ?_) | dsimp only

theorem State.dropSnooped_evolves {s0 : State} {a1 : State} {a2} (h : Evolves s0 a1) : Evolves s0 (State.dropSnooped a1 a2) := by
  unfold State.dropSnooped
  repeat' first | with_reducible assumption | with_reducible apply State.dropUnrouted_evolves | split | (simp only [Evolves.mk_iff]; apply Evolves.core) | dsimp only

theorem State.takeWriteback_evolves {s0 : State} {a1 : State} {a2} {a3} (h : Evolves s0 a1) : Evolves s0 (State.takeWriteback a1 a2 a3) := by
  unfold State.takeWriteback
  repeat' first | with_reducible assumption | with_reducible apply State.landReq_evolves | with_reducible apply State.setDir_evolves | with_reducible apply State.countAdmitted_evolves | split | (simp only [Evolves.mk_iff]; apply Evolves.core) | dsimp only

theorem State.leaveOwn_evolves {s0 : State} {a1 : State} {a2} {a3} (h : Evolves s0 a1) : Evolves s0 (State.leaveOwn a1 a2 a3) := by
  unfold State.leaveOwn
  repeat' first | with_reducible assumption | with_reducible apply State.setDir_evolves | split | dsimp only

theorem State.giveUp_evolves {s0 : State} {a1 : State} {a2} (h : Evolves s0 a1) : Evolves s0 (State.giveUp a1 a2) := by
  unfold State.giveUp
  repeat' first | with_reducible assumption | with_reducible apply State.respond_evolves | with_reducible apply State.leaveOwn_evolves | with_reducible apply State.countAdmitted_evolves | split | (simp only [Evolves.mk_iff]; apply Evolves.core) | dsimp only

theorem State.admitEntry_evolves {s0 : State} {a1 : State} {a2} (h : Evolves s0 a1) : Evolves s0 (State.admitEntry a1 a2).2.2 := by
  unfold State.admitEntry
  repeat' first | with_reducible assumption | with_reducible apply State.giveUp_evolves | with_reducible apply State.uncachedAnswer_evolves | with_reducible apply State.countAdmitted_evolves | with_reducible apply State.admitI_evolves | with_reducible apply State.takeWriteback_evolves | with_reducible apply State.admitRest_evolves | with_reducible apply State.dropSnooped_evolves | with_reducible apply State.leaveOwn_evolves | split | (simp only [Evolves.mk_iff]; apply Evolves.core) | (refine Evolves.trd_of (by assumption) ?_) | dsimp only

theorem State.countDirFix_evolves {s0 : State} {a1 : State} {a2} (h : Evolves s0 a1) : Evolves s0 (State.countDirFix a1 a2) := by
  unfold State.countDirFix
  repeat' first | with_reducible assumption | split | (simp only [Evolves.mk_iff]; apply Evolves.core) | dsimp only

theorem State.serveSoft_evolves {s0 : State} {a1 : State} {a2} (h : Evolves s0 a1) : Evolves s0 (State.serveSoft a1 a2) := by
  unfold State.serveSoft
  repeat' first | with_reducible assumption | with_reducible apply State.countAdmitted_evolves | with_reducible apply State.landReq_evolves | with_reducible apply State.serveRead_evolves | with_reducible apply State.respond_evolves | split | (simp only [Evolves.mk_iff]; apply Evolves.core) | dsimp only

theorem State.refuseLate_evolves {s0 : State} {a1 : State} {a2} (h : Evolves s0 a1) : Evolves s0 (State.refuseLate a1 a2) := by
  unfold State.refuseLate
  repeat' first | with_reducible assumption | with_reducible apply State.respond_evolves | with_reducible apply State.refuseRead_evolves | with_reducible apply State.refuseWrite_evolves | with_reducible apply State.logFlag_evolves | with_reducible apply State.dropWrite_evolves | with_reducible apply State.modCmd_evolves | split | (simp only [Evolves.mk_iff]; apply Evolves.core) | dsimp only

theorem State.tryAdmit_evolves {s0 : State} {a1 : State} {a2} (h : Evolves s0 a1) : Evolves s0 (State.tryAdmit a1 a2).2.2 := by
  unfold State.tryAdmit
  repeat' first | with_reducible assumption | with_reducible apply State.refuseLate_evolves | with_reducible apply State.serveSoft_evolves | with_reducible apply State.evictBroadcast_evolves | with_reducible apply State.alarm_evolves | with_reducible apply State.admitEntry_evolves | with_reducible apply State.countDirFix_evolves | split | (simp only [Evolves.mk_iff]; apply Evolves.core) | dsimp only

theorem State.landAddressed_evolves {s0 : State} {a1 : State} {a2} (h : Evolves s0 a1) : Evolves s0 (State.landAddressed a1 a2) := by
  unfold State.landAddressed
  repeat' first | with_reducible assumption | with_reducible apply State.landReq_evolves | with_reducible apply State.countAdmitted_evolves | split | (simp only [Evolves.mk_iff]; apply Evolves.core) | (intro _) | dsimp only

theorem State.submit_evolves {s0 : State} {a1 : State} {a2} (h : Evolves s0 a1) : Evolves s0 (State.submit a1 a2) := by
  unfold State.submit
  repeat' first | with_reducible assumption | with_reducible apply State.uncachedAnswer_evolves | with_reducible apply State.countAdmitted_evolves | with_reducible apply State.landAddressed_evolves | with_reducible apply State.wait_evolves | with_reducible apply State.tryAdmit_evolves | split | (simp only [Evolves.mk_iff]; apply Evolves.core) | (intro _) | (refine Evolves.trd_of (by assumption) ?_) | dsimp only

theorem State.keepWaiting_evolves {s0 : State} {a1 : State} {a2} {a3} {a4} (h : Evolves s0 a1) : Evolves s0 (State.keepWaiting a1 a2 a3 a4) := by
  unfold State.keepWaiting
  repeat' first | with_reducible assumption | (simp only [Evolves.mk_iff]; apply Evolves.core) | dsimp only

theorem State.admitWaiting_evolves {s0 : State} {a1 : State} {a2} {a3} {a4} (h : Evolves s0 a1) : Evolves s0 (State.admitWaiting a1 a2 a3 a4) := by
  induction a3 generalizing a4 a1 with
  | nil =>
    unfold State.admitWaiting
    repeat' first | with_reducible assumption | with_reducible apply State.tryAdmit_evolves | with_reducible apply State.keepWaiting_evolves | split | (intro _) | (refine Evolves.trd_of (by assumption) ?_) | dsimp only
  | cons x t ih =>
    unfold State.admitWaiting
    repeat' first | with_reducible assumption | with_reducible apply ih | with_reducible apply State.tryAdmit_evolves | with_reducible apply State.keepWaiting_evolves | split | (intro _) | (refine Evolves.trd_of (by assumption) ?_) | dsimp only

end Sys2Proof.Machine
end

