-- ==== Sys2Proof/Laws/EvolveFlags.lean ====
section
/-! SUPPORT. No operation of `Machine/Flags.lean` does what no command may do (`Evolves`). -/

namespace Sys2Proof.Machine

set_option linter.all false

theorem State.dropHeld_evolves {s0 : State} {a1 : State} {a2} {a3} {a4} (h : Evolves s0 a1) : Evolves s0 (State.dropHeld a1 a2 a3 a4) := by
  unfold State.dropHeld
  repeat' first | with_reducible assumption | with_reducible apply State.flagCpl_evolves | with_reducible apply State.logFlag_evolves | split | dsimp only

theorem State.skipRevoked_evolves {s0 : State} {a1} {a2} {a3 : State} (h : Evolves s0 a3) : Evolves s0 (State.skipRevoked a1 a2 a3) := by
  induction a2 generalizing a3 with
  | zero =>
    unfold State.skipRevoked
    repeat' first | with_reducible assumption | with_reducible apply State.setFlagSrc_evolves | split | (simp only [Evolves.mk_iff]; apply Evolves.core) | (intro _) | dsimp only
  | succ n ih =>
    unfold State.skipRevoked
    repeat' first | with_reducible assumption | with_reducible apply ih | with_reducible apply State.setFlagSrc_evolves | split | (simp only [Evolves.mk_iff]; apply Evolves.core) | (intro _) | dsimp only

theorem State.discardAll_evolves {s0 : State} {a1 : State} {a2} {a3} {a4} (h : Evolves s0 a1) : Evolves s0 (State.discardAll a1 a2 a3 a4) := by
  unfold State.discardAll
  repeat' first | with_reducible assumption | with_reducible apply State.dropHeld_evolves | with_reducible apply State.setFlagSrc_evolves | with_reducible apply Evolves.foldl | (intro _) | dsimp only

theorem State.applyFlag_evolves {s0 : State} {a1 : State} {a2} {a3} {a4} (h : Evolves s0 a1) : Evolves s0 (State.applyFlag a1 a2 a3 a4) := by
  unfold State.applyFlag
  repeat' first | with_reducible assumption | with_reducible apply State.countAt_evolves | with_reducible apply State.bump_evolves | with_reducible apply State.submit_evolves | dsimp only

theorem State.takeRefused_evolves {s0 : State} {a1 : State} {a2} {a3} (h : Evolves s0 a1) : Evolves s0 (State.takeRefused a1 a2 a3) := by
  unfold State.takeRefused
  repeat' first | with_reducible assumption | with_reducible apply State.flagCpl_evolves | with_reducible apply State.logFlag_evolves | with_reducible apply State.meterAt_evolves | split | dsimp only

theorem State.resyncFlag_evolves {s0 : State} {a1 : State} {a2} {a3} {a4} (h : Evolves s0 a1) : Evolves s0 (State.resyncFlag a1 a2 a3 a4) := by
  unfold State.resyncFlag
  repeat' first | with_reducible assumption | with_reducible apply State.setFlagSrc_evolves | with_reducible apply State.dropHeld_evolves | with_reducible apply State.takeRefused_evolves | with_reducible apply State.applyFlag_evolves | with_reducible apply Evolves.foldl | split | (simp only [Evolves.mk_iff]; apply Evolves.core) | (intro _) | dsimp only

theorem State.flagArrives_evolves {s0 : State} {a1 : State} {a2} {a3} {a4} {a5} {a6} {a7} {a8} (h : Evolves s0 a1) : Evolves s0 (State.flagArrives a1 a2 a3 a4 a5 a6 a7 a8) := by
  unfold State.flagArrives
  repeat' first | with_reducible assumption | with_reducible apply State.flagCpl_evolves | with_reducible apply State.logFlag_evolves | with_reducible apply State.resyncFlag_evolves | with_reducible apply State.dropHeld_evolves | with_reducible apply State.discardAll_evolves | with_reducible apply State.setFlagSrc_evolves | split | (simp only [Evolves.mk_iff]; apply Evolves.core) | (intro _) | dsimp only

theorem State.flagTurn_evolves {s0 : State} {a1 : State} {a2} {a3} (h : Evolves s0 a1) : Evolves s0 (State.flagTurn a1 a2 a3) := by
  unfold State.flagTurn
  repeat' first | with_reducible assumption | with_reducible apply State.skipRevoked_evolves | with_reducible apply State.takeRefused_evolves | with_reducible apply State.applyFlag_evolves | with_reducible apply State.setFlagSrc_evolves | split | (simp only [Evolves.mk_iff]; apply Evolves.core) | (intro _) | dsimp only

theorem State.flagExpires_evolves {s0 : State} {a1 : State} {a2} {a3} (h : Evolves s0 a1) : Evolves s0 (State.flagExpires a1 a2 a3) := by
  unfold State.flagExpires
  repeat' first | with_reducible assumption | with_reducible apply State.dropHeld_evolves | with_reducible apply State.setFlagSrc_evolves | with_reducible apply Evolves.foldl | split | (simp only [Evolves.mk_iff]; apply Evolves.core) | (intro _) | dsimp only

theorem State.resetFlags_evolves {s0 : State} {a1 : State} {a2} {a3} (h : Evolves s0 a1) : Evolves s0 (State.resetFlags a1 a2 a3) := by
  unfold State.resetFlags
  repeat' first | with_reducible assumption | with_reducible apply State.discardAll_evolves | (intro _) | dsimp only

theorem State.headDropsFlags_evolves {s0 : State} {a1 : State} {a2} (h : Evolves s0 a1) : Evolves s0 (State.headDropsFlags a1 a2) := by
  unfold State.headDropsFlags
  repeat' first | with_reducible assumption | with_reducible apply State.resetFlags_evolves | with_reducible apply Evolves.foldl | split | (intro _) | dsimp only

theorem State.revokeFlags_evolves {s0 : State} {a1 : State} {a2} (h : Evolves s0 a1) : Evolves s0 (State.revokeFlags a1 a2) := by
  unfold State.revokeFlags
  repeat' first | with_reducible assumption | with_reducible apply State.dropHeld_evolves | with_reducible apply State.setFlagSrc_evolves | with_reducible apply State.skipRevoked_evolves | with_reducible apply Evolves.foldl | split | (simp only [Evolves.mk_iff]; apply Evolves.core) | (intro _) | dsimp only

end Sys2Proof.Machine
end

