-- ==== Sys2Proof/Laws/EvolveStoreReq.lean ====
section
/-! SUPPORT. No operation of `Machine/StoreReq.lean` does what no command may do (`Evolves`). -/

namespace Sys2Proof.Machine

set_option linter.all false

theorem State.hostRead_evolves {s0 : State} {a1 : State} {a2} {a3} {a4} {a5} {a6} {a7} (h : Evolves s0 a1) : Evolves s0 (State.hostRead a1 a2 a3 a4 a5 a6 a7) := by
  unfold State.hostRead
  repeat' first | with_reducible assumption | with_reducible apply State.emit_evolves | with_reducible apply State.refuseRead_evolves | with_reducible apply State.submit_evolves | split | (simp only [Evolves.mk_iff]; apply Evolves.core) | dsimp only

theorem State.hostWrite_evolves {s0 : State} {a1 : State} {a2} {a3} {a4} {a5} {a6} {a7} {a8} {a9} {a10} {a11} (h : Evolves s0 a1) : Evolves s0 (State.hostWrite a1 a2 a3 a4 a5 a6 a7 a8 a9 a10 a11) := by
  unfold State.hostWrite
  repeat' first | with_reducible assumption | with_reducible apply State.flagArrives_evolves | with_reducible apply State.emit_evolves | with_reducible apply State.refuseWrite_evolves | with_reducible apply State.submit_evolves | split | dsimp only

theorem State.hostInv_evolves {s0 : State} {a1 : State} {a2} {a3} {a4} {a5} {a6} {a7} (h : Evolves s0 a1) : Evolves s0 (State.hostInv a1 a2 a3 a4 a5 a6 a7) := by
  unfold State.hostInv
  repeat' first | with_reducible assumption | with_reducible apply State.emit_evolves | with_reducible apply State.submit_evolves | split | dsimp only

theorem State.uioReadLine_evolves {s0 : State} {a1} {a2} {a3} {a4} {a5} {a6} {a7} {a8 : State} {a9} (h : Evolves s0 a8) : Evolves s0 (State.uioReadLine a1 a2 a3 a4 a5 a6 a7 a8 a9) := by
  unfold State.uioReadLine
  repeat' first | with_reducible assumption | with_reducible apply State.emit_evolves | with_reducible apply State.refuseRead_evolves | with_reducible apply State.submit_evolves | split | dsimp only

theorem State.uioWriteLine_evolves {s0 : State} {a1} {a2} {a3} {a4} {a5} {a6} {a7} {a8} {a9} {a10 : State} {a11} (h : Evolves s0 a10) : Evolves s0 (State.uioWriteLine a1 a2 a3 a4 a5 a6 a7 a8 a9 a10 a11) := by
  unfold State.uioWriteLine
  repeat' first | with_reducible assumption | with_reducible apply State.uioLineDone_evolves | with_reducible apply State.refuseWrite_evolves | with_reducible apply State.submit_evolves | split | dsimp only

theorem State.uioRead_evolves {s0 : State} {a1 : State} {a2} {a3} {a4} {a5} {a6} {a7} {a8} (h : Evolves s0 a1) : Evolves s0 (State.uioRead a1 a2 a3 a4 a5 a6 a7 a8) := by
  unfold State.uioRead
  repeat' first | with_reducible assumption | with_reducible apply State.emit_evolves | with_reducible apply State.uioReadLine_evolves | with_reducible apply Evolves.foldl | split | (intro _) | dsimp only

theorem State.uioWrite_evolves {s0 : State} {a1 : State} {a2} {a3} {a4} {a5} {a6} {a7} {a8} {a9} {a10} (h : Evolves s0 a1) : Evolves s0 (State.uioWrite a1 a2 a3 a4 a5 a6 a7 a8 a9 a10) := by
  unfold State.uioWrite
  repeat' first | with_reducible assumption | with_reducible apply State.emit_evolves | with_reducible apply State.flagArrives_evolves | with_reducible apply State.flagCpl_evolves | with_reducible apply State.logFlag_evolves | with_reducible apply State.uioWriteLine_evolves | with_reducible apply Evolves.foldl | split | (simp only [Evolves.mk_iff]; apply Evolves.core) | (intro _) | dsimp only

theorem State.logRsp_evolves {s0 : State} {a1 : State} {a2} {a3} {a4} {a5} (h : Evolves s0 a1) : Evolves s0 (State.logRsp a1 a2 a3 a4 a5) := by
  unfold State.logRsp
  repeat' first | with_reducible assumption | with_reducible apply State.logAt_evolves | dsimp only

theorem State.biRsp_evolves {s0 : State} {a1 : State} {a2} {a3} {a4} {a5} (h : Evolves s0 a1) : Evolves s0 (State.biRsp a1 a2 a3 a4 a5) := by
  unfold State.biRsp
  repeat' first | with_reducible assumption | with_reducible apply State.logRsp_evolves | with_reducible apply State.bump_evolves | with_reducible apply State.pumpSnoops_evolves | with_reducible apply State.answered_evolves | split | (simp only [Evolves.mk_iff]; apply Evolves.core) | (intro _) | dsimp only

theorem State.biConflictAt_evolves {s0 : State} {a1 : State} {a2} {a3} {a4} (h : Evolves s0 a1) : Evolves s0 (State.biConflictAt a1 a2 a3 a4) := by
  unfold State.biConflictAt
  repeat' first | with_reducible assumption | with_reducible apply State.ackConflicts_evolves | split | (simp only [Evolves.mk_iff]; apply Evolves.core) | dsimp only

theorem State.biExpires_evolves {s0 : State} {a1 : State} {a2} {a3} (h : Evolves s0 a1) : Evolves s0 (State.biExpires a1 a2 a3) := by
  unfold State.biExpires
  repeat' first | with_reducible assumption | with_reducible apply State.declareDown_evolves | split | (simp only [Evolves.mk_iff]; apply Evolves.core) | (intro _) | dsimp only

theorem State.graceExpires_evolves {s0 : State} {a1 : State} {a2} (h : Evolves s0 a1) : Evolves s0 (State.graceExpires a1 a2) := by
  unfold State.graceExpires
  repeat' first | with_reducible assumption | with_reducible apply State.modHead_evolves | with_reducible apply State.headDropsFlags_evolves | with_reducible apply State.declareDown_evolves | with_reducible apply Evolves.foldl | split | (simp only [Evolves.mk_iff]; apply Evolves.core) | (intro _) | dsimp only

theorem State.cohHostDown_evolves {s0 : State} {a1 : State} {a2} (h : Evolves s0 a1) : Evolves s0 (State.cohHostDown a1 a2) := by
  unfold State.cohHostDown
  repeat' first | with_reducible assumption | with_reducible apply State.declareDown_evolves | split | (simp only [Evolves.mk_iff]; apply Evolves.core) | dsimp only

theorem State.probe_evolves {s0 : State} {a1 : State} {a2} (h : Evolves s0 a1) : Evolves s0 (State.probe a1 a2) := by
  unfold State.probe
  repeat' first | with_reducible assumption | split | (simp only [Evolves.mk_iff]; apply Evolves.core) | dsimp only

theorem State.lineAccept_evolves {s0 : State} {a1 : State} {a2} (h : Evolves s0 a1) : Evolves s0 (State.lineAccept a1 a2) := by
  unfold State.lineAccept
  repeat' first | with_reducible assumption | (simp only [Evolves.mk_iff]; apply Evolves.core) | (intro _) | dsimp only

theorem State.courseAsks_evolves {s0 : State} {a1 : State} {a2} {a3} {a4} {a5} (h : Evolves s0 a1) : Evolves s0 (State.courseAsks a1 a2 a3 a4 a5) := by
  unfold State.courseAsks
  repeat' first | with_reducible assumption | with_reducible apply State.submit_evolves | with_reducible apply State.sendUp_evolves | split | (intro _) | dsimp only

theorem State.takeUpgrade_evolves {s0 : State} {a1 : State} {a2} {a3} (h : Evolves s0 a1) : Evolves s0 (State.takeUpgrade a1 a2 a3) := by
  unfold State.takeUpgrade
  repeat' first | with_reducible assumption | with_reducible apply State.setDir_evolves | split | (simp only [Evolves.mk_iff]; apply Evolves.core) | dsimp only

theorem State.upgradeLine_evolves {s0 : State} {a1 : State} {a2} {a3} (h : Evolves s0 a1) : Evolves s0 (State.upgradeLine a1 a2 a3) := by
  unfold State.upgradeLine
  repeat' first | with_reducible assumption | with_reducible apply State.takeUpgrade_evolves | with_reducible apply State.sendUp_evolves | split | (intro _) | dsimp only

theorem State.takeDirty_evolves {s0 : State} {a1 : State} {a2} {a3} {a4} {a5} (h : Evolves s0 a1) : Evolves s0 (State.takeDirty a1 a2 a3 a4 a5) := by
  unfold State.takeDirty
  repeat' first | with_reducible assumption | with_reducible apply State.landLine_evolves | with_reducible apply State.dropWrite_evolves | with_reducible apply State.setDir_evolves | split | (simp only [Evolves.mk_iff]; apply Evolves.core) | (refine Evolves.snd_of (by assumption) ?_) | dsimp only

theorem State.writebackLine_evolves {s0 : State} {a1 : State} {a2} {a3} (h : Evolves s0 a1) : Evolves s0 (State.writebackLine a1 a2 a3) := by
  unfold State.writebackLine
  repeat' first | with_reducible assumption | with_reducible apply State.takeDirty_evolves | with_reducible apply State.bufDrop_evolves | with_reducible apply State.sendUp_evolves | split | (simp only [Evolves.mk_iff]; apply Evolves.core) | dsimp only

theorem State.takeMsg_evolves {s0 s t : State} {die k : Nat} {m : BufMsg} {x : Nat} (e : s.takeMsg die k m = some (x, t)) (h : Evolves s0 s) :
    Evolves s0 t := by
  unfold State.takeMsg at e
  split at e
  · split at e
    · simp only [Option.some.injEq, Prod.mk.injEq] at e
      obtain ⟨-, rfl⟩ := e
      exact h.of_eq rfl rfl rfl rfl rfl rfl rfl
    · cases e
  · cases e

theorem State.answerMsg_evolves {s0 : State} {a1 : State} {a2} {a3} {a4} {a5} {a6} {a7} (h : Evolves s0 a1) : Evolves s0 (State.answerMsg a1 a2 a3 a4 a5 a6 a7) := by
  unfold State.answerMsg
  repeat' first | with_reducible assumption | with_reducible apply State.sendUp_evolves | dsimp only

theorem State.bufHandles_evolves {s0 : State} {a1 : State} {a2} {a3} {a4} (h : Evolves s0 a1) : Evolves s0 (State.bufHandles a1 a2 a3 a4) := by
  unfold State.bufHandles
  repeat' first | with_reducible assumption | with_reducible apply State.answerMsg_evolves | with_reducible apply State.bufDrop_evolves | with_reducible apply State.bufPut_evolves | split | (simp only [Evolves.mk_iff]; apply Evolves.core) | (intro _) | (refine State.takeMsg_evolves (by assumption) ?_) | dsimp only

theorem State.takeAnswer_evolves {s0 : State} {a1 : State} {a2} {a3} (h : Evolves s0 a1) : Evolves s0 (State.takeAnswer a1 a2 a3) := by
  unfold State.takeAnswer
  repeat' first | with_reducible assumption | with_reducible apply State.bump_evolves | with_reducible apply State.setDir_evolves | with_reducible apply State.answered_evolves | split | (simp only [Evolves.mk_iff]; apply Evolves.core) | (intro _) | dsimp only

theorem State.takeUp_evolves {s0 : State} {a1 : State} {a2} {a3} (h : Evolves s0 a1) : Evolves s0 (State.takeUp a1 a2 a3) := by
  unfold State.takeUp
  repeat' first | with_reducible assumption | with_reducible apply State.takeAnswer_evolves | with_reducible apply State.takeUpgrade_evolves | with_reducible apply State.takeDirty_evolves | with_reducible apply State.submit_evolves | split | (simp only [Evolves.mk_iff]; apply Evolves.core) | dsimp only

theorem State.takeFront_evolves {s0 : State} {a1 : State} {a2} {a3} {a4} (h : Evolves s0 a1) : Evolves s0 (State.takeFront a1 a2 a3 a4) := by
  unfold State.takeFront
  repeat' first | with_reducible assumption | with_reducible apply State.takeUp_evolves | (simp only [Evolves.mk_iff]; apply Evolves.core) | dsimp only

theorem State.runLink_evolves {s0 : State} {a1 : State} {a2} {a3} {a4} (h : Evolves s0 a1) : Evolves s0 (State.runLink a1 a2 a3 a4) := by
  induction a4 generalizing a1 with
  | nil =>
    unfold State.runLink
    repeat' first | with_reducible assumption | with_reducible apply State.takeFront_evolves | split | dsimp only
  | cons x t ih =>
    unfold State.runLink
    repeat' first | with_reducible assumption | with_reducible apply ih | with_reducible apply State.takeFront_evolves | split | dsimp only

theorem State.bufAnswers_evolves {s0 : State} {a1 : State} {a2} {a3} (h : Evolves s0 a1) : Evolves s0 (State.bufAnswers a1 a2 a3) := by
  unfold State.bufAnswers
  repeat' first | with_reducible assumption | with_reducible apply State.runLink_evolves | with_reducible apply State.takeFront_evolves | split | (simp only [Evolves.mk_iff]; apply Evolves.core) | dsimp only

end Sys2Proof.Machine
end

