-- ==== Sys2Proof/Laws/EvolveRecords.lean ====
section
/-! SUPPORT. No operation of `Machine/Records.lean` does what no command may do (`Evolves`). -/

namespace Sys2Proof.Machine

set_option linter.all false

theorem State.ringMsix_evolves {s0 : State} {a1 : State} {a2} (h : Evolves s0 a1) : Evolves s0 (State.ringMsix a1 a2) := by
  unfold State.ringMsix
  repeat' first | with_reducible assumption | with_reducible apply State.sendMsix_evolves | split | dsimp only

theorem State.flushEvents_evolves {s0 : State} {a1 : State} {a2} (h : Evolves s0 a1) : Evolves s0 (State.flushEvents a1 a2) := by
  induction a2 generalizing a1 with
  | zero =>
    unfold State.flushEvents
    repeat' first | with_reducible assumption | with_reducible apply State.ownWrite_evolves | with_reducible apply State.ringMsix_evolves | split | (simp only [Evolves.mk_iff]; apply Evolves.core) | dsimp only
  | succ n ih =>
    unfold State.flushEvents
    repeat' first | with_reducible assumption | with_reducible apply ih | with_reducible apply State.ownWrite_evolves | with_reducible apply State.ringMsix_evolves | split | (simp only [Evolves.mk_iff]; apply Evolves.core) | dsimp only

theorem State.raiseEvent_evolves {s0 : State} {a1 : State} {a2} {a3} {a4} {a5} (h : Evolves s0 a1) : Evolves s0 (State.raiseEvent a1 a2 a3 a4 a5) := by
  unfold State.raiseEvent
  repeat' first | with_reducible assumption | with_reducible apply State.alarm_evolves | with_reducible apply State.flushEvents_evolves | split | (simp only [Evolves.mk_iff]; apply Evolves.core) | dsimp only

theorem State.logWrite_evolves {s0 : State} {a1 : State} {a2} (h : Evolves s0 a1) : Evolves s0 (State.logWrite a1 a2) := by
  unfold State.logWrite
  repeat' first | with_reducible assumption | with_reducible apply State.ownWrite_evolves | with_reducible apply State.ringMsix_evolves | with_reducible apply State.bump_evolves | (simp only [Evolves.mk_iff]; apply Evolves.core) | dsimp only

theorem State.flushLog_evolves {s0 : State} {a1 : State} {a2} (h : Evolves s0 a1) : Evolves s0 (State.flushLog a1 a2) := by
  induction a2 generalizing a1 with
  | zero =>
    unfold State.flushLog
    repeat' first | with_reducible assumption | with_reducible apply State.alarm_evolves | with_reducible apply State.logWrite_evolves | split | (simp only [Evolves.mk_iff]; apply Evolves.core) | (intro _) | dsimp only
  | succ n ih =>
    unfold State.flushLog
    repeat' first | with_reducible assumption | with_reducible apply ih | with_reducible apply State.alarm_evolves | with_reducible apply State.logWrite_evolves | split | (simp only [Evolves.mk_iff]; apply Evolves.core) | (intro _) | dsimp only

theorem State.backlogPush_evolves {s0 : State} {a1 : State} {a2} (h : Evolves s0 a1) : Evolves s0 (State.backlogPush a1 a2) := by
  unfold State.backlogPush
  repeat' first | with_reducible assumption | with_reducible apply State.bump_evolves | split | (simp only [Evolves.mk_iff]; apply Evolves.core) | dsimp only

theorem State.logDeliver_evolves {s0 : State} {a1 : State} {a2} (h : Evolves s0 a1) : Evolves s0 (State.logDeliver a1 a2) := by
  unfold State.logDeliver
  repeat' first | with_reducible assumption | with_reducible apply State.backlogPush_evolves | with_reducible apply State.flushLog_evolves | split | (simp only [Evolves.mk_iff]; apply Evolves.core) | (intro _) | dsimp only

theorem State.updateAlert_evolves {s0 : State} {a1 : State} (h : Evolves s0 a1) : Evolves s0 (State.updateAlert a1) := by
  unfold State.updateAlert
  repeat' first | with_reducible assumption | (simp only [Evolves.mk_iff]; apply Evolves.core) | (intro _) | dsimp only

theorem State.flushAlarms_evolves {s0 : State} {a1 : State} {a2} (h : Evolves s0 a1) : Evolves s0 (State.flushAlarms a1 a2) := by
  induction a2 generalizing a1 with
  | zero =>
    unfold State.flushAlarms
    repeat' first | with_reducible assumption | with_reducible apply State.alarm_evolves | with_reducible apply State.ownWrite_evolves | with_reducible apply State.ringMsix_evolves | split | (simp only [Evolves.mk_iff]; apply Evolves.core) | dsimp only
  | succ n ih =>
    unfold State.flushAlarms
    repeat' first | with_reducible assumption | with_reducible apply ih | with_reducible apply State.alarm_evolves | with_reducible apply State.ownWrite_evolves | with_reducible apply State.ringMsix_evolves | split | (simp only [Evolves.mk_iff]; apply Evolves.core) | dsimp only

theorem State.freezeTrigger_evolves {s0 : State} {a1 : State} (h : Evolves s0 a1) : Evolves s0 (State.freezeTrigger a1) := by
  unfold State.freezeTrigger
  repeat' first | with_reducible assumption | split | (simp only [Evolves.mk_iff]; apply Evolves.core) | (intro _) | dsimp only

theorem State.alarmDeliver_evolves {s0 : State} {a1 : State} {a2} {a3} (h : Evolves s0 a1) : Evolves s0 (State.alarmDeliver a1 a2 a3) := by
  unfold State.alarmDeliver
  repeat' first | with_reducible assumption | with_reducible apply State.mark_evolves | with_reducible apply State.freezeTrigger_evolves | with_reducible apply State.updateAlert_evolves | with_reducible apply State.flushAlarms_evolves | split | (simp only [Evolves.mk_iff]; apply Evolves.core) | dsimp only

theorem State.alarmAck_evolves {s0 : State} {a1 : State} {a2} {a3} (h : Evolves s0 a1) : Evolves s0 (State.alarmAck a1 a2 a3) := by
  unfold State.alarmAck
  repeat' first | with_reducible assumption | with_reducible apply State.updateAlert_evolves | split | (simp only [Evolves.mk_iff]; apply Evolves.core) | (intro _) | dsimp only

theorem State.zeroRing_evolves {s0 : State} {a1 : State} {a2} (h : Evolves s0 a1) : Evolves s0 (State.zeroRing a1 a2) := by
  unfold State.zeroRing
  repeat' first | with_reducible assumption | with_reducible apply State.ownLine_evolves | with_reducible apply Evolves.foldl | (intro _) | dsimp only

end Sys2Proof.Machine
end

