-- ==== Sys2Proof/Laws/EvolveSched.lean ====
section
/-! SUPPORT. No operation of `Machine/Sched.lean` does what no command may do (`Evolves`). -/

namespace Sys2Proof.Machine

set_option linter.all false

theorem State.moveCounter_evolves {s0 : State} {a1 : State} {a2} (h : Evolves s0 a1) : Evolves s0 (State.moveCounter a1 a2) := by
  unfold State.moveCounter
  repeat' first | with_reducible assumption | split | (simp only [Evolves.mk_iff]; apply Evolves.core) | dsimp only

end Sys2Proof.Machine
end

