-- ==== Sys2Proof/Laws/EvolveMedia.lean ====
section
/-! SUPPORT. No operation of `Machine/Media.lean` does what no command may do (`Evolves`). -/

namespace Sys2Proof.Machine

set_option linter.all false

theorem State.modChan_evolves {s0 : State} {a1 : State} {a2} {a3} (h : Evolves s0 a1) : Evolves s0 (State.modChan a1 a2 a3) := by
  unfold State.modChan
  repeat' first | with_reducible assumption | (simp only [Evolves.mk_iff]; apply Evolves.core) | dsimp only

theorem State.repairLine_evolves {s0 : State} {a1 : State} {a2} (h : Evolves s0 a1) : Evolves s0 (State.repairLine a1 a2) := by
  unfold State.repairLine
  repeat' first | with_reducible assumption | with_reducible apply State.chanWrite_evolves | split | (simp only [Evolves.mk_iff]; apply Evolves.core) | dsimp only

theorem State.failChannel_evolves {s0 : State} {a1 : State} {a2} {a3} (h : Evolves s0 a1) : Evolves s0 (State.failChannel a1 a2 a3) := by
  unfold State.failChannel
  repeat' first | with_reducible assumption | with_reducible apply State.modChan_evolves | with_reducible apply State.alarm_evolves | with_reducible apply State.endCalWait_evolves | split | (simp only [Evolves.mk_iff]; apply Evolves.core) | (intro _) | dsimp only

theorem State.rebuildPut_evolves {s0 : State} {a1 : State} {a2} {a3} {a4} {a5} (h : Evolves s0 a1) : Evolves s0 (State.rebuildPut a1 a2 a3 a4 a5) := by
  unfold State.rebuildPut
  repeat' first | with_reducible assumption | with_reducible apply State.chanWrite_evolves | with_reducible apply State.putLine_evolves | split | (simp only [Evolves.mk_iff]; apply Evolves.core) | dsimp only

theorem State.askPartner_evolves {s0 : State} {a1 : State} {a2} (h : Evolves s0 a1) : Evolves s0 (State.askPartner a1 a2).2 := by
  unfold State.askPartner
  repeat' first | with_reducible assumption | with_reducible apply State.fetchCopy_evolves | split | (simp only [Evolves.mk_iff]; apply Evolves.core) | (intro _) | (refine Evolves.snd_of (by assumption) ?_) | dsimp only

theorem State.rebuildStep_evolves {s0 : State} {a1 : State} {a2} {a3} (h : Evolves s0 a1) : Evolves s0 (State.rebuildStep a1 a2 a3) := by
  unfold State.rebuildStep
  repeat' first | with_reducible assumption | with_reducible apply State.endSlotWait_evolves | with_reducible apply State.alarm_evolves | with_reducible apply State.ownReadLine_evolves | with_reducible apply State.rebuildPut_evolves | split | (simp only [Evolves.mk_iff]; apply Evolves.core) | (refine Evolves.snd_of (by assumption) ?_) | dsimp only

theorem State.retireIgnored_evolves {s0 : State} {a1 : State} {a2} {a3} (h : Evolves s0 a1) : Evolves s0 (State.retireIgnored a1 a2 a3) := by
  unfold State.retireIgnored
  repeat' first | with_reducible assumption | with_reducible apply State.logAt_evolves | dsimp only

theorem State.medRetireWrite_evolves {s0 : State} {a1 : State} {a2} (h : Evolves s0 a1) : Evolves s0 (State.medRetireWrite a1 a2) := by
  unfold State.medRetireWrite
  repeat' first | with_reducible assumption | with_reducible apply State.retireIgnored_evolves | with_reducible apply State.startRetire_evolves | split | dsimp only

theorem State.rescueRelease_evolves {s0 : State} {a1 : State} {a2} (h : Evolves s0 a1) : Evolves s0 (State.rescueRelease a1 a2) := by
  unfold State.rescueRelease
  repeat' first | with_reducible assumption | split | (simp only [Evolves.mk_iff]; apply Evolves.core) | dsimp only

theorem State.mirrorAlarmEnd_evolves {s0 : State} {a1 : State} {a2} (h : Evolves s0 a1) : Evolves s0 (State.mirrorAlarmEnd a1 a2) := by
  unfold State.mirrorAlarmEnd
  repeat' first | with_reducible assumption | with_reducible apply State.alarmEnd_evolves | split | (intro _) | dsimp only

theorem State.enterResync_evolves {s0 : State} {a1 : State} {a2} (h : Evolves s0 a1) : Evolves s0 (State.enterResync a1 a2) := by
  unfold State.enterResync
  repeat' first | with_reducible assumption | with_reducible apply State.mirrorAlarmEnd_evolves | split | (simp only [Evolves.mk_iff]; apply Evolves.core) | (intro _) | dsimp only

theorem State.resyncAcked_evolves {s0 : State} {a1 : State} {a2} {a3} (h : Evolves s0 a1) : Evolves s0 (State.resyncAcked a1 a2 a3) := by
  unfold State.resyncAcked
  repeat' first | with_reducible assumption | with_reducible apply State.mirrorAlarmEnd_evolves | split | (simp only [Evolves.mk_iff]; apply Evolves.core) | (intro _) | dsimp only

theorem State.resyncStep_evolves {s0 : State} {a1 : State} {a2} {a3} {a4} (h : Evolves s0 a1) : Evolves s0 (State.resyncStep a1 a2 a3 a4) := by
  unfold State.resyncStep
  repeat' first | with_reducible assumption | with_reducible apply State.ownReadLine_evolves | with_reducible apply State.degrade_evolves | with_reducible apply State.issue_evolves | split | (simp only [Evolves.mk_iff]; apply Evolves.core) | (intro _) | (refine Evolves.snd_of (by assumption) ?_) | dsimp only

theorem State.probeMirror_evolves {s0 : State} {a1 : State} {a2} (h : Evolves s0 a1) : Evolves s0 (State.probeMirror a1 a2) := by
  unfold State.probeMirror
  repeat' first | with_reducible assumption | with_reducible apply State.issue_evolves | split | (simp only [Evolves.mk_iff]; apply Evolves.core) | (intro _) | (refine Evolves.snd_of (by assumption) ?_) | dsimp only

theorem State.mirCtl_evolves {s0 : State} {a1 : State} {a2} (h : Evolves s0 a1) : Evolves s0 (State.mirCtl a1 a2) := by
  unfold State.mirCtl
  repeat' first | with_reducible assumption | with_reducible apply State.enterResync_evolves | with_reducible apply State.degrade_evolves | split | (simp only [Evolves.mk_iff]; apply Evolves.core) | dsimp only

theorem State.patrolHole_evolves {s0 : State} {a1 : State} {a2} {a3} (h : Evolves s0 a1) : Evolves s0 (State.patrolHole a1 a2 a3) := by
  unfold State.patrolHole
  repeat' first | with_reducible assumption | with_reducible apply State.touch_evolves | with_reducible apply State.correctedRead_evolves | with_reducible apply State.logUe_evolves | with_reducible apply State.countUe_evolves | split | (simp only [Evolves.mk_iff]; apply Evolves.core) | dsimp only

theorem State.patrolRead_evolves {s0 : State} {a1} {a2 : State} {a3} (h : Evolves s0 a2) : Evolves s0 (State.patrolRead a1 a2 a3) := by
  unfold State.patrolRead
  repeat' first | with_reducible assumption | with_reducible apply State.patrolHole_evolves | with_reducible apply State.charge_evolves | with_reducible apply State.readDram_evolves | with_reducible apply State.showStripe_evolves | with_reducible apply State.askPartner_evolves | with_reducible apply State.partnerLost_evolves | split | (refine Evolves.snd_of (by assumption) ?_) | dsimp only

theorem State.patrolBatch_evolves {s0 : State} {a1 : State} {a2} {a3} (h : Evolves s0 a1) : Evolves s0 (State.patrolBatch a1 a2 a3) := by
  unfold State.patrolBatch
  repeat' first | with_reducible assumption | with_reducible apply State.patrolRead_evolves | with_reducible apply State.alarmEnd_evolves | with_reducible apply Evolves.foldl | split | (simp only [Evolves.mk_iff]; apply Evolves.core) | (intro _) | dsimp only

theorem State.coverageExpires_evolves {s0 : State} {a1 : State} {a2} (h : Evolves s0 a1) : Evolves s0 (State.coverageExpires a1 a2) := by
  unfold State.coverageExpires
  repeat' first | with_reducible assumption | with_reducible apply State.alarm_evolves | split | (simp only [Evolves.mk_iff]; apply Evolves.core) | dsimp only

theorem State.calStartNow_evolves {s0 : State} {a1 : State} {a2} (h : Evolves s0 a1) : Evolves s0 (State.calStartNow a1 a2) := by
  unfold State.calStartNow
  repeat' first | with_reducible assumption | with_reducible apply State.emit_evolves | with_reducible apply State.modChan_evolves | (simp only [Evolves.mk_iff]; apply Evolves.core) | (intro _) | dsimp only

theorem State.calibrate_evolves {s0 : State} {a1 : State} {a2} (h : Evolves s0 a1) : Evolves s0 (State.calibrate a1 a2) := by
  unfold State.calibrate
  repeat' first | with_reducible assumption | with_reducible apply State.calStartNow_evolves | split | dsimp only

theorem State.calibrateForced_evolves {s0 : State} {a1 : State} {a2} (h : Evolves s0 a1) : Evolves s0 (State.calibrateForced a1 a2) := by
  unfold State.calibrateForced
  repeat' first | with_reducible assumption | with_reducible apply State.modChan_evolves | with_reducible apply State.calStartNow_evolves | with_reducible apply State.logAt_evolves | split | (simp only [Evolves.mk_iff]; apply Evolves.core) | (intro _) | dsimp only

theorem State.calibrateEnds_evolves {s0 : State} {a1 : State} {a2} {a3} (h : Evolves s0 a1) : Evolves s0 (State.calibrateEnds a1 a2 a3) := by
  unfold State.calibrateEnds
  repeat' first | with_reducible assumption | with_reducible apply State.endCalWait_evolves | with_reducible apply State.modChan_evolves | split | (simp only [Evolves.mk_iff]; apply Evolves.core) | (intro _) | dsimp only

theorem State.auditEntry_evolves {s0 : State} {a1 : State} {a2} {a3} {a4} (h : Evolves s0 a1) : Evolves s0 (State.auditEntry a1 a2 a3 a4) := by
  unfold State.auditEntry
  repeat' first | with_reducible assumption | with_reducible apply State.evictBroadcast_evolves | with_reducible apply State.alarm_evolves | with_reducible apply State.tellBuf_evolves | with_reducible apply Evolves.foldl | split | (simp only [Evolves.mk_iff]; apply Evolves.core) | (intro _) | dsimp only

theorem State.train_evolves {s0 : State} {a1 : State} {a2} (h : Evolves s0 a1) : Evolves s0 (State.train a1 a2) := by
  unfold State.train
  repeat' first | with_reducible assumption | with_reducible apply State.emit_evolves | with_reducible apply State.alarm_evolves | with_reducible apply Evolves.foldl | split | (simp only [Evolves.mk_iff]; apply Evolves.core) | (intro _) | dsimp only

theorem State.startScrub_evolves {s0 : State} {a1 : State} {a2} {a3} (h : Evolves s0 a1) : Evolves s0 (State.startScrub a1 a2 a3) := by
  unfold State.startScrub
  repeat' first | with_reducible assumption | with_reducible apply State.startRetire_evolves | with_reducible apply State.zeroChans_evolves | with_reducible apply Evolves.foldl | split | (simp only [Evolves.mk_iff]; refine Evolves.core_mem ?_ (fun x => zeroMem_wf x)) | (simp only [Evolves.mk_iff]; apply Evolves.core) | (intro _) | dsimp only

theorem State.mitigate_evolves {s0 : State} {a1 : State} {a2} {a3} {a4} (h : Evolves s0 a1) : Evolves s0 (State.mitigate a1 a2 a3 a4) := by
  unfold State.mitigate
  repeat' first | with_reducible assumption | with_reducible apply State.emit_evolves | with_reducible apply State.modChan_evolves | (simp only [Evolves.mk_iff]; apply Evolves.core) | (intro _) | dsimp only

theorem State.refresh_evolves {s0 : State} {a1 : State} {a2} {a3} {a4} (h : Evolves s0 a1) : Evolves s0 (State.refresh a1 a2 a3 a4) := by
  unfold State.refresh
  repeat' first | with_reducible assumption | with_reducible apply State.modChan_evolves | with_reducible apply State.emit_evolves | split | (simp only [Evolves.mk_iff]; apply Evolves.core) | (intro _) | dsimp only

theorem State.rfmDue_evolves {s0 : State} {a1 : State} {a2} {a3} (h : Evolves s0 a1) : Evolves s0 (State.rfmDue a1 a2 a3) := by
  unfold State.rfmDue
  repeat' first | with_reducible assumption | with_reducible apply State.mitigate_evolves | with_reducible apply State.setBank_evolves | split | (simp only [Evolves.mk_iff]; apply Evolves.core) | dsimp only

theorem State.rowLimit_evolves {s0 : State} {a1 : State} {a2} {a3} {a4} (h : Evolves s0 a1) : Evolves s0 (State.rowLimit a1 a2 a3 a4) := by
  unfold State.rowLimit
  repeat' first | with_reducible assumption | with_reducible apply State.mitigate_evolves | with_reducible apply State.setBank_evolves | split | (simp only [Evolves.mk_iff]; apply Evolves.core) | (intro _) | dsimp only

end Sys2Proof.Machine
end

