-- ==== Sys2Proof/Laws/EvolveCommit.lean ====
section
/-! SUPPORT. No operation of `Machine/Commit.lean` does what no command may do (`Evolves`). -/

namespace Sys2Proof.Machine

set_option linter.all false

theorem State.report_evolves {s0 : State} {a1 : State} {a2} {a3} {a4} (h : Evolves s0 a1) : Evolves s0 (State.report a1 a2 a3 a4) := by
  unfold State.report
  repeat' first | with_reducible assumption | (simp only [Evolves.mk_iff]; apply Evolves.core) | dsimp only

theorem State.commitLands_evolves {s0 : State} {a1 : State} {a2} (h : Evolves s0 a1) : Evolves s0 (State.commitLands a1 a2) := by
  unfold State.commitLands
  repeat' first | with_reducible assumption | with_reducible apply State.report_evolves | split | (simp only [Evolves.mk_iff]; apply Evolves.core) | (intro _) | dsimp only

theorem State.takeFrame_evolves {s0 s t : State} {d : Dom} {p : Frame → Bool} {x : Frame} (e : s.takeFrame d p = some (x, t)) (h : Evolves s0 s) :
    Evolves s0 t := by
  unfold State.takeFrame at e
  split at e
  · split at e
    · simp only [Option.some.injEq, Prod.mk.injEq] at e
      obtain ⟨-, rfl⟩ := e
      exact h.of_eq rfl rfl rfl rfl rfl rfl rfl
    · cases e
  · cases e

theorem State.decide__evolves {s0 : State} {a1 : State} {a2} {a3} {a4 : State → State} (hf : ∀ t, Evolves s0 t → Evolves s0 (a4 t)) (h : Evolves s0 a1) : Evolves s0 (State.decide_ a1 a2 a3 a4) := by
  unfold State.decide_
  repeat' first | with_reducible assumption | apply hf | with_reducible apply State.report_evolves | split | (simp only [Evolves.mk_iff]; apply Evolves.core) | (intro _) | dsimp only

theorem State.adopt_evolves {s0 : State} {a1 : State} {a2} {a3} (h : Evolves s0 a1) : Evolves s0 (State.adopt a1 a2 a3) := by
  unfold State.adopt
  repeat' first | with_reducible assumption | with_reducible apply Evolves.foldl | (simp only [Evolves.mk_iff]; apply Evolves.core) | (intro _) | dsimp only

end Sys2Proof.Machine
end

