-- ==== Sys2Proof/Laws/EvolveRings.lean ====
section
/-! SUPPORT. No operation of `Machine/Rings.lean` does what no command may do (`Evolves`). -/

namespace Sys2Proof.Machine

set_option linter.all false

theorem State.modRing_evolves {s0 : State} {a1 : State} {a2} {a3} (h : Evolves s0 a1) : Evolves s0 (State.modRing a1 a2 a3) := by
  unfold State.modRing
  repeat' first | with_reducible assumption | (simp only [Evolves.mk_iff]; apply Evolves.core) | dsimp only

theorem State.writeStatus_evolves {s0 : State} {a1 : State} {a2} (h : Evolves s0 a1) : Evolves s0 (State.writeStatus a1 a2) := by
  unfold State.writeStatus
  repeat' first | with_reducible assumption | with_reducible apply State.ownLine_evolves | split | dsimp only

theorem State.endCmd_evolves {s0 : State} {a1 : State} {a2} {a3} (h : Evolves s0 a1) : Evolves s0 (State.endCmd a1 a2 a3) := by
  unfold State.endCmd
  repeat' first | with_reducible assumption | with_reducible apply State.modCmd_evolves | (simp only [Evolves.mk_iff]; apply Evolves.core) | (intro _) | dsimp only

theorem State.refuseCmd_evolves {s0 : State} {a1 : State} {a2} {a3} {a4} (h : Evolves s0 a1) : Evolves s0 (State.refuseCmd a1 a2 a3 a4) := by
  unfold State.refuseCmd
  repeat' first | with_reducible assumption | with_reducible apply State.modCmd_evolves | (simp only [Evolves.mk_iff]; apply Evolves.core) | (intro _) | dsimp only

theorem State.passOn_evolves {s0 : State} {a1 : State} {a2} {a3} {a4} (h : Evolves s0 a1) : Evolves s0 (State.passOn a1 a2 a3 a4) := by
  unfold State.passOn
  repeat' first | with_reducible assumption | with_reducible apply State.modRing_evolves | split | (simp only [Evolves.mk_iff]; apply Evolves.core) | (intro _) | dsimp only

theorem State.refuse_evolves {s0 : State} {a1 : State} {a2} {a3} {a4} {a5} (h : Evolves s0 a1) : Evolves s0 (State.refuse a1 a2 a3 a4 a5) := by
  unfold State.refuse
  repeat' first | with_reducible assumption | with_reducible apply State.refuseCmd_evolves | with_reducible apply State.passOn_evolves | split | (simp only [Evolves.mk_iff]; apply Evolves.core) | dsimp only

theorem State.ringError_evolves {s0 : State} {a1 : State} {a2} {a3} (h : Evolves s0 a1) : Evolves s0 (State.ringError a1 a2 a3) := by
  unfold State.ringError
  repeat' first | with_reducible assumption | with_reducible apply State.modRing_evolves | with_reducible apply State.raiseEvent_evolves | with_reducible apply State.refuseCmd_evolves | with_reducible apply State.writeStatus_evolves | with_reducible apply Evolves.foldl | split | (simp only [Evolves.mk_iff]; apply Evolves.core) | (intro _) | dsimp only

theorem State.readSlot_evolves {s0 : State} {a1 : State} {a2} {a3} {a4} (h : Evolves s0 a1) : Evolves s0 (State.readSlot a1 a2 a3 a4).2 := by
  unfold State.readSlot
  repeat' first | with_reducible assumption | with_reducible apply State.ownRead_evolves | dsimp only

theorem State.readSpan_evolves {s0 : State} {a1 : State} {a2} {a3} {a4} {a5} (h : Evolves s0 a1) : Evolves s0 (State.readSpan a1 a2 a3 a4 a5).2 := by
  unfold State.readSpan
  repeat' first | with_reducible assumption | with_reducible apply State.readSlot_evolves | with_reducible apply Evolves.foldl | with_reducible apply Evolves.foldl_snd | (intro _) | dsimp only

theorem State.bindTable_evolves {s0 : State} {a1 : State} {a2} {a3} (h : Evolves s0 a1) : Evolves s0 (State.bindTable a1 a2 a3).2 := by
  unfold State.bindTable
  repeat' first | with_reducible assumption | split | (simp only [Evolves.mk_iff]; apply Evolves.core) | (intro _) | dsimp only

theorem State.takeFetched_evolves {s0 : State} {a1 : State} {a2} {a3} {a4} {a5} {a6} (h : Evolves s0 a1) : Evolves s0 (State.takeFetched a1 a2 a3 a4 a5 a6) := by
  unfold State.takeFetched
  repeat' first | with_reducible assumption | with_reducible apply State.bindTable_evolves | with_reducible apply State.modRing_evolves | split | (simp only [Evolves.mk_iff]; apply Evolves.core) | (intro _) | dsimp only

theorem State.fetchOne_evolves {s0 : State} {s : State} {i room m} (h : Evolves s0 s) :
    Evolves s0 (s.fetchOne i room m).2 := by
  rw [State.fetchOne]
  have k := State.readSlot_evolves (a2 := s.ringAt i) (a3 := (s.ringAt i).sqHead) (a4 := m) h
  dsimp only
  generalize s.readSlot (s.ringAt i) (s.ringAt i).sqHead m = a at *
  generalize slotsOf a.1.1 a.1.2 = n at *
  have k2 := State.readSpan_evolves (a2 := s.ringAt i) (a3 := (s.ringAt i).sqHead) (a4 := n) (a5 := m) k
  generalize a.2.readSpan (s.ringAt i) (s.ringAt i).sqHead n m = b at *
  repeat' split
  all_goals first | exact h | exact k | exact k2 | exact State.takeFetched_evolves k2

theorem State.fetchTurn_evolves {s0 : State} {s : State} {i m n used} (h : Evolves s0 s) :
    Evolves s0 (s.fetchTurn i m n used) := by
  induction n generalizing used s with
  | zero => exact h
  | succ n ih =>
    have k := State.fetchOne_evolves (i := i) (room := 16 - used) (m := m) h
    rw [State.fetchTurn]
    split
    · exact k
    · exact ih k

theorem State.takeTurn_evolves {s0 : State} {a1 : State} {a2} {a3} (h : Evolves s0 a1) : Evolves s0 (State.takeTurn a1 a2 a3) := by
  unfold State.takeTurn
  repeat' first | with_reducible assumption | with_reducible apply State.fetchTurn_evolves | split | (simp only [Evolves.mk_iff]; apply Evolves.core) | dsimp only

theorem State.fetch_evolves {s0 : State} {a1 : State} {a2} {a3} (h : Evolves s0 a1) : Evolves s0 (State.fetch a1 a2 a3) := by
  unfold State.fetch
  repeat' first | with_reducible assumption | with_reducible apply State.ownRead_evolves | with_reducible apply State.ringError_evolves | with_reducible apply State.modRing_evolves | with_reducible apply State.takeTurn_evolves | with_reducible apply State.writeStatus_evolves | split | (simp only [Evolves.mk_iff]; apply Evolves.core) | (intro _) | (refine Evolves.snd_of (by assumption) ?_) | dsimp only

theorem State.applyEvt_evolves {s0 : State} {a1 : State} {a2} (h : Evolves s0 a1) : Evolves s0 (State.applyEvt a1 a2) := by
  unfold State.applyEvt
  repeat' first | with_reducible assumption | with_reducible apply State.adopt_evolves | with_reducible apply State.flushEvents_evolves | split | (simp only [Evolves.mk_iff]; apply Evolves.core) | dsimp only

theorem State.destroyRing_evolves {s0 : State} {a1 : State} {a2} (h : Evolves s0 a1) : Evolves s0 (State.destroyRing a1 a2) := by
  unfold State.destroyRing
  repeat' first | with_reducible assumption | with_reducible apply State.refuseCmd_evolves | with_reducible apply State.writeStatus_evolves | with_reducible apply State.modRing_evolves | with_reducible apply Evolves.foldl | (simp only [Evolves.mk_iff]; apply Evolves.core) | (intro _) | dsimp only

theorem State.applyRng_evolves {s0 : State} {a1 : State} {a2} (h : Evolves s0 a1) : Evolves s0 (State.applyRng a1 a2) := by
  unfold State.applyRng
  repeat' first | with_reducible assumption | with_reducible apply State.bumpMeter_evolves | with_reducible apply State.decide__evolves | with_reducible apply State.applyEvt_evolves | with_reducible apply State.writeStatus_evolves | with_reducible apply State.destroyRing_evolves | split | (simp only [Evolves.mk_iff]; apply Evolves.core) | (intro _) | dsimp only

theorem State.ringIsZeroed_evolves {s0 : State} {a1 : State} {a2} (h : Evolves s0 a1) : Evolves s0 (State.ringIsZeroed a1 a2) := by
  unfold State.ringIsZeroed
  repeat' first | with_reducible assumption | with_reducible apply State.ownLine_evolves | with_reducible apply State.writeStatus_evolves | with_reducible apply State.modRing_evolves | with_reducible apply Evolves.foldl | split | (simp only [Evolves.mk_iff]; apply Evolves.core) | (intro _) | dsimp only

theorem State.ringIsGone_evolves {s0 : State} {a1 : State} {a2} (h : Evolves s0 a1) : Evolves s0 (State.ringIsGone a1 a2) := by
  unfold State.ringIsGone
  repeat' first | with_reducible assumption | with_reducible apply State.modRing_evolves | with_reducible apply State.writeStatus_evolves | with_reducible apply State.raiseEvent_evolves | split | (simp only [Evolves.mk_iff]; apply Evolves.core) | (intro _) | dsimp only

end Sys2Proof.Machine
end

