-- ==== Sys2Proof/Laws/EvolveOperands.lean ====
section
/-! SUPPORT. No operation of `Machine/Operands.lean` does what no command may do (`Evolves`). -/

namespace Sys2Proof.Machine

set_option linter.all false

theorem State.mirrorRepair_evolves {s0 : State} {a1 : State} {a2} {a3} (h : Evolves s0 a1) : Evolves s0 (State.mirrorRepair a1 a2 a3) := by
  unfold State.mirrorRepair
  repeat' first | with_reducible assumption | with_reducible apply State.noteRepair_evolves | with_reducible apply State.chanWrite_evolves | with_reducible apply State.putLine_evolves | with_reducible apply State.logUe_evolves | split | dsimp only

theorem Work.failAt_evolves {s0 : State} {a1 : Work} {a2} {a3} (h : Evolves s0 a1.s) : Evolves s0 (Work.failAt a1 a2 a3).s := by
  unfold Work.failAt
  repeat' first | with_reducible assumption | split | (simp only [Evolves.mk_iff]; apply Evolves.core) | dsimp only

theorem Work.fail_evolves {s0 : State} {a1 : Work} {a2} (h : Evolves s0 a1.s) : Evolves s0 (Work.fail a1 a2).s := by
  unfold Work.fail
  repeat' first | with_reducible assumption | with_reducible apply Work.failAt_evolves | dsimp only

theorem Work.taint_evolves {s0 : State} {a1 : Work} {a2} (h : Evolves s0 a1.s) : Evolves s0 (Work.taint a1 a2).s := by
  unfold Work.taint
  repeat' first | with_reducible assumption | with_reducible apply Work.fail_evolves | (simp only [Evolves.mk_iff]; apply Evolves.core) | dsimp only

theorem Work.block_evolves {s0 : State} {a1 : Work} (h : Evolves s0 a1.s) : Evolves s0 (Work.block a1).s := by
  unfold Work.block
  repeat' first | with_reducible assumption | (simp only [Evolves.mk_iff]; apply Evolves.core) | dsimp only

theorem Work.awaitPage_evolves {s0 : State} {a1 : Work} (h : Evolves s0 a1.s) : Evolves s0 (Work.awaitPage a1).s := by
  unfold Work.awaitPage
  repeat' first | with_reducible assumption | (simp only [Evolves.mk_iff]; apply Evolves.core) | dsimp only

theorem Work.dead_evolves {s0 : State} {a1 : Work} (h : Evolves s0 a1.s) : Evolves s0 (Work.dead a1).s := by
  unfold Work.dead
  repeat' first | with_reducible assumption | with_reducible apply Work.fail_evolves | (simp only [Evolves.mk_iff]; apply Evolves.core) | dsimp only

theorem Work.draw_evolves {s0 : State} {a1 : Work} (h : Evolves s0 a1.s) : Evolves s0 (Work.draw a1).2.s := by
  unfold Work.draw
  repeat' first | with_reducible assumption | with_reducible apply State.draw_evolves | (simp only [Evolves.mk_iff]; apply Evolves.core) | dsimp only

theorem Work.draws_evolves {s0 : State} {a1 : Work} {a2} (h : Evolves s0 a1.s) : Evolves s0 (Work.draws a1 a2).2.s := by
  unfold Work.draws
  repeat' first | with_reducible assumption | (simp only [Evolves.mk_iff]; refine Evolves.core_fresh ?_ (Nat.le_add_right _ _)) | (simp only [Evolves.mk_iff]; apply Evolves.core) | dsimp only

theorem Work.setCopies_evolves {s0 : State} {a1 : Work} {a2} (h : Evolves s0 a1.s) : Evolves s0 (Work.setCopies a1 a2).s := by
  unfold Work.setCopies
  repeat' first | with_reducible assumption | split | (simp only [Evolves.mk_iff]; apply Evolves.core) | dsimp only

theorem Work.useCopy_evolves {s0 : State} {a1 : Work} (h : Evolves s0 a1.s) : Evolves s0 (Work.useCopy a1).2.s := by
  unfold Work.useCopy
  repeat' first | with_reducible assumption | (simp only [Evolves.mk_iff]; apply Evolves.core) | dsimp only

theorem Work.keepCopy_evolves {s0 : State} {a1 : Work} {a2} {a3} {a4} (h : Evolves s0 a1.s) : Evolves s0 (Work.keepCopy a1 a2 a3 a4).s := by
  unfold Work.keepCopy
  repeat' first | with_reducible assumption | with_reducible apply Work.useCopy_evolves | with_reducible apply Work.setCopies_evolves | split | (simp only [Evolves.mk_iff]; apply Evolves.core) | (refine Evolves.work_snd_of (by assumption) ?_) | dsimp only

theorem Work.touchCopy_evolves {s0 : State} {a1 : Work} {a2} {a3} (h : Evolves s0 a1.s) : Evolves s0 (Work.touchCopy a1 a2 a3).s := by
  unfold Work.touchCopy
  repeat' first | with_reducible assumption | with_reducible apply Work.useCopy_evolves | with_reducible apply Work.setCopies_evolves | (simp only [Evolves.mk_iff]; apply Evolves.core) | (refine Evolves.work_snd_of (by assumption) ?_) | dsimp only

theorem Work.note_evolves {s0 : State} {a1 : Work} {a2} (h : Evolves s0 a1.s) : Evolves s0 (Work.note a1 a2).s := by
  unfold Work.note
  repeat' first | with_reducible assumption | with_reducible apply Work.taint_evolves | split | dsimp only

theorem Work.fromStore_evolves {s0 : State} {a1 : Work} {a2} {a3} (h : Evolves s0 a1.s) : Evolves s0 (Work.fromStore a1 a2 a3).2.s := by
  unfold Work.fromStore
  repeat' first | with_reducible assumption | with_reducible apply Work.block_evolves | with_reducible apply State.readHome_evolves | with_reducible apply State.charge_evolves | with_reducible apply Work.note_evolves | with_reducible apply State.mirrorRepair_evolves | with_reducible apply Work.failAt_evolves | with_reducible apply State.partnerLost_evolves | split | (simp only [Evolves.mk_iff]; apply Evolves.core) | (refine Evolves.snd_of (by assumption) ?_) | dsimp only

theorem Work.rdLine_evolves {s0 : State} {a1 : Work} {a2} {a3} {a4} (h : Evolves s0 a1.s) : Evolves s0 (Work.rdLine a1 a2 a3 a4).2.s := by
  unfold Work.rdLine
  repeat' first | with_reducible assumption | with_reducible apply Work.taint_evolves | with_reducible apply State.refuseRead_evolves | with_reducible apply Work.fromStore_evolves | with_reducible apply Work.keepCopy_evolves | with_reducible apply Work.block_evolves | with_reducible apply Work.note_evolves | with_reducible apply Work.touchCopy_evolves | split | (simp only [Evolves.mk_iff]; apply Evolves.core) | (intro _) | (refine Evolves.work_snd_of (by assumption) ?_) | dsimp only

theorem Work.rdLoc_evolves {s0 : State} {a1 : Work} {a2} {a3} {a4} {a5} (h : Evolves s0 a1.s) : Evolves s0 (Work.rdLoc a1 a2 a3 a4 a5).2.s := by
  unfold Work.rdLoc
  repeat' first | with_reducible assumption | with_reducible apply Work.rdLine_evolves | with_reducible apply Evolves.foldl | with_reducible apply Evolves.foldl_work | with_reducible apply Evolves.foldl_work_snd | with_reducible apply Evolves.foldl_work_trd | with_reducible apply Evolves.foldl_work_qtd | (intro _) | (refine Evolves.work_snd_of (by assumption) ?_) | dsimp only

theorem Work.rdRemoteLine_evolves {s0 : State} {a1 : Work} {a2} (h : Evolves s0 a1.s) : Evolves s0 (Work.rdRemoteLine a1 a2).2.s := by
  unfold Work.rdRemoteLine
  repeat' first | with_reducible assumption | with_reducible apply Work.failAt_evolves | split | (simp only [Evolves.mk_iff]; apply Evolves.core) | dsimp only

theorem Work.rdFlush_evolves {s0 : State} {a1 : Work} {a2} (h : Evolves s0 a1.s) : Evolves s0 (Work.rdFlush a1 a2).2.s := by
  unfold Work.rdFlush
  repeat' first | with_reducible assumption | with_reducible apply Work.failAt_evolves | split | (simp only [Evolves.mk_iff]; apply Evolves.core) | dsimp only

theorem Work.rdRemote_evolves {s0 : State} {a1 : Work} {a2} {a3} (h : Evolves s0 a1.s) : Evolves s0 (Work.rdRemote a1 a2 a3).2.s := by
  unfold Work.rdRemote
  repeat' first | with_reducible assumption | with_reducible apply Work.rdRemoteLine_evolves | with_reducible apply Evolves.foldl | with_reducible apply Evolves.foldl_work | with_reducible apply Evolves.foldl_work_snd | with_reducible apply Evolves.foldl_work_trd | with_reducible apply Evolves.foldl_work_qtd | split | (simp only [Evolves.mk_iff]; apply Evolves.core) | (intro _) | (refine Evolves.work_snd_of (by assumption) ?_) | dsimp only

theorem Work.openPage_evolves {s0 : State} {a1 : Work} {a2} {a3} {a4} (h : Evolves s0 a1.s) : Evolves s0 (Work.openPage a1 a2 a3 a4).2.s := by
  unfold Work.openPage
  repeat' first | with_reducible assumption | with_reducible apply Work.rdRemote_evolves | with_reducible apply Work.taint_evolves | split | (simp only [Evolves.mk_iff]; apply Evolves.core) | (refine Evolves.work_snd_of (by assumption) ?_) | dsimp only

theorem Work.unpinned_evolves {s0 : State} {a1 : Work} (h : Evolves s0 a1.s) : Evolves s0 (Work.unpinned a1).s := by
  unfold Work.unpinned
  repeat' first | with_reducible assumption | with_reducible apply Work.fail_evolves | (simp only [Evolves.mk_iff]; apply Evolves.core) | dsimp only

theorem Work.rd_evolves {s0 : State} {a1 : Work} {a2} {a3} (h : Evolves s0 a1.s) : Evolves s0 (Work.rd a1 a2 a3).2.s := by
  unfold Work.rd
  repeat' first | with_reducible assumption | with_reducible apply Work.dead_evolves | with_reducible apply Work.unpinned_evolves | with_reducible apply Work.rdLoc_evolves | with_reducible apply Work.awaitPage_evolves | with_reducible apply Work.openPage_evolves | with_reducible apply Work.rdRemote_evolves | with_reducible apply Evolves.foldl | with_reducible apply Evolves.foldl_work | with_reducible apply Evolves.foldl_work_snd | with_reducible apply Evolves.foldl_work_trd | with_reducible apply Evolves.foldl_work_qtd | split | (simp only [Evolves.mk_iff]; apply Evolves.core) | (intro _) | (refine Evolves.work_snd_of (by assumption) ?_) | dsimp only

theorem Work.wrBuf_evolves {s0 : State} {a1 : Work} {a2} {a3} {a4} {a5} {a6} {a7} {a8} (h : Evolves s0 a1.s) : Evolves s0 (Work.wrBuf a1 a2 a3 a4 a5 a6 a7 a8).s := by
  unfold Work.wrBuf
  repeat' first | with_reducible assumption | with_reducible apply State.rescueWrite_evolves | with_reducible apply State.bufPut_evolves | with_reducible apply State.charge_evolves | with_reducible apply State.countWrites_evolves | split | (simp only [Evolves.mk_iff]; apply Evolves.core) | dsimp only

theorem Work.wrLine_evolves {s0 : State} {a1 : Work} {a2} {a3} {a4} {a5} {a6} (h : Evolves s0 a1.s) : Evolves s0 (Work.wrLine a1 a2 a3 a4 a5 a6).s := by
  unfold Work.wrLine
  repeat' first | with_reducible assumption | with_reducible apply State.refuseWrite_evolves | with_reducible apply Work.wrBuf_evolves | with_reducible apply Work.block_evolves | with_reducible apply State.landLine_evolves | with_reducible apply State.showOld_evolves | with_reducible apply State.countWrites_evolves | with_reducible apply State.charge_evolves | with_reducible apply State.modCmd_evolves | with_reducible apply Work.setCopies_evolves | split | (simp only [Evolves.mk_iff]; apply Evolves.core) | (intro _) | (refine Evolves.snd_of (by assumption) ?_) | dsimp only

theorem Work.wrLoc_evolves {s0 : State} {a1 : Work} {a2} {a3} {a4} {a5} (h : Evolves s0 a1.s) : Evolves s0 (Work.wrLoc a1 a2 a3 a4 a5).s := by
  unfold Work.wrLoc
  repeat' first | with_reducible assumption | with_reducible apply Work.wrLine_evolves | with_reducible apply Evolves.foldl | with_reducible apply Evolves.foldl_work | with_reducible apply Evolves.foldl_work_snd | with_reducible apply Evolves.foldl_work_trd | with_reducible apply Evolves.foldl_work_qtd | (intro _) | dsimp only

theorem Work.wrOne_evolves {s0 : State} {a1 : Work} {a2} {a3} {a4} {a5} (h : Evolves s0 a1.s) : Evolves s0 (Work.wrOne a1 a2 a3 a4 a5).s := by
  unfold Work.wrOne
  repeat' first | with_reducible assumption | with_reducible apply State.issue_evolves | with_reducible apply Work.fail_evolves | with_reducible apply State.modCmd_evolves | with_reducible apply State.modRing_evolves | split | (simp only [Evolves.mk_iff]; apply Evolves.core) | (intro _) | (refine Evolves.snd_of (by assumption) ?_) | dsimp only

theorem Work.wrRemote_evolves {s0 : State} {a1 : Work} {a2} {a3} {a4} {a5} (h : Evolves s0 a1.s) : Evolves s0 (Work.wrRemote a1 a2 a3 a4 a5).s := by
  unfold Work.wrRemote
  repeat' first | with_reducible assumption | with_reducible apply Work.wrOne_evolves | with_reducible apply Evolves.foldl | with_reducible apply Evolves.foldl_work | with_reducible apply Evolves.foldl_work_snd | with_reducible apply Evolves.foldl_work_trd | with_reducible apply Evolves.foldl_work_qtd | (intro _) | dsimp only

theorem Work.putFetched_evolves {s0 : State} {a1 : Work} {a2} {a3} {a4} {a5} (h : Evolves s0 a1.s) : Evolves s0 (Work.putFetched a1 a2 a3 a4 a5).s := by
  unfold Work.putFetched
  repeat' first | with_reducible assumption | with_reducible apply State.modCmd_evolves | with_reducible apply Evolves.foldl | with_reducible apply Evolves.foldl_work | with_reducible apply Evolves.foldl_work_snd | with_reducible apply Evolves.foldl_work_trd | with_reducible apply Evolves.foldl_work_qtd | split | (simp only [Evolves.mk_iff]; apply Evolves.core) | (intro _) | dsimp only

theorem Work.wrSealed_evolves {s0 : State} {a1 : Work} {a2} {a3} {a4} {a5} {a6} {a7} (h : Evolves s0 a1.s) : Evolves s0 (Work.wrSealed a1 a2 a3 a4 a5 a6 a7).s := by
  unfold Work.wrSealed
  repeat' first | with_reducible assumption | with_reducible apply Work.openPage_evolves | with_reducible apply Work.putFetched_evolves | with_reducible apply Work.wrOne_evolves | split | (simp only [Evolves.mk_iff]; apply Evolves.core) | (refine Evolves.work_snd_of (by assumption) ?_) | dsimp only

theorem Work.wr_evolves {s0 : State} {a1 : Work} {a2} {a3} {a4} {a5} (h : Evolves s0 a1.s) : Evolves s0 (Work.wr a1 a2 a3 a4 a5).s := by
  unfold Work.wr
  repeat' first | with_reducible assumption | with_reducible apply Work.dead_evolves | with_reducible apply Work.unpinned_evolves | with_reducible apply Work.wrLoc_evolves | with_reducible apply Work.awaitPage_evolves | with_reducible apply Work.wrSealed_evolves | with_reducible apply Work.wrRemote_evolves | with_reducible apply Evolves.foldl | with_reducible apply Evolves.foldl_work | with_reducible apply Evolves.foldl_work_snd | with_reducible apply Evolves.foldl_work_trd | with_reducible apply Evolves.foldl_work_qtd | split | (simp only [Evolves.mk_iff]; apply Evolves.core) | (intro _) | dsimp only

end Sys2Proof.Machine
end

