-- ==== Sys2Proof/Laws/EvolveTensors.lean ====
section
/-! SUPPORT. No operation of `Machine/Tensors.lean` does what no command may do (`Evolves`). -/

namespace Sys2Proof.Machine

set_option linter.all false

theorem Work.logTile_evolves {s0 : State} {a1 : Work} {a2} {a3} {a4} (h : Evolves s0 a1.s) : Evolves s0 (Work.logTile a1 a2 a3 a4).s := by
  unfold Work.logTile
  repeat' first | with_reducible assumption | with_reducible apply State.modCmd_evolves | with_reducible apply State.logAt_evolves | split | (simp only [Evolves.mk_iff]; apply Evolves.core) | (intro _) | dsimp only

theorem Work.readTile_evolves {s0 : State} {a1 : Work} {a2 : Work → Nat → Nat → Nat × Work} {a3} {a4} {a5} {a6} {a7} {a8} (hf : ∀ w i j, Evolves s0 w.s → Evolves s0 (a2 w i j).2.s) (h : Evolves s0 a1.s) : Evolves s0 (Work.readTile a1 a2 a3 a4 a5 a6 a7 a8).2.s := by
  unfold Work.readTile
  repeat' first | with_reducible assumption | apply hf | with_reducible apply Work.taint_evolves | with_reducible apply Work.logTile_evolves | split | (simp only [Evolves.mk_iff]; apply Evolves.core) | (intro _) | (refine Evolves.work_snd_of (by assumption) ?_) | dsimp only

theorem Work.vaReader_evolves {s0 : State} {a1} {a2 : Work} {a3} {a4} (h : Evolves s0 a2.s) : Evolves s0 (Work.vaReader a1 a2 a3 a4).2.s := by
  unfold Work.vaReader
  repeat' first | with_reducible assumption | with_reducible apply Work.rd_evolves | dsimp only

theorem Work.ashlarHead_evolves {s0 : State} {a1 : Work} {a2} (h : Evolves s0 a1.s) : Evolves s0 (Work.ashlarHead a1 a2).2.s := by
  unfold Work.ashlarHead
  repeat' first | with_reducible assumption | with_reducible apply Work.rd_evolves | with_reducible apply Work.taint_evolves | with_reducible apply Work.logTile_evolves | split | (simp only [Evolves.mk_iff]; apply Evolves.core) | (refine Evolves.work_snd_of (by assumption) ?_) | dsimp only

theorem Work.rdMarked_evolves {s0 : State} {a1 : Work} {a2} {a3} (h : Evolves s0 a1.s) : Evolves s0 (Work.rdMarked a1 a2 a3).2.s := by
  unfold Work.rdMarked
  repeat' first | with_reducible assumption | with_reducible apply Work.rd_evolves | with_reducible apply Evolves.foldl | with_reducible apply Evolves.foldl_work | with_reducible apply Evolves.foldl_work_snd | with_reducible apply Evolves.foldl_work_trd | with_reducible apply Evolves.foldl_work_qtd | split | (simp only [Evolves.mk_iff]; apply Evolves.core) | (intro _) | (refine Evolves.work_snd_of (by assumption) ?_) | dsimp only

theorem Work.keepRow_evolves {s0 : State} {a1 : Work} {a2} {a3} {a4} (h : Evolves s0 a1.s) : Evolves s0 (Work.keepRow a1 a2 a3 a4).s := by
  unfold Work.keepRow
  repeat' first | with_reducible assumption | split | (simp only [Evolves.mk_iff]; apply Evolves.core) | dsimp only

theorem Work.noteOver_evolves {s0 : State} {a1 : Work} {a2} {a3} {a4} (h : Evolves s0 a1.s) : Evolves s0 (Work.noteOver a1 a2 a3 a4).s := by
  unfold Work.noteOver
  repeat' first | with_reducible assumption | split | (simp only [Evolves.mk_iff]; apply Evolves.core) | (intro _) | dsimp only

theorem Work.openBits_evolves {s0 : State} {a1 : Work} {a2} {a3} (h : Evolves s0 a1.s) : Evolves s0 (Work.openBits a1 a2 a3).2.s := by
  unfold Work.openBits
  repeat' first | with_reducible assumption | with_reducible apply Work.draws_evolves | split | (refine Evolves.work_snd_of (by assumption) ?_) | dsimp only

theorem Work.openVals_evolves {s0 : State} {a1 : Work} {a2} (h : Evolves s0 a1.s) : Evolves s0 (Work.openVals a1 a2).2.s := by
  unfold Work.openVals
  repeat' first | with_reducible assumption | with_reducible apply Work.draws_evolves | split | (intro _) | (refine Evolves.work_snd_of (by assumption) ?_) | dsimp only

theorem Work.rowOfTile_evolves {s0 : State} {a1} {a2} {a3} {a4} {a5} {a6} {a7} {a8} {a9} (h : Evolves s0 a8.2.s) : Evolves s0 (Work.rowOfTile a1 a2 a3 a4 a5 a6 a7 a8 a9).2.s := by
  unfold Work.rowOfTile
  repeat' first | with_reducible assumption | with_reducible apply Work.dead_evolves | with_reducible apply Work.readTile_evolves | with_reducible apply Work.noteOver_evolves | with_reducible apply Work.vaReader_evolves | split | (simp only [Evolves.mk_iff]; apply Evolves.core) | (refine Evolves.work_snd_of (by assumption) ?_) | dsimp only

theorem Work.readAshlarRow_evolves {s0 : State} {a1 : Work} {a2} {a3} {a4} {a5} (h : Evolves s0 a1.s) : Evolves s0 (Work.readAshlarRow a1 a2 a3 a4 a5).2.s := by
  unfold Work.readAshlarRow
  repeat' first | with_reducible assumption | with_reducible apply Work.ashlarHead_evolves | with_reducible apply Work.fail_evolves | with_reducible apply Work.rowOfTile_evolves | with_reducible apply Evolves.foldl | with_reducible apply Evolves.foldl_work | with_reducible apply Evolves.foldl_work_snd | with_reducible apply Evolves.foldl_work_trd | with_reducible apply Evolves.foldl_work_qtd | split | (simp only [Evolves.mk_iff]; apply Evolves.core) | (intro _) | (refine Evolves.work_snd_of (by assumption) ?_) | dsimp only

theorem Work.readRow_evolves {s0 : State} {a1 : Work} {a2} {a3} {a4} {a5} (h : Evolves s0 a1.s) : Evolves s0 (Work.readRow a1 a2 a3 a4 a5).2.s := by
  unfold Work.readRow
  repeat' first | with_reducible assumption | with_reducible apply Work.noteOver_evolves | with_reducible apply Work.rdMarked_evolves | with_reducible apply Work.keepRow_evolves | with_reducible apply Work.readAshlarRow_evolves | split | (refine Evolves.work_snd_of (by assumption) ?_) | dsimp only

theorem Work.readVals_evolves {s0 : State} {a1 : Work} {a2} {a3} {a4} {a5} (h : Evolves s0 a1.s) : Evolves s0 (Work.readVals a1 a2 a3 a4 a5).2.s := by
  unfold Work.readVals
  repeat' first | with_reducible assumption | with_reducible apply Work.readRow_evolves | (refine Evolves.work_snd_of (by assumption) ?_) | dsimp only

theorem Work.readVecOf_evolves {s0 : State} {a1 : Work} {a2} {a3} {a4} {a5} {a6} (h : Evolves s0 a1.s) : Evolves s0 (Work.readVecOf a1 a2 a3 a4 a5 a6).2.s := by
  unfold Work.readVecOf
  repeat' first | with_reducible assumption | with_reducible apply Work.readRow_evolves | with_reducible apply Work.fail_evolves | split | (simp only [Evolves.mk_iff]; apply Evolves.core) | (refine Evolves.work_snd_of (by assumption) ?_) | dsimp only

theorem Work.readVec_evolves {s0 : State} {a1 : Work} {a2} {a3} {a4} {a5} (h : Evolves s0 a1.s) : Evolves s0 (Work.readVec a1 a2 a3 a4 a5).2.s := by
  unfold Work.readVec
  repeat' first | with_reducible assumption | with_reducible apply Work.readVals_evolves | (refine Evolves.work_snd_of (by assumption) ?_) | dsimp only

theorem Work.dump_evolves {s0 : State} {a1 : Work} {a2} {a3} {a4} {a5} {a6} (h : Evolves s0 a1.s) : Evolves s0 (Work.dump a1 a2 a3 a4 a5 a6).s := by
  unfold Work.dump
  repeat' first | with_reducible assumption | with_reducible apply State.ownWrite_evolves | with_reducible apply Evolves.foldl | with_reducible apply Evolves.foldl_work | with_reducible apply Evolves.foldl_work_snd | with_reducible apply Evolves.foldl_work_trd | with_reducible apply Evolves.foldl_work_qtd | split | (simp only [Evolves.mk_iff]; apply Evolves.core) | (intro _) | dsimp only

theorem Work.dumpRow_evolves {s0 : State} {a1 : Work} {a2} {a3} {a4} {a5} (h : Evolves s0 a1.s) : Evolves s0 (Work.dumpRow a1 a2 a3 a4 a5).s := by
  unfold Work.dumpRow
  repeat' first | with_reducible assumption | with_reducible apply Work.dump_evolves | with_reducible apply Evolves.foldl | with_reducible apply Evolves.foldl_work | with_reducible apply Evolves.foldl_work_snd | with_reducible apply Evolves.foldl_work_trd | with_reducible apply Evolves.foldl_work_qtd | split | (intro _) | dsimp only

theorem Work.writePlain_evolves {s0 : State} {a1 : Work} {a2} {a3} {a4} {a5} (h : Evolves s0 a1.s) : Evolves s0 (Work.writePlain a1 a2 a3 a4 a5).s := by
  unfold Work.writePlain
  repeat' first | with_reducible assumption | with_reducible apply Work.wr_evolves | with_reducible apply Work.dumpRow_evolves | with_reducible apply Evolves.foldl | with_reducible apply Evolves.foldl_work | with_reducible apply Evolves.foldl_work_snd | with_reducible apply Evolves.foldl_work_trd | with_reducible apply Evolves.foldl_work_qtd | split | (intro _) | dsimp only

theorem Work.writeRun_evolves {s0 : State} {a1 : Work} {a2} {a3} {a4} {a5} {a6} {a7} {a8} (h : Evolves s0 a1.s) : Evolves s0 (Work.writeRun a1 a2 a3 a4 a5 a6 a7 a8).s := by
  unfold Work.writeRun
  repeat' first | with_reducible assumption | with_reducible apply Work.dump_evolves | with_reducible apply Work.wr_evolves | dsimp only

theorem Work.writeTile_evolves {s0 : State} {a1 : Work} {a2} {a3} {a4} {a5} {a6} {a7} {a8} {a9} {a10} (h : Evolves s0 a1.s) : Evolves s0 (Work.writeTile a1 a2 a3 a4 a5 a6 a7 a8 a9 a10).2.s := by
  unfold Work.writeTile
  repeat' first | with_reducible assumption | with_reducible apply Work.draws_evolves | with_reducible apply Work.dump_evolves | with_reducible apply Work.wr_evolves | (intro _) | (refine Evolves.work_snd_of (by assumption) ?_) | dsimp only

theorem Work.writeTiles_evolves {s0 : State} {a1 : Work} {a2} {a3} {a4} {a5} {a6} {a7} {a8} (h : Evolves s0 a1.s) : Evolves s0 (Work.writeTiles a1 a2 a3 a4 a5 a6 a7 a8).2.s := by
  unfold Work.writeTiles
  repeat' first | with_reducible assumption | with_reducible apply Work.writeTile_evolves | with_reducible apply Evolves.foldl | with_reducible apply Evolves.foldl_work | with_reducible apply Evolves.foldl_work_snd | with_reducible apply Evolves.foldl_work_trd | with_reducible apply Evolves.foldl_work_qtd | (intro _) | (refine Evolves.work_snd_of (by assumption) ?_) | dsimp only

theorem Work.writeRows_evolves {s0 : State} {a1 : Work} {a2} {a3} {a4} {a5} {a6} {a7} {a8} (h : Evolves s0 a1.s) : Evolves s0 (Work.writeRows a1 a2 a3 a4 a5 a6 a7 a8).2.s := by
  unfold Work.writeRows
  repeat' first | with_reducible assumption | with_reducible apply Work.writePlain_evolves | with_reducible apply Work.writeTiles_evolves | with_reducible apply Evolves.foldl | with_reducible apply Evolves.foldl_work | with_reducible apply Evolves.foldl_work_snd | with_reducible apply Evolves.foldl_work_trd | with_reducible apply Evolves.foldl_work_qtd | split | (intro _) | (refine Evolves.work_snd_of (by assumption) ?_) | dsimp only

theorem Work.convert_evolves {s0 : State} {a1 : Work} {a2} {a3} {a4} (h : Evolves s0 a1.s) : Evolves s0 (Work.convert a1 a2 a3 a4).2.s := by
  unfold Work.convert
  repeat' first | with_reducible assumption | with_reducible apply Work.openVals_evolves | with_reducible apply Work.draws_evolves | (simp only [Evolves.mk_iff]; apply Evolves.core) | (refine Evolves.work_snd_of (by assumption) ?_) | dsimp only

theorem State.modCourse_evolves {s0 : State} {a1 : State} {a2} {a3} (h : Evolves s0 a1) : Evolves s0 (State.modCourse a1 a2 a3) := by
  unfold State.modCourse
  repeat' first | with_reducible assumption | (simp only [Evolves.mk_iff]; apply Evolves.core) | dsimp only

theorem State.dropCopies_evolves {s0 : State} {a1 : State} {a2} (h : Evolves s0 a1) : Evolves s0 (State.dropCopies a1 a2) := by
  unfold State.dropCopies
  repeat' first | with_reducible assumption | (simp only [Evolves.mk_iff]; apply Evolves.core) | dsimp only

theorem State.changeComp_evolves {s0 : State} {a1 : State} {a2} {a3} (h : Evolves s0 a1) : Evolves s0 (State.changeComp a1 a2 a3) := by
  unfold State.changeComp
  repeat' first | with_reducible assumption | with_reducible apply State.dropCopies_evolves | split | (simp only [Evolves.mk_iff]; apply Evolves.core) | (intro _) | dsimp only

theorem State.dropStaged_evolves {s0 : State} {a1 : State} {a2} {a3} (h : Evolves s0 a1) : Evolves s0 (State.dropStaged a1 a2 a3) := by
  unfold State.dropStaged
  repeat' first | with_reducible assumption | (simp only [Evolves.mk_iff]; apply Evolves.core) | (intro _) | dsimp only

theorem State.firstTile_evolves {s0 : State} {a1 : State} {a2} {a3} {a4} (h : Evolves s0 a1) : Evolves s0 (State.firstTile a1 a2 a3 a4) := by
  unfold State.firstTile
  repeat' first | with_reducible assumption | with_reducible apply State.changeComp_evolves | with_reducible apply State.dropCopies_evolves | with_reducible apply State.dropStaged_evolves | with_reducible apply State.modCmd_evolves | with_reducible apply State.mark_evolves | split | (simp only [Evolves.mk_iff]; apply Evolves.core) | (intro _) | dsimp only

theorem State.takeTile_evolves {s0 : State} {a1 : State} {a2} {a3} (h : Evolves s0 a1) : Evolves s0 (State.takeTile a1 a2 a3) := by
  unfold State.takeTile
  repeat' first | with_reducible assumption | with_reducible apply State.modCmd_evolves | with_reducible apply State.firstTile_evolves | with_reducible apply State.bufMake_evolves | split | (simp only [Evolves.mk_iff]; apply Evolves.core) | (intro _) | dsimp only

theorem State.chargeEngine_evolves {s0 : State} {a1} {a2 : State} {a3} (h : Evolves s0 a2) : Evolves s0 (State.chargeEngine a1 a2 a3) := by
  unfold State.chargeEngine
  repeat' first | with_reducible assumption | with_reducible apply State.bumpMeter_evolves | with_reducible apply State.modComp_evolves | with_reducible apply State.bump_evolves | with_reducible apply State.modCmd_evolves | split | (simp only [Evolves.mk_iff]; apply Evolves.core) | (intro _) | dsimp only

theorem State.noteTile_evolves {s0 : State} {a1} {a2 : State} {a3} (h : Evolves s0 a2) : Evolves s0 (State.noteTile a1 a2 a3) := by
  unfold State.noteTile
  repeat' first | with_reducible assumption | with_reducible apply State.modCmd_evolves | split | (simp only [Evolves.mk_iff]; apply Evolves.core) | (intro _) | dsimp only

theorem State.markEnds_evolves {s0 : State} {a1 : State} {a2} (h : Evolves s0 a1) : Evolves s0 (State.markEnds a1 a2) := by
  unfold State.markEnds
  repeat' first | with_reducible assumption | with_reducible apply State.modCmd_evolves | with_reducible apply State.markAt_evolves | with_reducible apply Evolves.foldl | split | (simp only [Evolves.mk_iff]; apply Evolves.core) | (intro _) | dsimp only

theorem State.finish_evolves {s0 : State} {a1 : State} {a2} (h : Evolves s0 a1) : Evolves s0 (State.finish a1 a2) := by
  unfold State.finish
  repeat' first | with_reducible assumption | with_reducible apply State.noteTile_evolves | with_reducible apply State.chargeEngine_evolves | with_reducible apply State.markEnds_evolves | with_reducible apply State.modCmd_evolves | with_reducible apply Evolves.foldl | split | (simp only [Evolves.mk_iff]; apply Evolves.core) | (intro _) | dsimp only

theorem State.issueWant_evolves {s0 : State} {a1 : State} {a2} {a3} {a4} (h : Evolves s0 a1) : Evolves s0 (State.issueWant a1 a2 a3 a4) := by
  unfold State.issueWant
  repeat' first | with_reducible assumption | with_reducible apply State.issue_evolves | with_reducible apply State.modCmd_evolves | split | (simp only [Evolves.mk_iff]; apply Evolves.core) | (intro _) | (refine Evolves.snd_of (by assumption) ?_) | dsimp only

theorem State.issueWants_evolves {s0 : State} {a1 : State} {a2} {a3} (h : Evolves s0 a1) : Evolves s0 (State.issueWants a1 a2 a3) := by
  unfold State.issueWants
  repeat' first | with_reducible assumption | with_reducible apply State.issueWant_evolves | with_reducible apply State.courseAsks_evolves | with_reducible apply State.wait_evolves | with_reducible apply Evolves.foldl | split | (simp only [Evolves.mk_iff]; apply Evolves.core) | (intro _) | dsimp only

theorem State.dropOnce_evolves {s0 : State} {a1 : State} {a2} (h : Evolves s0 a1) : Evolves s0 (State.dropOnce a1 a2) := by
  unfold State.dropOnce
  repeat' first | with_reducible assumption | split | (simp only [Evolves.mk_iff]; apply Evolves.core) | (intro _) | dsimp only

theorem State.settleItem_evolves {s0 : State} {a1 : Work} {a2} (h : Evolves s0 a1.s) : Evolves s0 (State.settleItem a1 a2) := by
  unfold State.settleItem
  repeat' first | with_reducible assumption | with_reducible apply State.dropOnce_evolves | with_reducible apply State.modCmd_evolves | split | (simp only [Evolves.mk_iff]; apply Evolves.core) | (intro _) | dsimp only

theorem State.suspendItem_evolves {s0 : State} {a1 : State} {a2} {a3} (h : Evolves s0 a1) : Evolves s0 (State.suspendItem a1 a2 a3) := by
  unfold State.suspendItem
  repeat' first | with_reducible assumption | with_reducible apply State.modCmd_evolves | split | (simp only [Evolves.mk_iff]; apply Evolves.core) | (intro _) | dsimp only

theorem State.runItem_evolves {s0 : State} {a1 : Work → Nat → Work} {a2} {a3} {a4 : State} {a5} {a6} (hf : ∀ w i, Evolves s0 w.s → Evolves s0 (a1 w i).s) (h : Evolves s0 a4) : Evolves s0 (State.runItem a1 a2 a3 a4 a5 a6).2 := by
  unfold State.runItem
  repeat' first | with_reducible assumption | apply hf | with_reducible apply State.settleItem_evolves | with_reducible apply State.issueWants_evolves | with_reducible apply State.suspendItem_evolves | split | (intro _) | dsimp only

theorem State.runLoop_evolves {s0 : State} {a1 : Work → Nat → Work} {a2} {a3} {a4} {a5 : State} (hf : ∀ w i, Evolves s0 w.s → Evolves s0 (a1 w i).s) (h : Evolves s0 a5) : Evolves s0 (State.runLoop a1 a2 a3 a4 a5) := by
  induction a4 generalizing a5 with
  | zero =>
    unfold State.runLoop
    repeat' first | with_reducible assumption | apply hf | with_reducible apply State.runItem_evolves | split | (simp only [Evolves.mk_iff]; apply Evolves.core) | (intro _) | (refine Evolves.snd_of (by assumption) ?_) | dsimp only
  | succ n ih =>
    unfold State.runLoop
    repeat' first | with_reducible assumption | with_reducible apply ih | apply hf | with_reducible apply State.runItem_evolves | split | (simp only [Evolves.mk_iff]; apply Evolves.core) | (intro _) | (refine Evolves.snd_of (by assumption) ?_) | dsimp only

theorem State.retryItem_evolves {s0 : State} {a1 : Work → Nat → Work} {a2} {a3} {a4 : State} {a5} (hf : ∀ w i, Evolves s0 w.s → Evolves s0 (a1 w i).s) (h : Evolves s0 a4) : Evolves s0 (State.retryItem a1 a2 a3 a4 a5) := by
  unfold State.retryItem
  repeat' first | with_reducible assumption | apply hf | with_reducible apply State.runItem_evolves | split | (simp only [Evolves.mk_iff]; apply Evolves.core) | (intro _) | (refine Evolves.snd_of (by assumption) ?_) | dsimp only

theorem State.runItems_evolves {s0 : State} {a1 : State} {a2} {a3} {a4} {a5} {a6 : Work → Nat → Work} (hf : ∀ w i, Evolves s0 w.s → Evolves s0 (a6 w i).s) (h : Evolves s0 a1) : Evolves s0 (State.runItems a1 a2 a3 a4 a5 a6) := by
  unfold State.runItems
  repeat' first | with_reducible assumption | apply hf | with_reducible apply State.finish_evolves | with_reducible apply State.takeTile_evolves | with_reducible apply State.retryItem_evolves | with_reducible apply State.runLoop_evolves | with_reducible apply Evolves.foldl | split | (simp only [Evolves.mk_iff]; apply Evolves.core) | (intro _) | dsimp only

end Sys2Proof.Machine
end

