-- ==== Sys2Proof/Laws/EvolvePaging.lean ====
section
/-! SUPPORT. No operation of `Machine/Paging.lean` does what no command may do (`Evolves`). -/

namespace Sys2Proof.Machine

set_option linter.all false

theorem State.abandonCmd_evolves {s0 : State} {a1 : State} {a2} {a3} (h : Evolves s0 a1) : Evolves s0 (State.abandonCmd a1 a2 a3) := by
  unfold State.abandonCmd
  repeat' first | with_reducible assumption | with_reducible apply State.finish_evolves | with_reducible apply State.modCmd_evolves | dsimp only

theorem State.modPage_evolves {s0 : State} {a1 : State} {a2} {a3} (h : Evolves s0 a1) : Evolves s0 (State.modPage a1 a2 a3) := by
  unfold State.modPage
  repeat' first | with_reducible assumption | (simp only [Evolves.mk_iff]; apply Evolves.core) | dsimp only

theorem State.fillFails_evolves {s0 : State} {a1 : State} {a2} {a3} (h : Evolves s0 a1) : Evolves s0 (State.fillFails a1 a2 a3) := by
  unfold State.fillFails
  repeat' first | with_reducible assumption | with_reducible apply State.abandonCmd_evolves | with_reducible apply Evolves.foldl | split | (simp only [Evolves.mk_iff]; apply Evolves.core) | (intro _) | dsimp only

theorem State.fillRead_evolves {s0 : State} {a1 : State} {a2} {a3} {a4} {a5} (h : Evolves s0 a1) : Evolves s0 (State.fillRead a1 a2 a3 a4 a5) := by
  unfold State.fillRead
  repeat' first | with_reducible assumption | with_reducible apply State.issue_evolves | with_reducible apply State.fillFails_evolves | split | (simp only [Evolves.mk_iff]; apply Evolves.core) | (refine Evolves.snd_of (by assumption) ?_) | dsimp only

theorem State.startFill_evolves {s0 : State} {a1 : State} {a2} {a3} {a4} {a5} {a6} {a7} (h : Evolves s0 a1) : Evolves s0 (State.startFill a1 a2 a3 a4 a5 a6 a7) := by
  unfold State.startFill
  repeat' first | with_reducible assumption | with_reducible apply State.fillRead_evolves | with_reducible apply Evolves.foldl | split | (simp only [Evolves.mk_iff]; apply Evolves.core) | (intro _) | dsimp only

theorem State.deferFault_evolves {s0 : State} {a1 : State} {a2} (h : Evolves s0 a1) : Evolves s0 (State.deferFault a1 a2) := by
  unfold State.deferFault
  repeat' first | with_reducible assumption | (simp only [Evolves.mk_iff]; apply Evolves.core) | dsimp only

theorem State.faultAt_evolves {s0 : State} {a1 : State} {a2} (h : Evolves s0 a1) : Evolves s0 (State.faultAt a1 a2) := by
  unfold State.faultAt
  repeat' first | with_reducible assumption | with_reducible apply State.modPage_evolves | with_reducible apply State.deferFault_evolves | with_reducible apply State.abandonCmd_evolves | with_reducible apply State.startFill_evolves | split | (simp only [Evolves.mk_iff]; apply Evolves.core) | (intro _) | dsimp only

theorem State.pumpFaults_evolves {s0 : State} {a1 : State} (h : Evolves s0 a1) : Evolves s0 (State.pumpFaults a1) := by
  unfold State.pumpFaults
  repeat' first | with_reducible assumption | with_reducible apply State.faultAt_evolves | with_reducible apply Evolves.foldl | (simp only [Evolves.mk_iff]; apply Evolves.core) | (intro _) | dsimp only

theorem State.tileFaults_evolves {s0 : State} {a1 : State} {a2} {a3} (h : Evolves s0 a1) : Evolves s0 (State.tileFaults a1 a2 a3) := by
  unfold State.tileFaults
  repeat' first | with_reducible assumption | with_reducible apply State.pumpFaults_evolves | with_reducible apply State.deferFault_evolves | split | (intro _) | dsimp only

theorem State.pageGone_evolves {s0 : State} {a1 : State} {a2} (h : Evolves s0 a1) : Evolves s0 (State.pageGone a1 a2) := by
  unfold State.pageGone
  repeat' first | with_reducible assumption | with_reducible apply State.pumpFaults_evolves | (simp only [Evolves.mk_iff]; apply Evolves.core) | dsimp only

end Sys2Proof.Machine
end

