-- ==== Sys2Proof/Laws/EvolveTileOps.lean ====
section
/-! SUPPORT. No operation of `Machine/TileOps.lean` does what no command may do (`Evolves`). -/

namespace Sys2Proof.Machine

set_option linter.all false

theorem overRows_evolves {s0 : State} {α : Type} {a2 : Work} {a3} {a4 : Work → Nat → α × Work} (hf : ∀ w i, Evolves s0 w.s → Evolves s0 (a4 w i).2.s) (h : Evolves s0 a2.s) : Evolves s0 (overRows a2 a3 a4).2.s := by
  unfold overRows
  repeat' first | with_reducible assumption | apply hf | with_reducible apply Evolves.foldl | with_reducible apply Evolves.foldl_work | with_reducible apply Evolves.foldl_work_snd | with_reducible apply Evolves.foldl_work_trd | with_reducible apply Evolves.foldl_work_qtd | (intro _) | (refine Evolves.work_snd_of (by assumption) ?_) | dsimp only

theorem moveCopy_evolves {s0 : State} {a1 : Work} {a2} {a3} (h : Evolves s0 a1.s) : Evolves s0 (moveCopy a1 a2 a3).s := by
  unfold moveCopy
  repeat' first | with_reducible assumption | with_reducible apply Work.ashlarHead_evolves | with_reducible apply Work.dead_evolves | with_reducible apply Work.rd_evolves | with_reducible apply Work.noteOver_evolves | with_reducible apply Work.readTile_evolves | with_reducible apply Work.vaReader_evolves | with_reducible apply overRows_evolves | with_reducible apply Work.openBits_evolves | with_reducible apply Work.writeTile_evolves | with_reducible apply Work.dump_evolves | with_reducible apply Work.wr_evolves | with_reducible apply Work.readRow_evolves | with_reducible apply Work.convert_evolves | with_reducible apply Work.writeRows_evolves | with_reducible apply Evolves.foldl | with_reducible apply Evolves.foldl_work | with_reducible apply Evolves.foldl_work_snd | with_reducible apply Evolves.foldl_work_trd | with_reducible apply Evolves.foldl_work_qtd | split | (simp only [Evolves.mk_iff]; apply Evolves.core) | (intro _) | (refine Evolves.work_snd_of (by assumption) ?_) | dsimp only

theorem stageLines_evolves {s0 : State} {a1 : Work} {a2} {a3} (h : Evolves s0 a1.s) : Evolves s0 (stageLines a1 a2 a3).s := by
  unfold stageLines
  repeat' first | with_reducible assumption | with_reducible apply Work.fail_evolves | with_reducible apply Work.rdLine_evolves | with_reducible apply Evolves.foldl | with_reducible apply Evolves.foldl_work | with_reducible apply Evolves.foldl_work_snd | with_reducible apply Evolves.foldl_work_trd | with_reducible apply Evolves.foldl_work_qtd | split | (simp only [Evolves.mk_iff]; apply Evolves.core) | (intro _) | (refine Evolves.work_snd_of (by assumption) ?_) | dsimp only

theorem moveStage_evolves {s0 : State} {a1 : Work} {a2} {a3} (h : Evolves s0 a1.s) : Evolves s0 (moveStage a1 a2 a3).s := by
  unfold moveStage
  repeat' first | with_reducible assumption | with_reducible apply stageLines_evolves | with_reducible apply Work.ashlarHead_evolves | with_reducible apply Work.dead_evolves | with_reducible apply Work.fail_evolves | with_reducible apply Work.rd_evolves | with_reducible apply Evolves.foldl | with_reducible apply Evolves.foldl_work | with_reducible apply Evolves.foldl_work_snd | with_reducible apply Evolves.foldl_work_trd | with_reducible apply Evolves.foldl_work_qtd | split | (simp only [Evolves.mk_iff]; apply Evolves.core) | (intro _) | (refine Evolves.work_snd_of (by assumption) ?_) | dsimp only

theorem evictPiece_evolves {s0 : State} {a1} {a2} {a3} {a4 : Work} {a5} (h : Evolves s0 a4.s) : Evolves s0 (evictPiece a1 a2 a3 a4 a5).s := by
  unfold evictPiece
  repeat' first | with_reducible assumption | with_reducible apply Work.rdLoc_evolves | with_reducible apply Work.wrSealed_evolves | with_reducible apply Work.wrOne_evolves | split | (simp only [Evolves.mk_iff]; apply Evolves.core) | (refine Evolves.work_snd_of (by assumption) ?_) | dsimp only

theorem Work.modPage_evolves {s0 : State} {a1 : Work} {a2} {a3} (h : Evolves s0 a1.s) : Evolves s0 (Work.modPage a1 a2 a3).s := by
  unfold Work.modPage
  repeat' first | with_reducible assumption | with_reducible apply State.modPage_evolves | (simp only [Evolves.mk_iff]; apply Evolves.core) | dsimp only

theorem evictStart_evolves {s0 : State} {a1 : Work} {a2} {a3} {a4} {a5} (h : Evolves s0 a1.s) : Evolves s0 (evictStart a1 a2 a3 a4 a5).s := by
  unfold evictStart
  repeat' first | with_reducible assumption | with_reducible apply Work.block_evolves | with_reducible apply evictPiece_evolves | with_reducible apply Work.modPage_evolves | with_reducible apply Evolves.foldl | with_reducible apply Evolves.foldl_work | with_reducible apply Evolves.foldl_work_snd | with_reducible apply Evolves.foldl_work_trd | with_reducible apply Evolves.foldl_work_qtd | split | (simp only [Evolves.mk_iff]; apply Evolves.core) | (intro _) | dsimp only

theorem evictEnd_evolves {s0 : State} {a1 : Work} {a2} {a3} (h : Evolves s0 a1.s) : Evolves s0 (evictEnd a1 a2 a3).s := by
  unfold evictEnd
  repeat' first | with_reducible assumption | with_reducible apply Work.rdFlush_evolves | with_reducible apply State.pageGone_evolves | split | (simp only [Evolves.mk_iff]; apply Evolves.core) | (refine Evolves.work_snd_of (by assumption) ?_) | dsimp only

theorem moveEvict_evolves {s0 : State} {a1 : Work} {a2} {a3} (h : Evolves s0 a1.s) : Evolves s0 (moveEvict a1 a2 a3).s := by
  unfold moveEvict
  repeat' first | with_reducible assumption | with_reducible apply Work.dead_evolves | with_reducible apply evictStart_evolves | with_reducible apply evictEnd_evolves | split | (simp only [Evolves.mk_iff]; apply Evolves.core) | dsimp only

theorem itemMove_evolves {s0 : State} {a1 : Work} {a2} (h : Evolves s0 a1.s) : Evolves s0 (itemMove a1 a2).s := by
  unfold itemMove
  repeat' first | with_reducible assumption | with_reducible apply moveCopy_evolves | with_reducible apply moveStage_evolves | with_reducible apply moveEvict_evolves | split | (simp only [Evolves.mk_iff]; apply Evolves.core) | dsimp only

theorem itemFill_evolves {s0 : State} {a1 : Work} {a2} (h : Evolves s0 a1.s) : Evolves s0 (itemFill a1 a2).s := by
  unfold itemFill
  repeat' first | with_reducible assumption | with_reducible apply Work.draws_evolves | with_reducible apply State.modCmd_evolves | with_reducible apply Work.writeRows_evolves | split | (simp only [Evolves.mk_iff]; apply Evolves.core) | (intro _) | (refine Evolves.work_snd_of (by assumption) ?_) | dsimp only

theorem checkDone_evolves {s0 : State} {a1 : Work} {a2} {a3} (h : Evolves s0 a1.s) : Evolves s0 (checkDone a1 a2 a3).s := by
  unfold checkDone
  repeat' first | with_reducible assumption | (simp only [Evolves.mk_iff]; apply Evolves.core) | dsimp only

theorem checkPiece_evolves {s0 : State} {a1} {a2} {a3} (h : Evolves s0 a2.2.s) : Evolves s0 (checkPiece a1 a2 a3).2.s := by
  unfold checkPiece
  repeat' first | with_reducible assumption | with_reducible apply Work.rdLoc_evolves | split | dsimp only

theorem checkEnd_evolves {s0 : State} {a1 : Work} {a2} {a3} {a4} (h : Evolves s0 a1.s) : Evolves s0 (checkEnd a1 a2 a3 a4).s := by
  unfold checkEnd
  repeat' first | with_reducible assumption | with_reducible apply State.modCmd_evolves | with_reducible apply checkDone_evolves | split | (simp only [Evolves.mk_iff]; apply Evolves.core) | (intro _) | dsimp only

theorem itemCheck_evolves {s0 : State} {a1 : Work} {a2} (h : Evolves s0 a1.s) : Evolves s0 (itemCheck a1 a2).s := by
  unfold itemCheck
  repeat' first | with_reducible assumption | with_reducible apply checkPiece_evolves | with_reducible apply checkEnd_evolves | with_reducible apply Evolves.foldl | with_reducible apply Evolves.foldl_work | with_reducible apply Evolves.foldl_work_snd | with_reducible apply Evolves.foldl_work_trd | with_reducible apply Evolves.foldl_work_qtd | (intro _) | dsimp only

theorem matRows_evolves {s0 : State} {a1 : Work} {a2} {a3} {a4} {a5} (h : Evolves s0 a1.s) : Evolves s0 (matRows a1 a2 a3 a4 a5).2.s := by
  unfold matRows
  repeat' first | with_reducible assumption | with_reducible apply overRows_evolves | with_reducible apply Work.readRow_evolves | with_reducible apply Work.fail_evolves | split | (simp only [Evolves.mk_iff]; apply Evolves.core) | (intro _) | (refine Evolves.work_snd_of (by assumption) ?_) | dsimp only

theorem Work.putSums_evolves {s0 : State} {a1 : Work} {a2} (h : Evolves s0 a1.s) : Evolves s0 (Work.putSums a1 a2).s := by
  unfold Work.putSums
  repeat' first | with_reducible assumption | with_reducible apply State.bufMake_evolves | split | (simp only [Evolves.mk_iff]; apply Evolves.core) | dsimp only

theorem itemMatmul_evolves {s0 : State} {a1} {a2 : Work} {a3} (h : Evolves s0 a2.s) : Evolves s0 (itemMatmul a1 a2 a3).s := by
  unfold itemMatmul
  repeat' first | with_reducible assumption | with_reducible apply matRows_evolves | with_reducible apply overRows_evolves | with_reducible apply Work.readVec_evolves | with_reducible apply Work.draws_evolves | with_reducible apply Work.convert_evolves | with_reducible apply Work.putSums_evolves | with_reducible apply Work.writeRows_evolves | split | (simp only [Evolves.mk_iff]; apply Evolves.core) | (intro _) | (refine Evolves.work_snd_of (by assumption) ?_) | dsimp only

theorem ewiseYRow_evolves {s0 : State} {a1} {a2 : Work} {a3} (h : Evolves s0 a2.s) : Evolves s0 (ewiseYRow a1 a2 a3).2.s := by
  unfold ewiseYRow
  repeat' first | with_reducible assumption | with_reducible apply Work.readVec_evolves | split | dsimp only

theorem ewiseRow_evolves {s0 : State} {a1} {a2 : Work} {a3} (h : Evolves s0 a2.s) : Evolves s0 (ewiseRow a1 a2 a3).2.s := by
  unfold ewiseRow
  repeat' first | with_reducible assumption | with_reducible apply Work.readVec_evolves | with_reducible apply ewiseYRow_evolves | with_reducible apply Work.draws_evolves | with_reducible apply Work.convert_evolves | dsimp only

theorem itemEwise_evolves {s0 : State} {a1 : Work} {a2} (h : Evolves s0 a1.s) : Evolves s0 (itemEwise a1 a2).s := by
  unfold itemEwise
  repeat' first | with_reducible assumption | with_reducible apply overRows_evolves | with_reducible apply ewiseRow_evolves | with_reducible apply Work.writeRows_evolves | split | (simp only [Evolves.mk_iff]; apply Evolves.core) | dsimp only

theorem itemReduce_evolves {s0 : State} {a1 : Work} {a2} (h : Evolves s0 a1.s) : Evolves s0 (itemReduce a1 a2).s := by
  unfold itemReduce
  repeat' first | with_reducible assumption | with_reducible apply overRows_evolves | with_reducible apply Work.readVec_evolves | with_reducible apply Work.draws_evolves | with_reducible apply Work.convert_evolves | with_reducible apply Work.writeRows_evolves | with_reducible apply Evolves.foldl | with_reducible apply Evolves.foldl_work | with_reducible apply Evolves.foldl_work_snd | with_reducible apply Evolves.foldl_work_trd | with_reducible apply Evolves.foldl_work_qtd | split | (simp only [Evolves.mk_iff]; apply Evolves.core) | (intro _) | (refine Evolves.work_snd_of (by assumption) ?_) | dsimp only

theorem itemNorm_evolves {s0 : State} {a1 : Work} {a2} (h : Evolves s0 a1.s) : Evolves s0 (itemNorm a1 a2).s := by
  unfold itemNorm
  repeat' first | with_reducible assumption | with_reducible apply Work.readVec_evolves | with_reducible apply overRows_evolves | with_reducible apply Work.draws_evolves | with_reducible apply Work.convert_evolves | with_reducible apply Work.writeRows_evolves | split | (simp only [Evolves.mk_iff]; apply Evolves.core) | (intro _) | (refine Evolves.work_snd_of (by assumption) ?_) | dsimp only

theorem itemTopk_evolves {s0 : State} {a1 : Work} {a2} (h : Evolves s0 a1.s) : Evolves s0 (itemTopk a1 a2).s := by
  unfold itemTopk
  repeat' first | with_reducible assumption | with_reducible apply overRows_evolves | with_reducible apply Work.readVec_evolves | with_reducible apply Work.convert_evolves | with_reducible apply Work.openBits_evolves | with_reducible apply Work.writeRows_evolves | split | (simp only [Evolves.mk_iff]; apply Evolves.core) | (intro _) | (refine Evolves.work_snd_of (by assumption) ?_) | dsimp only

theorem sampleProb_evolves {s0 : State} {a1} {a2 : Work} {a3} (h : Evolves s0 a2.s) : Evolves s0 (sampleProb a1 a2 a3).2.s := by
  unfold sampleProb
  repeat' first | with_reducible assumption | with_reducible apply Work.convert_evolves | split | (simp only [Evolves.mk_iff]; apply Evolves.core) | (refine Evolves.work_snd_of (by assumption) ?_) | dsimp only

theorem sampleOne_evolves {s0 : State} {a1} {a2 : Work} {a3} (h : Evolves s0 a2.s) : Evolves s0 (sampleOne a1 a2 a3).2.s := by
  unfold sampleOne
  repeat' first | with_reducible assumption | with_reducible apply Work.readVec_evolves | with_reducible apply Work.draws_evolves | with_reducible apply sampleProb_evolves | with_reducible apply Work.openBits_evolves | split | (simp only [Evolves.mk_iff]; apply Evolves.core) | (refine Evolves.work_snd_of (by assumption) ?_) | dsimp only

theorem itemSample_evolves {s0 : State} {a1 : Work} {a2} (h : Evolves s0 a1.s) : Evolves s0 (itemSample a1 a2).s := by
  unfold itemSample
  repeat' first | with_reducible assumption | with_reducible apply overRows_evolves | with_reducible apply sampleOne_evolves | with_reducible apply Work.writeRows_evolves | split | (simp only [Evolves.mk_iff]; apply Evolves.core) | dsimp only

end Sys2Proof.Machine
end

