-- ==== Sys2Proof/Laws/EvolveKvPool.lean ====
section
/-! SUPPORT. No operation of `Machine/KvPool.lean` does what no command may do (`Evolves`). -/

namespace Sys2Proof.Machine

set_option linter.all false

theorem State.setKv_evolves {s0 : State} {a1 : State} {a2} (h : Evolves s0 a1) : Evolves s0 (State.setKv a1 a2) := by
  unfold State.setKv
  repeat' first | with_reducible assumption | (simp only [Evolves.mk_iff]; apply Evolves.core) | dsimp only

theorem State.kvReap_evolves {s0 : State} {a1 : State} {a2} (h : Evolves s0 a1) : Evolves s0 (State.kvReap a1 a2) := by
  unfold State.kvReap
  repeat' first | with_reducible assumption | with_reducible apply State.setKv_evolves | split | (simp only [Evolves.mk_iff]; apply Evolves.core) | dsimp only

theorem State.kvAlloc_evolves {s0 : State} {a1 : State} {a2} {a3} (h : Evolves s0 a1) : Evolves s0 (State.kvAlloc a1 a2 a3).2 := by
  unfold State.kvAlloc
  repeat' first | with_reducible assumption | with_reducible apply State.draw_evolves | with_reducible apply State.setKv_evolves | (refine Evolves.snd_of (by assumption) ?_) | dsimp only

theorem State.kvApply_evolves {s0 : State} {a1 : State} {a2} {a3} {a4} (h : Evolves s0 a1) : Evolves s0 (State.kvApply a1 a2 a3 a4) := by
  unfold State.kvApply
  repeat' first | with_reducible assumption | with_reducible apply State.kvReap_evolves | with_reducible apply State.setKv_evolves | split | (simp only [Evolves.mk_iff]; apply Evolves.core) | (intro _) | dsimp only

theorem State.kvWalk_evolves {s0 : State} {a1} {a2} {a3} {a4} {a5} {a6 : State} (h : Evolves s0 a6) : Evolves s0 (State.kvWalk a1 a2 a3 a4 a5 a6).2 := by
  induction a4 generalizing a5 a6 with
  | nil =>
    unfold State.kvWalk
    repeat' first | with_reducible assumption | with_reducible apply State.kvApply_evolves | split | dsimp only
  | cons x t ih =>
    unfold State.kvWalk
    repeat' first | with_reducible assumption | with_reducible apply ih | with_reducible apply State.kvApply_evolves | split | dsimp only

theorem State.kvAllocN_evolves {s0 : State} {a1} {a2} {a3} {a4 : State} (h : Evolves s0 a4) : Evolves s0 (State.kvAllocN a1 a2 a3 a4).2 := by
  induction a3 generalizing a4 with
  | zero =>
    unfold State.kvAllocN
    repeat' first | with_reducible assumption | with_reducible apply State.kvAlloc_evolves | (refine Evolves.snd_of (by assumption) ?_) | dsimp only
  | succ n ih =>
    unfold State.kvAllocN
    repeat' first | with_reducible assumption | with_reducible apply ih | with_reducible apply State.kvAlloc_evolves | (refine Evolves.snd_of (by assumption) ?_) | dsimp only

theorem State.kvRun_evolves {s0 : State} {a1 : State} {a2} {a3} {a4} (h : Evolves s0 a1) : Evolves s0 (State.kvRun a1 a2 a3 a4).2 := by
  unfold State.kvRun
  repeat' first | with_reducible assumption | with_reducible apply State.bumpMeter_evolves | with_reducible apply State.kvAllocN_evolves | with_reducible apply State.ownWrite_evolves | with_reducible apply State.ownRead_evolves | with_reducible apply State.kvWalk_evolves | split | (intro _) | (refine Evolves.snd_of (by assumption) ?_) | dsimp only

theorem State.kvServe_evolves {s0 : State} {a1 : State} {a2} (h : Evolves s0 a1) : Evolves s0 (State.kvServe a1 a2) := by
  unfold State.kvServe
  repeat' first | with_reducible assumption | with_reducible apply State.kvRun_evolves | with_reducible apply State.ownLine_evolves | with_reducible apply State.completeWrite_evolves | split | (simp only [Evolves.mk_iff]; apply Evolves.core) | (intro _) | (refine Evolves.snd_of (by assumption) ?_) | dsimp only

theorem Work.rdPoolLine_evolves {s0 : State} {a1 : Work} {a2} (h : Evolves s0 a1.s) : Evolves s0 (Work.rdPoolLine a1 a2).2.s := by
  unfold Work.rdPoolLine
  repeat' first | with_reducible assumption | with_reducible apply Work.fromStore_evolves | dsimp only

theorem Work.rdPool_evolves {s0 : State} {a1 : Work} {a2} {a3} (h : Evolves s0 a1.s) : Evolves s0 (Work.rdPool a1 a2 a3).2.s := by
  unfold Work.rdPool
  repeat' first | with_reducible assumption | with_reducible apply Work.rdPoolLine_evolves | with_reducible apply Evolves.foldl | with_reducible apply Evolves.foldl_work | with_reducible apply Evolves.foldl_work_snd | with_reducible apply Evolves.foldl_work_trd | with_reducible apply Evolves.foldl_work_qtd | (intro _) | (refine Evolves.work_snd_of (by assumption) ?_) | dsimp only

theorem Work.poolReader_evolves {s0 : State} {a1} {a2 : Work} {a3} {a4} (h : Evolves s0 a2.s) : Evolves s0 (Work.poolReader a1 a2 a3 a4).2.s := by
  unfold Work.poolReader
  repeat' first | with_reducible assumption | with_reducible apply Work.rdPool_evolves | dsimp only

theorem Work.wrPool_evolves {s0 : State} {a1 : Work} {a2} {a3} {a4} {a5} (h : Evolves s0 a1.s) : Evolves s0 (Work.wrPool a1 a2 a3 a4 a5).s := by
  unfold Work.wrPool
  repeat' first | with_reducible assumption | with_reducible apply State.landLine_evolves | with_reducible apply State.countWrites_evolves | with_reducible apply State.charge_evolves | with_reducible apply State.modCmd_evolves | with_reducible apply Evolves.foldl | with_reducible apply Evolves.foldl_work | with_reducible apply Evolves.foldl_work_snd | with_reducible apply Evolves.foldl_work_trd | with_reducible apply Evolves.foldl_work_qtd | with_reducible apply Evolves.foldl_snd | split | (simp only [Evolves.mk_iff]; apply Evolves.core) | (intro _) | (refine Evolves.snd_of (by assumption) ?_) | dsimp only

end Sys2Proof.Machine
end

