-- ==== Sys2Proof/Laws/EvolveAttend.lean ====
section
/-! SUPPORT. No operation of `Machine/Attend.lean` does what no command may do (`Evolves`). -/

namespace Sys2Proof.Machine

set_option linter.all false

theorem Work.keep_evolves {s0 : State} {a1 : Work} {a2} {a3} (h : Evolves s0 a1.s) : Evolves s0 (Work.keep a1 a2 a3).s := by
  unfold Work.keep
  repeat' first | with_reducible assumption | with_reducible apply State.modCmd_evolves | (simp only [Evolves.mk_iff]; apply Evolves.core) | (intro _) | dsimp only

theorem Work.bindEntry_evolves {s0 : State} {a1 : Work} {a2} (h : Evolves s0 a1.s) : Evolves s0 (Work.bindEntry a1 a2).s := by
  unfold Work.bindEntry
  repeat' first | with_reducible assumption | with_reducible apply Work.fail_evolves | with_reducible apply Work.rd_evolves | with_reducible apply Work.keep_evolves | with_reducible apply State.setKv_evolves | split | (simp only [Evolves.mk_iff]; apply Evolves.core) | (intro _) | (refine Evolves.work_snd_of (by assumption) ?_) | dsimp only

theorem Work.bindRow_evolves {s0 : State} {a1 : Work} {a2} (h : Evolves s0 a1.s) : Evolves s0 (Work.bindRow a1 a2).s := by
  unfold Work.bindRow
  repeat' first | with_reducible assumption | with_reducible apply Work.rd_evolves | with_reducible apply Work.fail_evolves | with_reducible apply Work.keep_evolves | with_reducible apply Work.bindEntry_evolves | with_reducible apply Evolves.foldl | with_reducible apply Evolves.foldl_work | with_reducible apply Evolves.foldl_work_snd | with_reducible apply Evolves.foldl_work_trd | with_reducible apply Evolves.foldl_work_qtd | split | (intro _) | (refine Evolves.work_snd_of (by assumption) ?_) | dsimp only

theorem Work.bindKv_evolves {s0 : State} {a1 : Work} (h : Evolves s0 a1.s) : Evolves s0 (Work.bindKv a1).s := by
  unfold Work.bindKv
  repeat' first | with_reducible assumption | with_reducible apply Work.bindRow_evolves | with_reducible apply Work.fail_evolves | with_reducible apply Evolves.foldl | with_reducible apply Evolves.foldl_work | with_reducible apply Evolves.foldl_work_snd | with_reducible apply Evolves.foldl_work_trd | with_reducible apply Evolves.foldl_work_qtd | split | (intro _) | dsimp only

theorem State.kvRelease_evolves {s0 : State} {a1 : State} {a2} (h : Evolves s0 a1) : Evolves s0 (State.kvRelease a1 a2) := by
  unfold State.kvRelease
  repeat' first | with_reducible assumption | with_reducible apply State.kvReap_evolves | with_reducible apply State.setKv_evolves | with_reducible apply Evolves.foldl | (simp only [Evolves.mk_iff]; apply Evolves.core) | (intro _) | dsimp only

theorem Work.putKvTile_evolves {s0 : State} {a1 : Work} {a2} {a3} {a4} {a5} {a6} {a7} {a8} {a9} {a10} (h : Evolves s0 a1.s) : Evolves s0 (Work.putKvTile a1 a2 a3 a4 a5 a6 a7 a8 a9 a10).s := by
  unfold Work.putKvTile
  repeat' first | with_reducible assumption | with_reducible apply Work.draws_evolves | with_reducible apply Work.wrPool_evolves | split | (simp only [Evolves.mk_iff]; apply Evolves.core) | (refine Evolves.work_snd_of (by assumption) ?_) | dsimp only

theorem Work.putKvTensor_evolves {s0 : State} {a1 : Work} {a2} {a3} {a4} {a5} {a6} {a7} {a8} {a9} (h : Evolves s0 a1.s) : Evolves s0 (Work.putKvTensor a1 a2 a3 a4 a5 a6 a7 a8 a9).s := by
  unfold Work.putKvTensor
  repeat' first | with_reducible assumption | with_reducible apply Work.putKvTile_evolves | with_reducible apply Evolves.foldl | with_reducible apply Evolves.foldl_work | with_reducible apply Evolves.foldl_work_snd | with_reducible apply Evolves.foldl_work_trd | with_reducible apply Evolves.foldl_work_qtd | (intro _) | dsimp only

theorem Work.pack_evolves {s0 : State} {a1 : Work} {a2} {a3} {a4} (h : Evolves s0 a1.s) : Evolves s0 (Work.pack a1 a2 a3 a4).2.s := by
  unfold Work.pack
  repeat' first | with_reducible assumption | with_reducible apply Work.openVals_evolves | with_reducible apply Work.draws_evolves | (refine Evolves.work_snd_of (by assumption) ?_) | dsimp only

theorem Work.rotate_evolves {s0 : State} {a1 : Work} {a2} {a3} {a4} {a5} (h : Evolves s0 a1.s) : Evolves s0 (Work.rotate a1 a2 a3 a4 a5).2.s := by
  unfold Work.rotate
  repeat' first | with_reducible assumption | with_reducible apply Work.draws_evolves | split | (intro _) | (refine Evolves.work_snd_of (by assumption) ?_) | dsimp only

theorem Work.kvRow_evolves {s0 : State} {a1 : Work} {a2} {a3} (h : Evolves s0 a1.s) : Evolves s0 (Work.kvRow a1 a2 a3).2.2.s := by
  unfold Work.kvRow
  repeat' first | with_reducible assumption | with_reducible apply Work.readRow_evolves | with_reducible apply Work.rotate_evolves | with_reducible apply Work.pack_evolves | split | (intro _) | (refine Evolves.work_snd_of (by assumption) ?_) | dsimp only

theorem Work.kvTake_evolves {s0 : State} {a1 : Work} {a2} {a3} (h : Evolves s0 a1.s) : Evolves s0 (Work.kvTake a1 a2 a3).2.s := by
  unfold Work.kvTake
  repeat' first | with_reducible assumption | with_reducible apply State.bumpMeter_evolves | with_reducible apply State.kvAlloc_evolves | with_reducible apply State.setKv_evolves | with_reducible apply Work.wr_evolves | with_reducible apply Work.keep_evolves | split | (simp only [Evolves.mk_iff]; apply Evolves.core) | (intro _) | (refine Evolves.snd_of (by assumption) ?_) | dsimp only

theorem Work.kvTarget_evolves {s0 : State} {a1 : Work} {a2} {a3} (h : Evolves s0 a1.s) : Evolves s0 (Work.kvTarget a1 a2 a3).2.s := by
  unfold Work.kvTarget
  repeat' first | with_reducible assumption | with_reducible apply Work.kvTake_evolves | split | (simp only [Evolves.mk_iff]; apply Evolves.core) | (refine Evolves.work_snd_of (by assumption) ?_) | dsimp only

theorem itemKvAppend_evolves {s0 : State} {a1 : Work} {a2} (h : Evolves s0 a1.s) : Evolves s0 (itemKvAppend a1 a2).s := by
  unfold itemKvAppend
  repeat' first | with_reducible assumption | with_reducible apply Work.kvRow_evolves | with_reducible apply Work.kvTarget_evolves | with_reducible apply Work.putKvTensor_evolves | with_reducible apply State.setKv_evolves | split | (simp only [Evolves.mk_iff]; apply Evolves.core) | (intro _) | (refine Evolves.work_snd_of (by assumption) ?_) | (refine Evolves.work_trd_of (by assumption) ?_) | dsimp only

theorem Work.readKvTensor_evolves {s0 : State} {a1 : Work} {a2} {a3} {a4} {a5} (h : Evolves s0 a1.s) : Evolves s0 (Work.readKvTensor a1 a2 a3 a4 a5).2.s := by
  unfold Work.readKvTensor
  repeat' first | with_reducible assumption | with_reducible apply Work.rdPool_evolves | with_reducible apply Work.readTile_evolves | with_reducible apply Work.poolReader_evolves | with_reducible apply Evolves.foldl | with_reducible apply Evolves.foldl_work | with_reducible apply Evolves.foldl_work_snd | with_reducible apply Evolves.foldl_work_trd | with_reducible apply Evolves.foldl_work_qtd | (simp only [Evolves.mk_iff]; apply Evolves.core) | (intro _) | (refine Evolves.work_snd_of (by assumption) ?_) | dsimp only

theorem Work.readKvPair_evolves {s0 : State} {a1 : Work} {a2} {a3} {a4} {a5} (h : Evolves s0 a1.s) : Evolves s0 (Work.readKvPair a1 a2 a3 a4 a5).2.s := by
  unfold Work.readKvPair
  repeat' first | with_reducible assumption | with_reducible apply Work.readKvTensor_evolves | (intro _) | dsimp only

theorem Work.readKvHead_evolves {s0 : State} {a1 : Work} {a2} (h : Evolves s0 a1.s) : Evolves s0 (Work.readKvHead a1 a2).2.s := by
  unfold Work.readKvHead
  repeat' first | with_reducible assumption | with_reducible apply Work.rdPool_evolves | (simp only [Evolves.mk_iff]; apply Evolves.core) | dsimp only

theorem Work.setPz_evolves {s0 : State} {a1 : Work} {a2} (h : Evolves s0 a1.s) : Evolves s0 (Work.setPz a1 a2).s := by
  unfold Work.setPz
  repeat' first | with_reducible assumption | (simp only [Evolves.mk_iff]; apply Evolves.core) | dsimp only

theorem Work.readKvRest_evolves {s0 : State} {a1 : Work} {a2} {a3} {a4} {a5} {a6} (h : Evolves s0 a1.s) : Evolves s0 (Work.readKvRest a1 a2 a3 a4 a5 a6).2.s := by
  unfold Work.readKvRest
  repeat' first | with_reducible assumption | with_reducible apply Work.readKvPair_evolves | with_reducible apply Work.setPz_evolves | with_reducible apply Work.taint_evolves | with_reducible apply Work.logTile_evolves | split | dsimp only

theorem Work.readKvBlock_evolves {s0 : State} {w : Work} {b c r} (h : Evolves s0 w.s) :
    Evolves s0 (w.readKvBlock b c r).2.s := by
  rw [Work.readKvBlock]
  exact Work.readKvRest_evolves (Work.readKvHead_evolves h)

theorem Work.readRows_evolves {s0 : State} {a1 : Work} {a2} {a3} {a4} (h : Evolves s0 a1.s) : Evolves s0 (Work.readRows a1 a2 a3 a4).2.s := by
  unfold Work.readRows
  repeat' first | with_reducible assumption | with_reducible apply Work.readKvBlock_evolves | split | dsimp only

theorem Work.presentStep_evolves {s0 : State} {a1} {a2} {a3} {a4} {a5} {a6} (h : Evolves s0 a5.2.s) : Evolves s0 (Work.presentStep a1 a2 a3 a4 a5 a6).2.s := by
  unfold Work.presentStep
  repeat' first | with_reducible assumption | with_reducible apply Work.readRows_evolves | (intro _) | dsimp only

theorem Work.presentToks_evolves {s0 : State} {a1 : Work} {a2} {a3} (h : Evolves s0 a1.s) : Evolves s0 (Work.presentToks a1 a2 a3).2.s := by
  unfold Work.presentToks
  repeat' first | with_reducible assumption | with_reducible apply Work.presentStep_evolves | with_reducible apply Evolves.foldl | with_reducible apply Evolves.foldl_work | with_reducible apply Evolves.foldl_work_snd | with_reducible apply Evolves.foldl_work_trd | with_reducible apply Evolves.foldl_work_qtd | (intro _) | dsimp only

theorem Work.attendRow_evolves {s0 : State} {a1 : Work} {a2} (h : Evolves s0 a1.s) : Evolves s0 (Work.attendRow a1 a2).2.2.s := by
  unfold Work.attendRow
  repeat' first | with_reducible assumption | with_reducible apply Work.presentToks_evolves | with_reducible apply Work.readVec_evolves | with_reducible apply Work.rotate_evolves | with_reducible apply Work.draws_evolves | with_reducible apply Evolves.foldl | with_reducible apply Evolves.foldl_work | with_reducible apply Evolves.foldl_work_snd | with_reducible apply Evolves.foldl_work_trd | with_reducible apply Evolves.foldl_work_qtd | split | (simp only [Evolves.mk_iff]; apply Evolves.core) | (intro _) | (refine Evolves.work_snd_of (by assumption) ?_) | dsimp only

theorem Work.keptRow_evolves {s0 : State} {a1 : Work} {a2} {a3} {a4} {a5} {a6} (h : Evolves s0 a1.s) : Evolves s0 (Work.keptRow a1 a2 a3 a4 a5 a6).2.s := by
  unfold Work.keptRow
  repeat' first | with_reducible assumption | with_reducible apply Work.readAshlarRow_evolves | with_reducible apply Work.failAt_evolves | with_reducible apply Work.pack_evolves | split | (simp only [Evolves.mk_iff]; apply Evolves.core) | (refine Evolves.work_snd_of (by assumption) ?_) | dsimp only

theorem Work.writeActive_evolves {s0 : State} {a1 : Work} {a2} {a3} {a4} {a5} {a6} {a7} (h : Evolves s0 a1.s) : Evolves s0 (Work.writeActive a1 a2 a3 a4 a5 a6 a7).s := by
  unfold Work.writeActive
  repeat' first | with_reducible assumption | with_reducible apply Work.pack_evolves | with_reducible apply Work.writePlain_evolves | with_reducible apply overRows_evolves | with_reducible apply Work.keptRow_evolves | with_reducible apply Work.writeRows_evolves | with_reducible apply Evolves.foldl | with_reducible apply Evolves.foldl_work | with_reducible apply Evolves.foldl_work_snd | with_reducible apply Evolves.foldl_work_trd | with_reducible apply Evolves.foldl_work_qtd | split | (simp only [Evolves.mk_iff]; apply Evolves.core) | (intro _) | (refine Evolves.work_snd_of (by assumption) ?_) | dsimp only

theorem itemAttend_evolves {s0 : State} {a1 : Work} {a2} (h : Evolves s0 a1.s) : Evolves s0 (itemAttend a1 a2).s := by
  unfold itemAttend
  repeat' first | with_reducible assumption | with_reducible apply overRows_evolves | with_reducible apply Work.attendRow_evolves | with_reducible apply Work.writeActive_evolves | split | (intro _) | (refine Evolves.work_snd_of (by assumption) ?_) | (refine Evolves.work_trd_of (by assumption) ?_) | dsimp only

end Sys2Proof.Machine
end

