-- ==== Sys2Proof/Laws/EvolveGroups.lean ====
section
/-! SUPPORT. No operation of `Machine/Groups.lean` does what no command may do (`Evolves`). -/

namespace Sys2Proof.Machine

set_option linter.all false

theorem State.modGrp_evolves {s0 : State} {a1 : State} {a2} {a3} (h : Evolves s0 a1) : Evolves s0 (State.modGrp a1 a2 a3) := by
  unfold State.modGrp
  repeat' first | with_reducible assumption | (simp only [Evolves.mk_iff]; apply Evolves.core) | dsimp only

theorem State.abortGroup_evolves {s0 : State} {a1 : State} {a2} {a3} {a4} {a5} {a6} (h : Evolves s0 a1) : Evolves s0 (State.abortGroup a1 a2 a3 a4 a5 a6) := by
  unfold State.abortGroup
  repeat' first | with_reducible assumption | with_reducible apply State.modGrp_evolves | split | (simp only [Evolves.mk_iff]; apply Evolves.core) | (intro _) | dsimp only

theorem State.abortHere_evolves {s0 : State} {a1 : State} {a2} {a3} (h : Evolves s0 a1) : Evolves s0 (State.abortHere a1 a2 a3) := by
  unfold State.abortHere
  repeat' first | with_reducible assumption | with_reducible apply State.abortGroup_evolves | dsimp only

theorem State.stopGroup_evolves {s0 : State} {a1 : State} {a2} (h : Evolves s0 a1) : Evolves s0 (State.stopGroup a1 a2) := by
  unfold State.stopGroup
  repeat' first | with_reducible assumption | with_reducible apply State.finish_evolves | with_reducible apply State.modCmd_evolves | with_reducible apply State.refuse_evolves | with_reducible apply Evolves.foldl | split | (simp only [Evolves.mk_iff]; apply Evolves.core) | (intro _) | dsimp only

theorem State.forwardAbort_evolves {s0 : State} {a1 : State} {a2} (h : Evolves s0 a1) : Evolves s0 (State.forwardAbort a1 a2) := by
  unfold State.forwardAbort
  repeat' first | with_reducible assumption | with_reducible apply State.issue_evolves | with_reducible apply Evolves.foldl | with_reducible apply Evolves.foldl_snd | (intro _) | dsimp only

theorem State.carryAbort_evolves {s0 : State} {a1 : State} {a2} (h : Evolves s0 a1) : Evolves s0 (State.carryAbort a1 a2) := by
  unfold State.carryAbort
  repeat' first | with_reducible assumption | with_reducible apply State.forwardAbort_evolves | with_reducible apply State.stopGroup_evolves | with_reducible apply State.modGrp_evolves | split | (simp only [Evolves.mk_iff]; apply Evolves.core) | (intro _) | dsimp only

theorem State.memberFault_evolves {s0 : State} {a1 : State} {a2} (h : Evolves s0 a1) : Evolves s0 (State.memberFault a1 a2) := by
  unfold State.memberFault
  repeat' first | with_reducible assumption | with_reducible apply State.abortHere_evolves | with_reducible apply Evolves.foldl | split | (intro _) | dsimp only

theorem State.grpNote_evolves {s0 : State} {a1 : State} {a2} {a3} (h : Evolves s0 a1) : Evolves s0 (State.grpNote a1 a2 a3) := by
  unfold State.grpNote
  repeat' first | with_reducible assumption | with_reducible apply State.modGrp_evolves | with_reducible apply State.abortHere_evolves | split | (simp only [Evolves.mk_iff]; apply Evolves.core) | (intro _) | dsimp only

theorem State.grpDrained_evolves {s0 : State} {a1 : State} {a2} (h : Evolves s0 a1) : Evolves s0 (State.grpDrained a1 a2) := by
  unfold State.grpDrained
  repeat' first | with_reducible assumption | split | (simp only [Evolves.mk_iff]; apply Evolves.core) | dsimp only

theorem State.collDone_evolves {s0 : State} {a1 : State} {a2} (h : Evolves s0 a1) : Evolves s0 (State.collDone a1 a2) := by
  unfold State.collDone
  repeat' first | with_reducible assumption | with_reducible apply State.modGrp_evolves | with_reducible apply State.modCmd_evolves | with_reducible apply Evolves.foldl | split | (simp only [Evolves.mk_iff]; apply Evolves.core) | (intro _) | dsimp only

theorem State.grpList_evolves {s0 : State} {a1 : State} {a2} {a3} (h : Evolves s0 a1) : Evolves s0 (State.grpList a1 a2 a3).2 := by
  unfold State.grpList
  repeat' first | with_reducible assumption | with_reducible apply State.ownRead_evolves | split | dsimp only

theorem State.grpCreate_evolves {s0 : State} {a1 : State} {a2} {a3} {a4} (h : Evolves s0 a1) : Evolves s0 (State.grpCreate a1 a2 a3 a4) := by
  unfold State.grpCreate
  repeat' first | with_reducible assumption | with_reducible apply State.decide__evolves | with_reducible apply State.ownLine_evolves | with_reducible apply Evolves.foldl | split | (simp only [Evolves.mk_iff]; apply Evolves.core) | (intro _) | dsimp only

theorem State.grpDestroy_evolves {s0 : State} {a1 : State} {a2} (h : Evolves s0 a1) : Evolves s0 (State.grpDestroy a1 a2) := by
  unfold State.grpDestroy
  repeat' first | with_reducible assumption | with_reducible apply State.decide__evolves | with_reducible apply State.abortHere_evolves | with_reducible apply State.carryAbort_evolves | with_reducible apply State.modGrp_evolves | with_reducible apply State.grpDrained_evolves | with_reducible apply State.stopGroup_evolves | split | (simp only [Evolves.mk_iff]; apply Evolves.core) | (intro _) | dsimp only

theorem State.grpAttach_evolves {s0 : State} {a1 : State} {a2} {a3} (h : Evolves s0 a1) : Evolves s0 (State.grpAttach a1 a2 a3) := by
  unfold State.grpAttach
  repeat' first | with_reducible assumption | with_reducible apply State.decide__evolves | with_reducible apply State.modGrp_evolves | (simp only [Evolves.mk_iff]; apply Evolves.core) | (intro _) | dsimp only

theorem State.grpClear_evolves {s0 : State} {a1 : State} {a2} (h : Evolves s0 a1) : Evolves s0 (State.grpClear a1 a2) := by
  unfold State.grpClear
  repeat' first | with_reducible assumption | with_reducible apply State.decide__evolves | with_reducible apply State.modGrp_evolves | with_reducible apply State.carryAbort_evolves | (simp only [Evolves.mk_iff]; apply Evolves.core) | (intro _) | dsimp only

theorem State.grpAbortOp_evolves {s0 : State} {a1 : State} {a2} (h : Evolves s0 a1) : Evolves s0 (State.grpAbortOp a1 a2) := by
  unfold State.grpAbortOp
  repeat' first | with_reducible assumption | with_reducible apply State.decide__evolves | with_reducible apply State.abortHere_evolves | (intro _) | dsimp only

theorem State.abortLands_evolves {s0 : State} {a1 : State} (h : Evolves s0 a1) : Evolves s0 (State.abortLands a1) := by
  unfold State.abortLands
  repeat' first | with_reducible assumption | with_reducible apply State.abortGroup_evolves | with_reducible apply State.bump_evolves | split | (simp only [Evolves.mk_iff]; apply Evolves.core) | dsimp only

theorem Work.wireRows_evolves {s0 : State} {a1 : Work} {a2} {a3} {a4} (h : Evolves s0 a1.s) : Evolves s0 (Work.wireRows a1 a2 a3 a4).2.2.s := by
  unfold Work.wireRows
  repeat' first | with_reducible assumption | with_reducible apply Work.readVec_evolves | with_reducible apply Evolves.foldl | with_reducible apply Evolves.foldl_work | with_reducible apply Evolves.foldl_work_snd | with_reducible apply Evolves.foldl_work_trd | with_reducible apply Evolves.foldl_work_qtd | (intro _) | (refine Evolves.work_snd_of (by assumption) ?_) | dsimp only

theorem Work.ownPiece_evolves {s0 : State} {a1 : Work} {a2} {a3} {a4} (h : Evolves s0 a1.s) : Evolves s0 (Work.ownPiece a1 a2 a3 a4).2.2.s := by
  unfold Work.ownPiece
  repeat' first | with_reducible assumption | with_reducible apply Work.wireRows_evolves | split | (refine Evolves.work_trd_of (by assumption) ?_) | dsimp only

theorem Work.keepPiece_evolves {s0 : State} {a1 : Work} {a2} {a3} {a4} {a5} {a6} (h : Evolves s0 a1.s) : Evolves s0 (Work.keepPiece a1 a2 a3 a4 a5 a6).s := by
  unfold Work.keepPiece
  repeat' first | with_reducible assumption | with_reducible apply Work.keep_evolves | dsimp only

theorem Work.stop_evolves {s0 : State} {a1 : Work} {a2} (h : Evolves s0 a1.s) : Evolves s0 (Work.stop a1 a2).s := by
  unfold Work.stop
  repeat' first | with_reducible assumption | with_reducible apply Work.fail_evolves | (simp only [Evolves.mk_iff]; apply Evolves.core) | dsimp only

theorem Work.sendTo_evolves {s0 : State} {a1 : Work} {a2} {a3} {a4} {a5} {a6} {a7} (h : Evolves s0 a1.s) : Evolves s0 (Work.sendTo a1 a2 a3 a4 a5 a6 a7).s := by
  unfold Work.sendTo
  repeat' first | with_reducible assumption | with_reducible apply State.issue_evolves | with_reducible apply Work.stop_evolves | with_reducible apply State.modCmd_evolves | split | (simp only [Evolves.mk_iff]; apply Evolves.core) | (intro _) | (refine Evolves.snd_of (by assumption) ?_) | dsimp only

theorem Work.waitLineAt_evolves {s0 : State} {a1 : Work} {a2} {a3} (h : Evolves s0 a1.s) : Evolves s0 (Work.waitLineAt a1 a2 a3).s := by
  unfold Work.waitLineAt
  repeat' first | with_reducible assumption | with_reducible apply Work.rdLoc_evolves | with_reducible apply Work.block_evolves | with_reducible apply Work.stop_evolves | split | (simp only [Evolves.mk_iff]; apply Evolves.core) | (refine Evolves.work_snd_of (by assumption) ?_) | dsimp only

theorem Work.collSend_evolves {s0 : State} {a1 : Work} {a2} {a3} (h : Evolves s0 a1.s) : Evolves s0 (Work.collSend a1 a2 a3).s := by
  unfold Work.collSend
  repeat' first | with_reducible assumption | with_reducible apply Work.waitLineAt_evolves | with_reducible apply Work.ownPiece_evolves | with_reducible apply Work.sendTo_evolves | with_reducible apply Work.keep_evolves | with_reducible apply State.modGrp_evolves | with_reducible apply Evolves.foldl | with_reducible apply Evolves.foldl_work | with_reducible apply Evolves.foldl_work_snd | with_reducible apply Evolves.foldl_work_trd | with_reducible apply Evolves.foldl_work_qtd | split | (simp only [Evolves.mk_iff]; apply Evolves.core) | (intro _) | (refine Evolves.work_trd_of (by assumption) ?_) | dsimp only

theorem Work.putElems_evolves {s0 : State} {a1 : Work} {a2} {a3} {a4} {a5} {a6} {a7} (h : Evolves s0 a1.s) : Evolves s0 (Work.putElems a1 a2 a3 a4 a5 a6 a7).s := by
  unfold Work.putElems
  repeat' first | with_reducible assumption | with_reducible apply Work.pack_evolves | with_reducible apply Work.writeRun_evolves | (refine Evolves.work_snd_of (by assumption) ?_) | dsimp only

theorem Work.putRun_evolves {s0 : State} {a1 : Work} {a2} {a3} {a4} {a5} {a6} (h : Evolves s0 a1.s) : Evolves s0 (Work.putRun a1 a2 a3 a4 a5 a6).s := by
  unfold Work.putRun
  repeat' first | with_reducible assumption | with_reducible apply Work.putElems_evolves | with_reducible apply Evolves.foldl | with_reducible apply Evolves.foldl_work | with_reducible apply Evolves.foldl_work_snd | with_reducible apply Evolves.foldl_work_trd | with_reducible apply Evolves.foldl_work_qtd | split | (intro _) | dsimp only

theorem Work.putPiece_evolves {s0 : State} {a1 : Work} {a2} {a3} {a4} {a5} (h : Evolves s0 a1.s) : Evolves s0 (Work.putPiece a1 a2 a3 a4 a5).s := by
  unfold Work.putPiece
  repeat' first | with_reducible assumption | with_reducible apply Work.putRun_evolves | split | dsimp only

theorem Work.collRecv_evolves {s0 : State} {a1 : Work} {a2} {a3} (h : Evolves s0 a1.s) : Evolves s0 (Work.collRecv a1 a2 a3).s := by
  unfold Work.collRecv
  repeat' first | with_reducible assumption | with_reducible apply Work.waitLineAt_evolves | with_reducible apply Work.rdLoc_evolves | with_reducible apply Work.ownPiece_evolves | with_reducible apply Work.draws_evolves | with_reducible apply Work.keep_evolves | with_reducible apply Work.keepPiece_evolves | with_reducible apply Work.putPiece_evolves | with_reducible apply Work.sendTo_evolves | split | (simp only [Evolves.mk_iff]; apply Evolves.core) | (refine Evolves.work_snd_of (by assumption) ?_) | (refine Evolves.work_trd_of (by assumption) ?_) | dsimp only

theorem Work.collFinish_evolves {s0 : State} {a1 : Work} {a2} (h : Evolves s0 a1.s) : Evolves s0 (Work.collFinish a1 a2).s := by
  unfold Work.collFinish
  repeat' first | with_reducible assumption | with_reducible apply overRows_evolves | with_reducible apply Work.readVec_evolves | with_reducible apply Work.wireRows_evolves | with_reducible apply Work.writeActive_evolves | split | (intro _) | (refine Evolves.work_snd_of (by assumption) ?_) | (refine Evolves.work_trd_of (by assumption) ?_) | dsimp only

theorem itemColl_evolves {s0 : State} {a1 : Work} {a2} (h : Evolves s0 a1.s) : Evolves s0 (itemColl a1 a2).s := by
  unfold itemColl
  repeat' first | with_reducible assumption | with_reducible apply Work.stop_evolves | with_reducible apply Work.block_evolves | with_reducible apply Work.collFinish_evolves | with_reducible apply Work.collSend_evolves | with_reducible apply Work.collRecv_evolves | with_reducible apply State.modCmd_evolves | split | (simp only [Evolves.mk_iff]; apply Evolves.core) | (intro _) | dsimp only

end Sys2Proof.Machine
end

