-- ==== Sys2Proof/Laws/EvolveGather.lean ====
section
/-! SUPPORT. No operation of `Machine/Gather.lean` does what no command may do (`Evolves`). -/

namespace Sys2Proof.Machine

set_option linter.all false

theorem State.modVer_evolves {s0 : State} {a1 : State} {a2} {a3} {a4} (h : Evolves s0 a1) : Evolves s0 (State.modVer a1 a2 a3 a4) := by
  unfold State.modVer
  repeat' first | with_reducible assumption | split | (simp only [Evolves.mk_iff]; apply Evolves.core) | (intro _) | dsimp only

theorem State.unbindTable_evolves {s0 : State} {a1 : State} {a2} (h : Evolves s0 a1) : Evolves s0 (State.unbindTable a1 a2) := by
  unfold State.unbindTable
  repeat' first | with_reducible assumption | with_reducible apply State.modVer_evolves | split | (simp only [Evolves.mk_iff]; apply Evolves.core) | (intro _) | dsimp only

theorem State.killVersions_evolves {s0 : State} {a1 : State} {a2} {a3} (h : Evolves s0 a1) : Evolves s0 (State.killVersions a1 a2 a3) := by
  unfold State.killVersions
  repeat' first | with_reducible assumption | split | (simp only [Evolves.mk_iff]; apply Evolves.core) | (intro _) | dsimp only

theorem State.releaseVer_evolves {s0 : State} {a1 : State} {a2} {a3} (h : Evolves s0 a1) : Evolves s0 (State.releaseVer a1 a2 a3).2 := by
  unfold State.releaseVer
  repeat' first | with_reducible assumption | split | (simp only [Evolves.mk_iff]; apply Evolves.core) | (intro _) | dsimp only

theorem State.reapVersions_evolves {s0 : State} {a1 : State} (h : Evolves s0 a1) : Evolves s0 (State.reapVersions a1) := by
  unfold State.reapVersions
  repeat' first | with_reducible assumption | with_reducible apply State.releaseVer_evolves | with_reducible apply Evolves.foldl | with_reducible apply Evolves.foldl_snd | split | (intro _) | dsimp only

theorem State.dropRows_evolves {s0 : State} {a1 : State} {a2} (h : Evolves s0 a1) : Evolves s0 (State.dropRows a1 a2) := by
  unfold State.dropRows
  repeat' first | with_reducible assumption | (simp only [Evolves.mk_iff]; apply Evolves.core) | (intro _) | dsimp only

theorem State.rowAdmit_evolves {s0 : State} {a1 : State} {a2} {a3} {a4} {a5} {a6} (h : Evolves s0 a1) : Evolves s0 (State.rowAdmit a1 a2 a3 a4 a5 a6) := by
  unfold State.rowAdmit
  repeat' first | with_reducible assumption | split | (simp only [Evolves.mk_iff]; apply Evolves.core) | (intro _) | dsimp only

theorem State.ageRows_evolves {s0 : State} {a1 : State} (h : Evolves s0 a1) : Evolves s0 (State.ageRows a1) := by
  unfold State.ageRows
  repeat' first | with_reducible assumption | (simp only [Evolves.mk_iff]; apply Evolves.core) | (intro _) | dsimp only

theorem Work.rdRowNow_evolves {s0 : State} {a1 : Work} {a2} {a3} {a4} (h : Evolves s0 a1.s) : Evolves s0 (Work.rdRowNow a1 a2 a3 a4).2.s := by
  unfold Work.rdRowNow
  repeat' first | with_reducible assumption | with_reducible apply Work.rdLine_evolves | with_reducible apply State.charge_evolves | with_reducible apply Work.taint_evolves | with_reducible apply State.rowAdmit_evolves | with_reducible apply Evolves.foldl | with_reducible apply Evolves.foldl_work | with_reducible apply Evolves.foldl_work_snd | with_reducible apply Evolves.foldl_work_trd | with_reducible apply Evolves.foldl_work_qtd | split | (simp only [Evolves.mk_iff]; apply Evolves.core) | (intro _) | (refine Evolves.work_snd_of (by assumption) ?_) | dsimp only

theorem Work.remember_evolves {s0 : State} {a1 : Work} {a2} {a3} (h : Evolves s0 a1.s) : Evolves s0 (Work.remember a1 a2 a3).s := by
  unfold Work.remember
  repeat' first | with_reducible assumption | with_reducible apply State.modCmd_evolves | split | (simp only [Evolves.mk_iff]; apply Evolves.core) | (intro _) | dsimp only

theorem Work.readOnce_evolves {s0 : State} {a1 : Work} {a2} {a3 : Work → Nat × Work} (hf : ∀ w, Evolves s0 w.s → Evolves s0 (a3 w).2.s) (h : Evolves s0 a1.s) : Evolves s0 (Work.readOnce a1 a2 a3).2.s := by
  unfold Work.readOnce
  repeat' first | with_reducible assumption | apply hf | with_reducible apply Work.failAt_evolves | with_reducible apply Work.remember_evolves | split | (simp only [Evolves.mk_iff]; apply Evolves.core) | (intro _) | (refine Evolves.work_snd_of (by assumption) ?_) | dsimp only

theorem Work.rdRowLine_evolves {s0 : State} {a1 : Work} {a2} {a3} {a4} {a5} (h : Evolves s0 a1.s) : Evolves s0 (Work.rdRowLine a1 a2 a3 a4 a5).2.s := by
  unfold Work.rdRowLine
  repeat' first | with_reducible assumption | with_reducible apply Work.readOnce_evolves | with_reducible apply Work.rdRowNow_evolves | split | (simp only [Evolves.mk_iff]; apply Evolves.core) | (intro _) | dsimp only

theorem Work.rdTableRow_evolves {s0 : State} {a1 : Work} {a2} {a3} {a4} {a5} {a6} (h : Evolves s0 a1.s) : Evolves s0 (Work.rdTableRow a1 a2 a3 a4 a5 a6).2.s := by
  unfold Work.rdTableRow
  repeat' first | with_reducible assumption | with_reducible apply Work.rdRowLine_evolves | with_reducible apply Evolves.foldl | with_reducible apply Evolves.foldl_work | with_reducible apply Evolves.foldl_work_snd | with_reducible apply Evolves.foldl_work_trd | with_reducible apply Evolves.foldl_work_qtd | split | (simp only [Evolves.mk_iff]; apply Evolves.core) | (intro _) | (refine Evolves.work_snd_of (by assumption) ?_) | dsimp only

theorem Work.entry_evolves {s0 : State} {a1 : Work} {a2} {a3} {a4} (h : Evolves s0 a1.s) : Evolves s0 (Work.entry a1 a2 a3 a4).2.2.s := by
  unfold Work.entry
  repeat' first | with_reducible assumption | with_reducible apply Work.readOnce_evolves | with_reducible apply Work.rd_evolves | split | (simp only [Evolves.mk_iff]; apply Evolves.core) | (intro _) | (refine Evolves.work_snd_of (by assumption) ?_) | dsimp only

theorem Work.weightAt_evolves {s0 : State} {a1 : Work} {a2} {a3} {a4} (h : Evolves s0 a1.s) : Evolves s0 (Work.weightAt a1 a2 a3 a4).2.2.s := by
  unfold Work.weightAt
  repeat' first | with_reducible assumption | with_reducible apply Work.entry_evolves | split | (refine Evolves.work_trd_of (by assumption) ?_) | dsimp only

theorem bagStep_evolves {s0 : State} {a1} {a2} {a3} (h : Evolves s0 a2.2.s) : Evolves s0 (bagStep a1 a2 a3).2.s := by
  unfold bagStep
  repeat' first | with_reducible assumption | with_reducible apply Work.entry_evolves | with_reducible apply Work.weightAt_evolves | with_reducible apply Work.draws_evolves | split | (simp only [Evolves.mk_iff]; apply Evolves.core) | (refine Evolves.work_snd_of (by assumption) ?_) | (refine Evolves.work_trd_of (by assumption) ?_) | dsimp only

theorem bagWindow_evolves {s0 : State} {a1} {a2} {a3} {a4} {a5} (h : Evolves s0 a4.2.s) : Evolves s0 (bagWindow a1 a2 a3 a4 a5).2.s := by
  unfold bagWindow
  repeat' first | with_reducible assumption | with_reducible apply bagStep_evolves | with_reducible apply overRows_evolves | with_reducible apply Work.rdTableRow_evolves | with_reducible apply Evolves.foldl | with_reducible apply Evolves.foldl_work | with_reducible apply Evolves.foldl_work_snd | with_reducible apply Evolves.foldl_work_trd | with_reducible apply Evolves.foldl_work_qtd | (simp only [Evolves.mk_iff]; apply Evolves.core) | (intro _) | dsimp only

theorem runBag_evolves {s0 : State} {a1 : Work} {a2} {a3} {a4} {a5} {a6} (h : Evolves s0 a1.s) : Evolves s0 (runBag a1 a2 a3 a4 a5 a6).2.s := by
  unfold runBag
  repeat' first | with_reducible assumption | with_reducible apply bagWindow_evolves | with_reducible apply Evolves.foldl | with_reducible apply Evolves.foldl_work | with_reducible apply Evolves.foldl_work_snd | with_reducible apply Evolves.foldl_work_trd | with_reducible apply Evolves.foldl_work_qtd | (intro _) | dsimp only

theorem gatherBag_evolves {s0 : State} {a1 : Work} {a2} {a3} {a4} (h : Evolves s0 a1.s) : Evolves s0 (gatherBag a1 a2 a3 a4).2.2.s := by
  unfold gatherBag
  repeat' first | with_reducible assumption | with_reducible apply Work.entry_evolves | with_reducible apply runBag_evolves | with_reducible apply Work.draws_evolves | split | (simp only [Evolves.mk_iff]; apply Evolves.core) | (refine Evolves.work_snd_of (by assumption) ?_) | (refine Evolves.work_trd_of (by assumption) ?_) | dsimp only

theorem Work.countDropped_evolves {s0 : State} {a1 : Work} {a2} (h : Evolves s0 a1.s) : Evolves s0 (Work.countDropped a1 a2).s := by
  unfold Work.countDropped
  repeat' first | with_reducible assumption | with_reducible apply State.bumpCount_evolves | with_reducible apply State.bump_evolves | split | (simp only [Evolves.mk_iff]; apply Evolves.core) | dsimp only

theorem itemGather_evolves {s0 : State} {a1 : Work} {a2} (h : Evolves s0 a1.s) : Evolves s0 (itemGather a1 a2).s := by
  unfold itemGather
  repeat' first | with_reducible assumption | with_reducible apply Work.fail_evolves | with_reducible apply overRows_evolves | with_reducible apply gatherBag_evolves | with_reducible apply Work.writeActive_evolves | with_reducible apply Work.countDropped_evolves | with_reducible apply Work.wr_evolves | with_reducible apply Evolves.foldl | with_reducible apply Evolves.foldl_work | with_reducible apply Evolves.foldl_work_snd | with_reducible apply Evolves.foldl_work_trd | with_reducible apply Evolves.foldl_work_qtd | split | (simp only [Evolves.mk_iff]; apply Evolves.core) | (intro _) | (refine Evolves.work_snd_of (by assumption) ?_) | (refine Evolves.work_trd_of (by assumption) ?_) | dsimp only

theorem scatterLine_evolves {s0 : State} {a1} {a2} {a3} {a4} {a5} {a6} {a7 : Work} {a8} (h : Evolves s0 a7.s) : Evolves s0 (scatterLine a1 a2 a3 a4 a5 a6 a7 a8).s := by
  unfold scatterLine
  repeat' first | with_reducible assumption | with_reducible apply Work.rdLine_evolves | with_reducible apply Work.draws_evolves | with_reducible apply Work.pack_evolves | with_reducible apply Work.wrLine_evolves | (simp only [Evolves.mk_iff]; apply Evolves.core) | (intro _) | (refine Evolves.work_snd_of (by assumption) ?_) | dsimp only

theorem Work.nextUpdate_evolves {s0 : State} {a1 : Work} {a2} {a3} (h : Evolves s0 a1.s) : Evolves s0 (Work.nextUpdate a1 a2 a3).2.s := by
  unfold Work.nextUpdate
  repeat' first | with_reducible assumption | with_reducible apply Work.keep_evolves | dsimp only

theorem Work.openUpdate_evolves {s0 : State} {a1 : Work} {a2} {a3} (h : Evolves s0 a1.s) : Evolves s0 (Work.openUpdate a1 a2 a3).s := by
  unfold Work.openUpdate
  repeat' first | with_reducible assumption | with_reducible apply Work.entry_evolves | with_reducible apply Work.keep_evolves | with_reducible apply Work.countDropped_evolves | with_reducible apply Work.readRow_evolves | split | (simp only [Evolves.mk_iff]; apply Evolves.core) | (refine Evolves.work_snd_of (by assumption) ?_) | (refine Evolves.work_trd_of (by assumption) ?_) | dsimp only

theorem Work.updateLine_evolves {s0 : State} {a1 : Work} {a2} {a3} {a4} {a5} (h : Evolves s0 a1.s) : Evolves s0 (Work.updateLine a1 a2 a3 a4 a5).s := by
  unfold Work.updateLine
  repeat' first | with_reducible assumption | with_reducible apply scatterLine_evolves | with_reducible apply Work.keep_evolves | with_reducible apply State.modCmd_evolves | with_reducible apply Evolves.foldl | with_reducible apply Evolves.foldl_work | with_reducible apply Evolves.foldl_work_snd | with_reducible apply Evolves.foldl_work_trd | with_reducible apply Evolves.foldl_work_qtd | split | (simp only [Evolves.mk_iff]; apply Evolves.core) | (intro _) | dsimp only

theorem itemScatter_evolves {s0 : State} {a1 : Work} {a2} (h : Evolves s0 a1.s) : Evolves s0 (itemScatter a1 a2).s := by
  unfold itemScatter
  repeat' first | with_reducible assumption | with_reducible apply Work.fail_evolves | with_reducible apply Work.nextUpdate_evolves | with_reducible apply Work.openUpdate_evolves | with_reducible apply Work.updateLine_evolves | split | (simp only [Evolves.mk_iff]; apply Evolves.core) | (refine Evolves.work_snd_of (by assumption) ?_) | dsimp only

theorem itemPublish_evolves {s0 : State} {a1 : Work} {a2} (h : Evolves s0 a1.s) : Evolves s0 (itemPublish a1 a2).s := by
  unfold itemPublish
  repeat' first | with_reducible assumption | with_reducible apply Work.rd_evolves | with_reducible apply Work.fail_evolves | split | (simp only [Evolves.mk_iff]; apply Evolves.core) | (intro _) | (refine Evolves.work_snd_of (by assumption) ?_) | dsimp only

theorem State.startRetireTable_evolves {s0 : State} {a1 : State} {a2} (h : Evolves s0 a1) : Evolves s0 (State.startRetireTable a1 a2) := by
  unfold State.startRetireTable
  repeat' first | with_reducible assumption | with_reducible apply State.modCmd_evolves | with_reducible apply State.modVer_evolves | split | (simp only [Evolves.mk_iff]; apply Evolves.core) | (intro _) | dsimp only

theorem itemRetire_evolves {s0 : State} {a1 : Work} {a2} (h : Evolves s0 a1.s) : Evolves s0 (itemRetire a1 a2).s := by
  unfold itemRetire
  repeat' first | with_reducible assumption | with_reducible apply Work.block_evolves | with_reducible apply State.releaseVer_evolves | split | (simp only [Evolves.mk_iff]; apply Evolves.core) | (intro _) | (refine Evolves.snd_of (by assumption) ?_) | dsimp only

end Sys2Proof.Machine
end

