-- ==== Sys2Proof/Laws/EvolveIndex.lean ====
section
/-! SUPPORT. No operation of `Machine/Index.lean` does what no command may do (`Evolves`). -/

namespace Sys2Proof.Machine

set_option linter.all false

theorem State.modIdx_evolves {s0 : State} {a1 : State} {a2} {a3} (h : Evolves s0 a1) : Evolves s0 (State.modIdx a1 a2 a3) := by
  unfold State.modIdx
  repeat' first | with_reducible assumption | (simp only [Evolves.mk_iff]; apply Evolves.core) | dsimp only

theorem State.applyIdx_evolves {s0 : State} {a1 : State} {a2} (h : Evolves s0 a1) : Evolves s0 (State.applyIdx a1 a2) := by
  unfold State.applyIdx
  repeat' first | with_reducible assumption | with_reducible apply State.decide__evolves | split | (simp only [Evolves.mk_iff]; apply Evolves.core) | (intro _) | dsimp only

theorem State.killIndexes_evolves {s0 : State} {a1 : State} {a2} {a3} {a4} (h : Evolves s0 a1) : Evolves s0 (State.killIndexes a1 a2 a3 a4) := by
  unfold State.killIndexes
  repeat' first | with_reducible assumption | split | (simp only [Evolves.mk_iff]; apply Evolves.core) | (intro _) | dsimp only

theorem State.bindIndex_evolves {s0 : State} {a1 : State} {a2} (h : Evolves s0 a1) : Evolves s0 (State.bindIndex a1 a2) := by
  unfold State.bindIndex
  repeat' first | with_reducible assumption | with_reducible apply State.modIdx_evolves | with_reducible apply State.modCmd_evolves | split | (simp only [Evolves.mk_iff]; apply Evolves.core) | (intro _) | dsimp only

theorem State.queueIndex_evolves {s0 : State} {a1 : State} {a2} (h : Evolves s0 a1) : Evolves s0 (State.queueIndex a1 a2) := by
  unfold State.queueIndex
  repeat' first | with_reducible assumption | with_reducible apply State.modCmd_evolves | with_reducible apply State.modIdx_evolves | split | (simp only [Evolves.mk_iff]; apply Evolves.core) | (intro _) | dsimp only

theorem State.unbindIndex_evolves {s0 : State} {a1 : State} {a2} {a3} (h : Evolves s0 a1) : Evolves s0 (State.unbindIndex a1 a2 a3) := by
  unfold State.unbindIndex
  repeat' first | with_reducible assumption | with_reducible apply State.modIdx_evolves | split | (simp only [Evolves.mk_iff]; apply Evolves.core) | (intro _) | dsimp only

theorem State.publishEpoch_evolves {s0 : State} {a1 : State} {a2} (h : Evolves s0 a1) : Evolves s0 (State.publishEpoch a1 a2) := by
  unfold State.publishEpoch
  repeat' first | with_reducible assumption | with_reducible apply State.modIdx_evolves | with_reducible apply Evolves.foldl | split | (simp only [Evolves.mk_iff]; apply Evolves.core) | (intro _) | dsimp only

theorem Work.modIdx_evolves {s0 : State} {a1 : Work} {a2} (h : Evolves s0 a1.s) : Evolves s0 (Work.modIdx a1 a2).s := by
  unfold Work.modIdx
  repeat' first | with_reducible assumption | with_reducible apply State.modIdx_evolves | (simp only [Evolves.mk_iff]; apply Evolves.core) | dsimp only

theorem Work.general_evolves {s0 : State} {a1 : State} {a2} (h : Evolves s0 a1) : Evolves s0 (Work.general a1 a2) := by
  unfold Work.general
  repeat' first | with_reducible assumption | split | (simp only [Evolves.mk_iff]; apply Evolves.core) | (intro _) | dsimp only

theorem Work.cacheIdx_evolves {s0 : State} {a1 : Work} {a2} (h : Evolves s0 a1.s) : Evolves s0 (Work.cacheIdx a1 a2).s := by
  unfold Work.cacheIdx
  repeat' first | with_reducible assumption | with_reducible apply Work.general_evolves | with_reducible apply Evolves.foldl | with_reducible apply Evolves.foldl_work | with_reducible apply Evolves.foldl_work_snd | with_reducible apply Evolves.foldl_work_trd | with_reducible apply Evolves.foldl_work_qtd | split | (simp only [Evolves.mk_iff]; apply Evolves.core) | (intro _) | dsimp only

theorem Work.countStale_evolves {s0 : State} {a1 : Work} {a2} (h : Evolves s0 a1.s) : Evolves s0 (Work.countStale a1 a2).s := by
  unfold Work.countStale
  repeat' first | with_reducible assumption | with_reducible apply State.bumpCount_evolves | with_reducible apply State.bump_evolves | split | (simp only [Evolves.mk_iff]; apply Evolves.core) | dsimp only

theorem Work.rdIdx_evolves {s0 : State} {a1 : Work} {a2} {a3} (h : Evolves s0 a1.s) : Evolves s0 (Work.rdIdx a1 a2 a3).2.s := by
  unfold Work.rdIdx
  repeat' first | with_reducible assumption | with_reducible apply Work.dead_evolves | with_reducible apply Work.cacheIdx_evolves | with_reducible apply State.charge_evolves | with_reducible apply Work.fail_evolves | with_reducible apply Work.rdLine_evolves | split | (simp only [Evolves.mk_iff]; apply Evolves.core) | (refine Evolves.work_snd_of (by assumption) ?_) | dsimp only

theorem Work.rdIdxRun_evolves {s0 : State} {a1 : Work} {a2} {a3} {a4} (h : Evolves s0 a1.s) : Evolves s0 (Work.rdIdxRun a1 a2 a3 a4).2.s := by
  unfold Work.rdIdxRun
  repeat' first | with_reducible assumption | with_reducible apply Work.rdIdx_evolves | with_reducible apply Evolves.foldl | with_reducible apply Evolves.foldl_work | with_reducible apply Evolves.foldl_work_snd | with_reducible apply Evolves.foldl_work_trd | with_reducible apply Evolves.foldl_work_qtd | split | (simp only [Evolves.mk_iff]; apply Evolves.core) | (intro _) | (refine Evolves.work_snd_of (by assumption) ?_) | dsimp only

theorem Work.header_evolves {s0 : State} {a1 : Work} {a2} (h : Evolves s0 a1.s) : Evolves s0 (Work.header a1 a2).2.s := by
  unfold Work.header
  repeat' first | with_reducible assumption | with_reducible apply Work.rdIdx_evolves | dsimp only

theorem Work.codeOf_evolves {s0 : State} {a1 : Work} {a2} (h : Evolves s0 a1.s) : Evolves s0 (Work.codeOf a1 a2).2.s := by
  unfold Work.codeOf
  repeat' first | with_reducible assumption | with_reducible apply Work.rdIdxRun_evolves | (refine Evolves.work_snd_of (by assumption) ?_) | dsimp only

theorem Work.edgesOf_evolves {s0 : State} {a1 : Work} {a2} (h : Evolves s0 a1.s) : Evolves s0 (Work.edgesOf a1 a2).2.s := by
  unfold Work.edgesOf
  repeat' first | with_reducible assumption | with_reducible apply Work.rdIdxRun_evolves | (intro _) | (refine Evolves.work_snd_of (by assumption) ?_) | dsimp only

theorem Work.vectorOf_evolves {s0 : State} {a1 : Work} {a2} (h : Evolves s0 a1.s) : Evolves s0 (Work.vectorOf a1 a2).2.s := by
  unfold Work.vectorOf
  repeat' first | with_reducible assumption | with_reducible apply Work.rdIdxRun_evolves | (intro _) | (refine Evolves.work_snd_of (by assumption) ?_) | dsimp only

theorem Work.edgeTarget_evolves {s0 : State} {a1 : Work} {a2} (h : Evolves s0 a1.s) : Evolves s0 (Work.edgeTarget a1 a2).2.2.s := by
  unfold Work.edgeTarget
  repeat' first | with_reducible assumption | with_reducible apply Work.header_evolves | split | (simp only [Evolves.mk_iff]; apply Evolves.core) | (refine Evolves.work_snd_of (by assumption) ?_) | dsimp only

theorem Work.wrIdx_evolves {s0 : State} {a1 : Work} {a2} {a3} {a4} {a5} {a6} (h : Evolves s0 a1.s) : Evolves s0 (Work.wrIdx a1 a2 a3 a4 a5 a6).s := by
  unfold Work.wrIdx
  repeat' first | with_reducible assumption | with_reducible apply Work.wrLine_evolves | with_reducible apply Work.dead_evolves | split | dsimp only

theorem Work.wrIdxLoc_evolves {s0 : State} {a1 : Work} {a2} {a3} {a4} (h : Evolves s0 a1.s) : Evolves s0 (Work.wrIdxLoc a1 a2 a3 a4).s := by
  unfold Work.wrIdxLoc
  repeat' first | with_reducible assumption | with_reducible apply Work.wrIdx_evolves | with_reducible apply Evolves.foldl | with_reducible apply Evolves.foldl_work | with_reducible apply Evolves.foldl_work_snd | with_reducible apply Evolves.foldl_work_trd | with_reducible apply Evolves.foldl_work_qtd | (intro _) | dsimp only

theorem Work.putHeader_evolves {s0 : State} {a1 : Work} {a2} {a3} (h : Evolves s0 a1.s) : Evolves s0 (Work.putHeader a1 a2 a3).s := by
  unfold Work.putHeader
  repeat' first | with_reducible assumption | with_reducible apply Work.wrIdx_evolves | dsimp only

theorem Work.putEdges_evolves {s0 : State} {a1 : Work} {a2} {a3} (h : Evolves s0 a1.s) : Evolves s0 (Work.putEdges a1 a2 a3).s := by
  unfold Work.putEdges
  repeat' first | with_reducible assumption | with_reducible apply Work.wrIdx_evolves | with_reducible apply Evolves.foldl | with_reducible apply Evolves.foldl_work | with_reducible apply Evolves.foldl_work_snd | with_reducible apply Evolves.foldl_work_trd | with_reducible apply Evolves.foldl_work_qtd | (intro _) | dsimp only

theorem Work.takeSlot_evolves {s0 : State} {a1 : Work} (h : Evolves s0 a1.s) : Evolves s0 (Work.takeSlot a1).2.s := by
  unfold Work.takeSlot
  repeat' first | with_reducible assumption | with_reducible apply Work.dead_evolves | with_reducible apply Work.header_evolves | with_reducible apply Work.modIdx_evolves | split | (simp only [Evolves.mk_iff]; apply Evolves.core) | (intro _) | (refine Evolves.work_snd_of (by assumption) ?_) | dsimp only

theorem Work.freeSlot_evolves {s0 : State} {a1 : Work} {a2} {a3} (h : Evolves s0 a1.s) : Evolves s0 (Work.freeSlot a1 a2 a3).s := by
  unfold Work.freeSlot
  repeat' first | with_reducible assumption | with_reducible apply Work.modIdx_evolves | with_reducible apply Work.putHeader_evolves | (simp only [Evolves.mk_iff]; apply Evolves.core) | (intro _) | dsimp only

theorem Work.appendSide_evolves {s0 : State} {a1 : Work} {a2} {a3} {a4} (h : Evolves s0 a1.s) : Evolves s0 (Work.appendSide a1 a2 a3 a4).s := by
  unfold Work.appendSide
  repeat' first | with_reducible assumption | with_reducible apply Work.modIdx_evolves | with_reducible apply Work.wrIdxLoc_evolves | (simp only [Evolves.mk_iff]; apply Evolves.core) | (intro _) | dsimp only

theorem Work.sideEntry_evolves {s0 : State} {a1 : Work} {a2} (h : Evolves s0 a1.s) : Evolves s0 (Work.sideEntry a1 a2).2.s := by
  unfold Work.sideEntry
  repeat' first | with_reducible assumption | with_reducible apply Work.rdIdx_evolves | (intro _) | (refine Evolves.work_snd_of (by assumption) ?_) | dsimp only

theorem Work.centroids_evolves {s0 : State} {a1 : Work} {a2} (h : Evolves s0 a1.s) : Evolves s0 (Work.centroids a1 a2).2.s := by
  unfold Work.centroids
  repeat' first | with_reducible assumption | with_reducible apply Work.rdIdxRun_evolves | (intro _) | (refine Evolves.work_snd_of (by assumption) ?_) | dsimp only

theorem Work.codebook_evolves {s0 : State} {a1 : Work} (h : Evolves s0 a1.s) : Evolves s0 (Work.codebook a1).2.s := by
  unfold Work.codebook
  repeat' first | with_reducible assumption | with_reducible apply Work.centroids_evolves | with_reducible apply Evolves.foldl | with_reducible apply Evolves.foldl_work | with_reducible apply Evolves.foldl_work_snd | with_reducible apply Evolves.foldl_work_trd | with_reducible apply Evolves.foldl_work_qtd | split | (simp only [Evolves.mk_iff]; apply Evolves.core) | (intro _) | (refine Evolves.work_snd_of (by assumption) ?_) | dsimp only

theorem Work.score_evolves {s0 : State} {a1 : Work} {a2} {a3} {a4} {a5} (h : Evolves s0 a1.s) : Evolves s0 (Work.score a1 a2 a3 a4 a5).2.s := by
  unfold Work.score
  repeat' first | with_reducible assumption | with_reducible apply Work.codeOf_evolves | split | (simp only [Evolves.mk_iff]; apply Evolves.core) | (intro _) | (refine Evolves.work_snd_of (by assumption) ?_) | dsimp only

theorem Work.follow_evolves {s0 : State} {a1} {a2} {a3} (h : Evolves s0 a2.2.s) : Evolves s0 (Work.follow a1 a2 a3).2.s := by
  unfold Work.follow
  repeat' first | with_reducible assumption | with_reducible apply Work.edgeTarget_evolves | with_reducible apply Work.countStale_evolves | with_reducible apply Work.score_evolves | split | (simp only [Evolves.mk_iff]; apply Evolves.core) | (refine Evolves.work_snd_of (by assumption) ?_) | (refine Evolves.work_trd_of (by assumption) ?_) | dsimp only

theorem Work.walkOn_evolves {s0 : State} {a1} {a2} {a3} (h : Evolves s0 a3.2.s) : Evolves s0 (Work.walkOn a1 a2 a3).2.s := by
  induction a2 generalizing a3 with
  | zero =>
    unfold Work.walkOn
    repeat' first | with_reducible assumption | with_reducible apply Work.edgesOf_evolves | with_reducible apply Work.follow_evolves | with_reducible apply Evolves.foldl | with_reducible apply Evolves.foldl_work | with_reducible apply Evolves.foldl_work_snd | with_reducible apply Evolves.foldl_work_trd | with_reducible apply Evolves.foldl_work_qtd | split | (simp only [Evolves.mk_iff]; apply Evolves.core) | (intro _) | (refine Evolves.work_snd_of (by assumption) ?_) | dsimp only
  | succ n ih =>
    unfold Work.walkOn
    repeat' first | with_reducible assumption | with_reducible apply ih | with_reducible apply Work.edgesOf_evolves | with_reducible apply Work.follow_evolves | with_reducible apply Evolves.foldl | with_reducible apply Evolves.foldl_work | with_reducible apply Evolves.foldl_work_snd | with_reducible apply Evolves.foldl_work_trd | with_reducible apply Evolves.foldl_work_qtd | split | (simp only [Evolves.mk_iff]; apply Evolves.core) | (intro _) | (refine Evolves.work_snd_of (by assumption) ?_) | dsimp only

theorem Work.walk_evolves {s0 : State} {a1 : Work} {a2} {a3} (h : Evolves s0 a1.s) : Evolves s0 (Work.walk a1 a2 a3).2.s := by
  unfold Work.walk
  repeat' first | with_reducible assumption | with_reducible apply Work.header_evolves | with_reducible apply Work.walkOn_evolves | with_reducible apply Work.score_evolves | split | (simp only [Evolves.mk_iff]; apply Evolves.core) | (refine Evolves.work_snd_of (by assumption) ?_) | dsimp only

theorem Work.neighbours_evolves {s0 : State} {a1 : Work} {a2} {a3} {a4} (h : Evolves s0 a1.s) : Evolves s0 (Work.neighbours a1 a2 a3 a4).2.s := by
  unfold Work.neighbours
  repeat' first | with_reducible assumption | with_reducible apply Work.edgeTarget_evolves | with_reducible apply Work.countStale_evolves | with_reducible apply Work.vectorOf_evolves | with_reducible apply Evolves.foldl | with_reducible apply Evolves.foldl_work | with_reducible apply Evolves.foldl_work_snd | with_reducible apply Evolves.foldl_work_trd | with_reducible apply Evolves.foldl_work_qtd | split | (simp only [Evolves.mk_iff]; apply Evolves.core) | (intro _) | (refine Evolves.work_snd_of (by assumption) ?_) | (refine Evolves.work_trd_of (by assumption) ?_) | dsimp only

theorem Work.prune_evolves {s0 : State} {a1 : Work} {a2} {a3} {a4} (h : Evolves s0 a1.s) : Evolves s0 (Work.prune a1 a2 a3 a4).2.s := by
  unfold Work.prune
  repeat' first | with_reducible assumption | with_reducible apply Work.draws_evolves | with_reducible apply Work.neighbours_evolves | (intro _) | (refine Evolves.work_snd_of (by assumption) ?_) | dsimp only

theorem Work.backEdge_evolves {s0 : State} {a1 : Work} {a2} {a3} {a4} {a5} (h : Evolves s0 a1.s) : Evolves s0 (Work.backEdge a1 a2 a3 a4 a5).s := by
  unfold Work.backEdge
  repeat' first | with_reducible assumption | with_reducible apply Work.edgeTarget_evolves | with_reducible apply Work.edgesOf_evolves | with_reducible apply Work.putEdges_evolves | with_reducible apply Work.vectorOf_evolves | with_reducible apply Work.prune_evolves | split | (simp only [Evolves.mk_iff]; apply Evolves.core) | (intro _) | (refine Evolves.work_snd_of (by assumption) ?_) | (refine Evolves.work_trd_of (by assumption) ?_) | dsimp only

theorem Work.link_evolves {s0 : State} {a1 : Work} {a2} {a3} {a4} {a5} {a6} {a7} {a8} (h : Evolves s0 a1.s) : Evolves s0 (Work.link a1 a2 a3 a4 a5 a6 a7 a8).s := by
  unfold Work.link
  repeat' first | with_reducible assumption | with_reducible apply Work.draws_evolves | with_reducible apply Work.walk_evolves | with_reducible apply Work.prune_evolves | with_reducible apply Work.putEdges_evolves | with_reducible apply Work.backEdge_evolves | with_reducible apply Evolves.foldl | with_reducible apply Evolves.foldl_work | with_reducible apply Evolves.foldl_work_snd | with_reducible apply Evolves.foldl_work_trd | with_reducible apply Evolves.foldl_work_qtd | (intro _) | (refine Evolves.work_snd_of (by assumption) ?_) | dsimp only

theorem Work.relink_evolves {s0 : State} {a1 : Work} {a2} {a3} (h : Evolves s0 a1.s) : Evolves s0 (Work.relink a1 a2 a3).2.s := by
  unfold Work.relink
  repeat' first | with_reducible assumption | with_reducible apply Work.header_evolves | with_reducible apply Work.edgesOf_evolves | with_reducible apply Work.edgeTarget_evolves | with_reducible apply Work.putEdges_evolves | with_reducible apply Work.vectorOf_evolves | with_reducible apply Work.countStale_evolves | with_reducible apply Work.prune_evolves | with_reducible apply Evolves.foldl | with_reducible apply Evolves.foldl_work | with_reducible apply Evolves.foldl_work_snd | with_reducible apply Evolves.foldl_work_trd | with_reducible apply Evolves.foldl_work_qtd | split | (simp only [Evolves.mk_iff]; apply Evolves.core) | (intro _) | (refine Evolves.work_snd_of (by assumption) ?_) | (refine Evolves.work_trd_of (by assumption) ?_) | dsimp only

end Sys2Proof.Machine
end

