-- ==== Sys2Proof/Laws/EvolveSearch.lean ====
section
/-! SUPPORT. No operation of `Machine/Search.lean` does what no command may do (`Evolves`). -/

namespace Sys2Proof.Machine

set_option linter.all false

theorem Work.fullScore_evolves {s0 : State} {a1 : Work} {a2} {a3} {a4} {a5} (h : Evolves s0 a1.s) : Evolves s0 (Work.fullScore a1 a2 a3 a4 a5).2.s := by
  unfold Work.fullScore
  repeat' first | with_reducible assumption | with_reducible apply Work.vectorOf_evolves | (intro _) | (refine Evolves.work_snd_of (by assumption) ?_) | dsimp only

theorem Work.sideHits_evolves {s0 : State} {a1 : Work} {a2} {a3} {a4} (h : Evolves s0 a1.s) : Evolves s0 (Work.sideHits a1 a2 a3 a4).2.s := by
  unfold Work.sideHits
  repeat' first | with_reducible assumption | with_reducible apply Work.sideEntry_evolves | with_reducible apply Work.edgeTarget_evolves | with_reducible apply Work.fullScore_evolves | with_reducible apply Evolves.foldl | with_reducible apply Evolves.foldl_work | with_reducible apply Evolves.foldl_work_snd | with_reducible apply Evolves.foldl_work_trd | with_reducible apply Evolves.foldl_work_qtd | split | (simp only [Evolves.mk_iff]; apply Evolves.core) | (intro _) | (refine Evolves.work_snd_of (by assumption) ?_) | (refine Evolves.work_trd_of (by assumption) ?_) | dsimp only

theorem Work.graphHits_evolves {s0 : State} {a1 : Work} {a2} {a3} {a4} {a5} (h : Evolves s0 a1.s) : Evolves s0 (Work.graphHits a1 a2 a3 a4 a5).2.s := by
  unfold Work.graphHits
  repeat' first | with_reducible assumption | with_reducible apply Work.walk_evolves | with_reducible apply Work.fullScore_evolves | with_reducible apply Evolves.foldl | with_reducible apply Evolves.foldl_work | with_reducible apply Evolves.foldl_work_snd | with_reducible apply Evolves.foldl_work_trd | with_reducible apply Evolves.foldl_work_qtd | split | (simp only [Evolves.mk_iff]; apply Evolves.core) | (intro _) | (refine Evolves.work_snd_of (by assumption) ?_) | dsimp only

theorem Work.allHits_evolves {s0 : State} {a1 : Work} {a2} {a3} (h : Evolves s0 a1.s) : Evolves s0 (Work.allHits a1 a2 a3).2.s := by
  unfold Work.allHits
  repeat' first | with_reducible assumption | with_reducible apply Work.header_evolves | with_reducible apply Work.vectorOf_evolves | with_reducible apply Evolves.foldl | with_reducible apply Evolves.foldl_work | with_reducible apply Evolves.foldl_work_snd | with_reducible apply Evolves.foldl_work_trd | with_reducible apply Evolves.foldl_work_qtd | split | (simp only [Evolves.mk_iff]; apply Evolves.core) | (intro _) | (refine Evolves.work_snd_of (by assumption) ?_) | dsimp only

theorem Work.putHits_evolves {s0 : State} {a1 : Work} {a2} {a3} {a4} (h : Evolves s0 a1.s) : Evolves s0 (Work.putHits a1 a2 a3 a4).s := by
  unfold Work.putHits
  repeat' first | with_reducible assumption | with_reducible apply Work.wr_evolves | (simp only [Evolves.mk_iff]; apply Evolves.core) | (intro _) | dsimp only

theorem Work.queryVec_evolves {s0 : State} {a1 : Work} {a2} (h : Evolves s0 a1.s) : Evolves s0 (Work.queryVec a1 a2).2.s := by
  unfold Work.queryVec
  repeat' first | with_reducible assumption | with_reducible apply Work.readVecOf_evolves | (intro _) | dsimp only

theorem searchGraph_evolves {s0 : State} {a1 : Work} {a2} (h : Evolves s0 a1.s) : Evolves s0 (searchGraph a1 a2).s := by
  unfold searchGraph
  repeat' first | with_reducible assumption | with_reducible apply Work.queryVec_evolves | with_reducible apply Work.draws_evolves | with_reducible apply Work.codebook_evolves | with_reducible apply Work.graphHits_evolves | with_reducible apply Work.sideHits_evolves | with_reducible apply Work.putHits_evolves | split | (simp only [Evolves.mk_iff]; apply Evolves.core) | (refine Evolves.work_snd_of (by assumption) ?_) | dsimp only

theorem searchAll_evolves {s0 : State} {a1 : Work} {a2} (h : Evolves s0 a1.s) : Evolves s0 (searchAll a1 a2).s := by
  unfold searchAll
  repeat' first | with_reducible assumption | with_reducible apply overRows_evolves | with_reducible apply Work.queryVec_evolves | with_reducible apply Work.draws_evolves | with_reducible apply Work.allHits_evolves | with_reducible apply Work.putHits_evolves | with_reducible apply Evolves.foldl | with_reducible apply Evolves.foldl_work | with_reducible apply Evolves.foldl_work_snd | with_reducible apply Evolves.foldl_work_trd | with_reducible apply Evolves.foldl_work_qtd | split | (intro _) | (refine Evolves.work_snd_of (by assumption) ?_) | dsimp only

theorem itemSearch_evolves {s0 : State} {a1 : Work} {a2} (h : Evolves s0 a1.s) : Evolves s0 (itemSearch a1 a2).s := by
  unfold itemSearch
  repeat' first | with_reducible assumption | with_reducible apply searchAll_evolves | with_reducible apply searchGraph_evolves | split | dsimp only

theorem Work.noteInsert_evolves {s0 : State} {a1 : Work} {a2} (h : Evolves s0 a1.s) : Evolves s0 (Work.noteInsert a1 a2).s := by
  unfold Work.noteInsert
  repeat' first | with_reducible assumption | with_reducible apply Work.modIdx_evolves | split | (simp only [Evolves.mk_iff]; apply Evolves.core) | (intro _) | dsimp only

theorem Work.writeBody_evolves {s0 : State} {a1 : Work} {a2} {a3} {a4} (h : Evolves s0 a1.s) : Evolves s0 (Work.writeBody a1 a2 a3 a4).s := by
  unfold Work.writeBody
  repeat' first | with_reducible assumption | with_reducible apply Work.wrIdx_evolves | with_reducible apply Work.putEdges_evolves | with_reducible apply Work.wrIdxLoc_evolves | with_reducible apply Evolves.foldl | with_reducible apply Evolves.foldl_work | with_reducible apply Evolves.foldl_work_snd | with_reducible apply Evolves.foldl_work_trd | with_reducible apply Evolves.foldl_work_qtd | (intro _) | dsimp only

theorem Work.notInserted_evolves {s0 : State} {a1 : Work} {a2} (h : Evolves s0 a1.s) : Evolves s0 (Work.notInserted a1 a2).s := by
  unfold Work.notInserted
  repeat' first | with_reducible assumption | with_reducible apply Work.wr_evolves | (simp only [Evolves.mk_iff]; apply Evolves.core) | dsimp only

theorem Work.stopInsert_evolves {s0 : State} {a1 : Work} {a2} {a3} (h : Evolves s0 a1.s) : Evolves s0 (Work.stopInsert a1 a2 a3).s := by
  unfold Work.stopInsert
  repeat' first | with_reducible assumption | with_reducible apply Work.notInserted_evolves | with_reducible apply Evolves.foldl | with_reducible apply Evolves.foldl_work | with_reducible apply Evolves.foldl_work_snd | with_reducible apply Evolves.foldl_work_trd | with_reducible apply Evolves.foldl_work_qtd | (simp only [Evolves.mk_iff]; apply Evolves.core) | (intro _) | dsimp only

theorem Work.giveBack_evolves {s0 : State} {a1 : Work} (h : Evolves s0 a1.s) : Evolves s0 (Work.giveBack a1).s := by
  unfold Work.giveBack
  repeat' first | with_reducible assumption | with_reducible apply Work.keep_evolves | with_reducible apply Work.freeSlot_evolves | with_reducible apply Evolves.foldl | with_reducible apply Evolves.foldl_work | with_reducible apply Evolves.foldl_work_snd | with_reducible apply Evolves.foldl_work_trd | with_reducible apply Evolves.foldl_work_qtd | split | (simp only [Evolves.mk_iff]; apply Evolves.core) | (intro _) | dsimp only

theorem insertBody_evolves {s0 : State} {a1 : Work} {a2} {a3} (h : Evolves s0 a1.s) : Evolves s0 (insertBody a1 a2 a3).s := by
  unfold insertBody
  repeat' first | with_reducible assumption | with_reducible apply Work.takeSlot_evolves | with_reducible apply Work.notInserted_evolves | with_reducible apply Work.keep_evolves | with_reducible apply Work.readVecOf_evolves | with_reducible apply Work.rd_evolves | with_reducible apply Work.codebook_evolves | with_reducible apply Work.stopInsert_evolves | with_reducible apply Work.pack_evolves | with_reducible apply Work.draws_evolves | with_reducible apply Work.writeBody_evolves | split | (simp only [Evolves.mk_iff]; apply Evolves.core) | (intro _) | (refine Evolves.work_snd_of (by assumption) ?_) | dsimp only

theorem insertHead_evolves {s0 : State} {a1 : Work} {a2} {a3} (h : Evolves s0 a1.s) : Evolves s0 (insertHead a1 a2 a3).s := by
  unfold insertHead
  repeat' first | with_reducible assumption | with_reducible apply Work.notInserted_evolves | with_reducible apply Work.giveBack_evolves | with_reducible apply Work.codebook_evolves | with_reducible apply Work.stopInsert_evolves | with_reducible apply Work.putHeader_evolves | with_reducible apply Work.link_evolves | with_reducible apply Work.appendSide_evolves | with_reducible apply Work.keep_evolves | with_reducible apply Work.noteInsert_evolves | with_reducible apply Work.wr_evolves | split | (simp only [Evolves.mk_iff]; apply Evolves.core) | (refine Evolves.work_snd_of (by assumption) ?_) | dsimp only

theorem itemInsert_evolves {s0 : State} {a1 : Work} {a2} (h : Evolves s0 a1.s) : Evolves s0 (itemInsert a1 a2).s := by
  unfold itemInsert
  repeat' first | with_reducible assumption | with_reducible apply Work.block_evolves | with_reducible apply insertBody_evolves | with_reducible apply insertHead_evolves | split | dsimp only

theorem State.giveBack_evolves {s0 : State} {a1 : State} {a2} {a3} (h : Evolves s0 a1) : Evolves s0 (State.giveBack a1 a2 a3) := by
  unfold State.giveBack
  repeat' first | with_reducible assumption | with_reducible apply Work.giveBack_evolves | dsimp only

theorem itemDelete_evolves {s0 : State} {a1 : Work} {a2} (h : Evolves s0 a1.s) : Evolves s0 (itemDelete a1 a2).s := by
  unfold itemDelete
  repeat' first | with_reducible assumption | with_reducible apply Work.block_evolves | with_reducible apply Work.rd_evolves | with_reducible apply Work.edgeTarget_evolves | with_reducible apply Work.wrIdx_evolves | with_reducible apply Work.appendSide_evolves | with_reducible apply Work.modIdx_evolves | split | (simp only [Evolves.mk_iff]; apply Evolves.core) | (intro _) | (refine Evolves.work_snd_of (by assumption) ?_) | (refine Evolves.work_trd_of (by assumption) ?_) | dsimp only

theorem Work.anyDelete_evolves {s0 : State} {a1 : Work} (h : Evolves s0 a1.s) : Evolves s0 (Work.anyDelete a1).2.s := by
  unfold Work.anyDelete
  repeat' first | with_reducible assumption | with_reducible apply Work.sideEntry_evolves | with_reducible apply Evolves.foldl | with_reducible apply Evolves.foldl_work | with_reducible apply Evolves.foldl_work_snd | with_reducible apply Evolves.foldl_work_trd | with_reducible apply Evolves.foldl_work_qtd | (intro _) | (refine Evolves.work_snd_of (by assumption) ?_) | dsimp only

theorem Work.freeNode_evolves {s0 : State} {a1 : Work} {a2} {a3} (h : Evolves s0 a1.s) : Evolves s0 (Work.freeNode a1 a2 a3).s := by
  unfold Work.freeNode
  repeat' first | with_reducible assumption | with_reducible apply Work.modIdx_evolves | with_reducible apply Work.freeSlot_evolves | split | (simp only [Evolves.mk_iff]; apply Evolves.core) | (intro _) | dsimp only

theorem Work.mergeLink_evolves {s0 : State} {a1 : Work} {a2} (h : Evolves s0 a1.s) : Evolves s0 (Work.mergeLink a1 a2).s := by
  unfold Work.mergeLink
  repeat' first | with_reducible assumption | with_reducible apply Work.sideEntry_evolves | with_reducible apply Work.edgeTarget_evolves | with_reducible apply Work.keep_evolves | with_reducible apply Work.modIdx_evolves | with_reducible apply Work.vectorOf_evolves | with_reducible apply Work.codebook_evolves | with_reducible apply Work.link_evolves | split | (simp only [Evolves.mk_iff]; apply Evolves.core) | (intro _) | (refine Evolves.work_snd_of (by assumption) ?_) | (refine Evolves.work_trd_of (by assumption) ?_) | dsimp only

theorem Work.mergeFree_evolves {s0 : State} {a1 : Work} (h : Evolves s0 a1.s) : Evolves s0 (Work.mergeFree a1).s := by
  unfold Work.mergeFree
  repeat' first | with_reducible assumption | with_reducible apply Work.sideEntry_evolves | with_reducible apply Work.edgeTarget_evolves | with_reducible apply Work.freeNode_evolves | with_reducible apply Work.modIdx_evolves | with_reducible apply Evolves.foldl | with_reducible apply Evolves.foldl_work | with_reducible apply Evolves.foldl_work_snd | with_reducible apply Evolves.foldl_work_trd | with_reducible apply Evolves.foldl_work_qtd | split | (simp only [Evolves.mk_iff]; apply Evolves.core) | (intro _) | (refine Evolves.work_snd_of (by assumption) ?_) | (refine Evolves.work_trd_of (by assumption) ?_) | dsimp only

theorem itemMerge_evolves {s0 : State} {a1 : Work} {a2} (h : Evolves s0 a1.s) : Evolves s0 (itemMerge a1 a2).s := by
  unfold itemMerge
  repeat' first | with_reducible assumption | with_reducible apply Work.block_evolves | with_reducible apply Work.mergeLink_evolves | with_reducible apply Work.anyDelete_evolves | with_reducible apply State.modCmd_evolves | with_reducible apply Work.relink_evolves | with_reducible apply Work.mergeFree_evolves | split | (simp only [Evolves.mk_iff]; apply Evolves.core) | (intro _) | (refine Evolves.work_snd_of (by assumption) ?_) | dsimp only

theorem itemRepair_evolves {s0 : State} {a1 : Work} {a2} (h : Evolves s0 a1.s) : Evolves s0 (itemRepair a1 a2).s := by
  unfold itemRepair
  repeat' first | with_reducible assumption | with_reducible apply Work.block_evolves | with_reducible apply Work.relink_evolves | with_reducible apply Work.header_evolves | with_reducible apply Work.freeNode_evolves | with_reducible apply Work.fail_evolves | with_reducible apply Work.modIdx_evolves | split | (simp only [Evolves.mk_iff]; apply Evolves.core) | (intro _) | (refine Evolves.work_snd_of (by assumption) ?_) | dsimp only

end Sys2Proof.Machine
end

