-- ==== Sys2Proof/Laws/EvolveSync.lean ====
section
/-! SUPPORT. No operation of `Machine/Sync.lean` does what no command may do (`Evolves`). -/

namespace Sys2Proof.Machine

set_option linter.all false

theorem State.localFlag_evolves {s0 : State} {a1 : State} {a2} {a3} {a4} {a5} {a6} (h : Evolves s0 a1) : Evolves s0 (State.localFlag a1 a2 a3 a4 a5 a6) := by
  unfold State.localFlag
  repeat' first | with_reducible assumption | with_reducible apply State.submit_evolves | dsimp only

theorem State.remoteFlag_evolves {s0 : State} {a1 : State} {a2} {a3} {a4} {a5} {a6} {a7} {a8} (h : Evolves s0 a1) : Evolves s0 (State.remoteFlag a1 a2 a3 a4 a5 a6 a7 a8).2 := by
  unfold State.remoteFlag
  repeat' first | with_reducible assumption | with_reducible apply State.issue_evolves | dsimp only

theorem itemNone_evolves {s0 : State} {a1 : Work} {a2} (h : Evolves s0 a1.s) : Evolves s0 (itemNone a1 a2).s := by
  unfold itemNone
  repeat' first | with_reducible assumption | dsimp only

theorem itemAcquire_evolves {s0 : State} {a1 : Work} {a2} (h : Evolves s0 a1.s) : Evolves s0 (itemAcquire a1 a2).s := by
  unfold itemAcquire
  repeat' first | with_reducible assumption | with_reducible apply State.dropStaged_evolves | with_reducible apply Evolves.foldl | with_reducible apply Evolves.foldl_work | with_reducible apply Evolves.foldl_work_snd | with_reducible apply Evolves.foldl_work_trd | with_reducible apply Evolves.foldl_work_qtd | split | (simp only [Evolves.mk_iff]; apply Evolves.core) | (intro _) | dsimp only

theorem itemRelease_evolves {s0 : State} {a1 : Work} {a2} (h : Evolves s0 a1.s) : Evolves s0 (itemRelease a1 a2).s := by
  unfold itemRelease
  repeat' first | with_reducible assumption | with_reducible apply Work.block_evolves | with_reducible apply State.modRing_evolves | with_reducible apply Work.fail_evolves | with_reducible apply Evolves.foldl | with_reducible apply Evolves.foldl_work | with_reducible apply Evolves.foldl_work_snd | with_reducible apply Evolves.foldl_work_trd | with_reducible apply Evolves.foldl_work_qtd | split | (simp only [Evolves.mk_iff]; apply Evolves.core) | (intro _) | dsimp only

theorem itemFlagWrite_evolves {s0 : State} {a1 : Work} {a2} (h : Evolves s0 a1.s) : Evolves s0 (itemFlagWrite a1 a2).s := by
  unfold itemFlagWrite
  repeat' first | with_reducible assumption | with_reducible apply Work.fail_evolves | with_reducible apply State.dropWrite_evolves | with_reducible apply Work.block_evolves | with_reducible apply State.localFlag_evolves | with_reducible apply State.remoteFlag_evolves | split | (simp only [Evolves.mk_iff]; apply Evolves.core) | (intro _) | (refine Evolves.snd_of (by assumption) ?_) | dsimp only

theorem State.armWatches_evolves {s0 : State} {a1 : State} (h : Evolves s0 a1) : Evolves s0 (State.armWatches a1) := by
  unfold State.armWatches
  repeat' first | with_reducible assumption | with_reducible apply Evolves.foldl | split | (simp only [Evolves.mk_iff]; apply Evolves.core) | (intro _) | dsimp only

theorem State.startWatch_evolves {s0 : State} {a1 : State} {a2} (h : Evolves s0 a1) : Evolves s0 (State.startWatch a1 a2) := by
  unfold State.startWatch
  repeat' first | with_reducible assumption | with_reducible apply State.armWatches_evolves | (simp only [Evolves.mk_iff]; apply Evolves.core) | dsimp only

theorem State.endWatch_evolves {s0 : State} {a1 : State} {a2} (h : Evolves s0 a1) : Evolves s0 (State.endWatch a1 a2) := by
  unfold State.endWatch
  repeat' first | with_reducible assumption | with_reducible apply State.modCmd_evolves | with_reducible apply State.finish_evolves | with_reducible apply State.armWatches_evolves | split | (simp only [Evolves.mk_iff]; apply Evolves.core) | (intro _) | dsimp only

theorem State.watchRuns_evolves {s0 : State} {a1 : State} {a2} (h : Evolves s0 a1) : Evolves s0 (State.watchRuns a1 a2) := by
  unfold State.watchRuns
  repeat' first | with_reducible assumption | with_reducible apply State.finish_evolves | with_reducible apply State.endWatch_evolves | split | (simp only [Evolves.mk_iff]; apply Evolves.core) | (intro _) | dsimp only

theorem State.watchExpires_evolves {s0 : State} {a1 : State} {a2} (h : Evolves s0 a1) : Evolves s0 (State.watchExpires a1 a2) := by
  unfold State.watchExpires
  repeat' first | with_reducible assumption | with_reducible apply State.endWatch_evolves | split | (simp only [Evolves.mk_iff]; apply Evolves.core) | (intro _) | dsimp only

end Sys2Proof.Machine
end

