-- ==== Sys2Proof/Laws/EvolveDispatching.lean ====
section
/-! SUPPORT. No operation of `Machine/Dispatching.lean` does what no command may do (`Evolves`). -/

namespace Sys2Proof.Machine

set_option linter.all false

theorem State.reserveDump_evolves {s0 : State} {a1 : State} {a2} {a3} (h : Evolves s0 a1) : Evolves s0 (State.reserveDump a1 a2 a3) := by
  unfold State.reserveDump
  repeat' first | with_reducible assumption | with_reducible apply State.modCmd_evolves | with_reducible apply Evolves.foldl | split | (simp only [Evolves.mk_iff]; apply Evolves.core) | (intro _) | dsimp only

theorem State.endsEmpty_evolves {s0 : State} {a1 : State} {a2} {a3} (h : Evolves s0 a1) : Evolves s0 (State.endsEmpty a1 a2 a3) := by
  unfold State.endsEmpty
  repeat' first | with_reducible assumption | with_reducible apply State.finish_evolves | with_reducible apply State.modCmd_evolves | (simp only [Evolves.mk_iff]; apply Evolves.core) | (intro _) | dsimp only

theorem State.startCmd_evolves {s0 : State} {a1 : State} {a2} {a3} (h : Evolves s0 a1) : Evolves s0 (State.startCmd a1 a2 a3) := by
  unfold State.startCmd
  repeat' first | with_reducible assumption | with_reducible apply State.refuse_evolves | with_reducible apply State.passOn_evolves | with_reducible apply State.modCmd_evolves | with_reducible apply State.queueIndex_evolves | with_reducible apply State.startRetireTable_evolves | with_reducible apply State.modGrp_evolves | with_reducible apply State.endsEmpty_evolves | with_reducible apply State.startWatch_evolves | with_reducible apply State.reserveDump_evolves | with_reducible apply Evolves.foldl | split | (simp only [Evolves.mk_iff]; apply Evolves.core) | (intro _) | dsimp only

theorem State.tryShare_evolves {s0 : State} {a1 : State} {a2} {a3} (h : Evolves s0 a1) : Evolves s0 (State.tryShare a1 a2 a3) := by
  unfold State.tryShare
  repeat' first | with_reducible assumption | with_reducible apply State.modCmd_evolves | with_reducible apply State.startCmd_evolves | split | (simp only [Evolves.mk_iff]; apply Evolves.core) | (intro _) | dsimp only

theorem State.tryWait_evolves {s0 : State} {a1 : State} {a2} {a3} {a4} (h : Evolves s0 a1) : Evolves s0 (State.tryWait a1 a2 a3 a4) := by
  unfold State.tryWait
  repeat' first | with_reducible assumption | with_reducible apply State.modCmd_evolves | with_reducible apply State.tryShare_evolves | with_reducible apply State.refuse_evolves | with_reducible apply State.ownRead_evolves | split | (simp only [Evolves.mk_iff]; apply Evolves.core) | (intro _) | (refine Evolves.snd_of (by assumption) ?_) | dsimp only

theorem State.counterEntry_evolves {s0 : State} {a1 : State} {a2} {a3} {a4} {a5} (h : Evolves s0 a1) : Evolves s0 (State.counterEntry a1 a2 a3 a4 a5).2 := by
  unfold State.counterEntry
  repeat' first | with_reducible assumption | with_reducible apply State.ownRead_evolves | split | (simp only [Evolves.mk_iff]; apply Evolves.core) | (refine Evolves.snd_of (by assumption) ?_) | dsimp only

theorem State.readCounter_evolves {s0 : State} {a1 : State} {a2} {a3} {a4} {a5} (h : Evolves s0 a1) : Evolves s0 (State.readCounter a1 a2 a3 a4 a5).2 := by
  unfold State.readCounter
  repeat' first | with_reducible assumption | with_reducible apply State.counterEntry_evolves | with_reducible apply State.ringError_evolves | split | (refine Evolves.snd_of (by assumption) ?_) | dsimp only

theorem State.readSegs_evolves {s0 : State} {a1 : State} {a2} {a3} (h : Evolves s0 a1) : Evolves s0 (State.readSegs a1 a2 a3).2 := by
  unfold State.readSegs
  repeat' first | with_reducible assumption | with_reducible apply State.ownRead_evolves | (simp only [Evolves.mk_iff]; apply Evolves.core) | (intro _) | (refine Evolves.snd_of (by assumption) ?_) | dsimp only

theorem State.bindBlocks_evolves {s0 : State} {a1 : State} {a2} {a3} {a4} (h : Evolves s0 a1) : Evolves s0 (State.bindBlocks a1 a2 a3 a4).2 := by
  unfold State.bindBlocks
  repeat' first | with_reducible assumption | with_reducible apply Work.bindKv_evolves | with_reducible apply State.issueWants_evolves | with_reducible apply State.modCmd_evolves | split | (simp only [Evolves.mk_iff]; apply Evolves.core) | (intro _) | dsimp only

theorem State.examineOperands_evolves {s0 : State} {a1 : State} {a2} {a3} {a4} (h : Evolves s0 a1) : Evolves s0 (State.examineOperands a1 a2 a3 a4) := by
  unfold State.examineOperands
  repeat' first | with_reducible assumption | with_reducible apply State.readSegs_evolves | with_reducible apply State.refuse_evolves | with_reducible apply State.modCmd_evolves | with_reducible apply State.bindBlocks_evolves | with_reducible apply State.bindIndex_evolves | with_reducible apply State.bumpMeter_evolves | with_reducible apply State.tryShare_evolves | with_reducible apply State.tryWait_evolves | split | (simp only [Evolves.mk_iff]; apply Evolves.core) | (intro _) | (refine Evolves.snd_of (by assumption) ?_) | dsimp only

theorem State.signalCounter_evolves {s0 : State} {a1 : State} {a2} {a3} {a4} (h : Evolves s0 a1) : Evolves s0 (State.signalCounter a1 a2 a3 a4).2 := by
  unfold State.signalCounter
  repeat' first | with_reducible assumption | with_reducible apply State.readCounter_evolves | split | dsimp only

theorem State.waitCounter_evolves {s0 : State} {a1 : State} {a2} {a3} {a4} (h : Evolves s0 a1) : Evolves s0 (State.waitCounter a1 a2 a3 a4).2 := by
  unfold State.waitCounter
  repeat' first | with_reducible assumption | with_reducible apply State.readCounter_evolves | split | dsimp only

theorem State.examineCounters_evolves {s0 : State} {a1 : State} {a2} {a3} {a4} {a5} (h : Evolves s0 a1) : Evolves s0 (State.examineCounters a1 a2 a3 a4 a5) := by
  unfold State.examineCounters
  repeat' first | with_reducible assumption | with_reducible apply State.signalCounter_evolves | with_reducible apply State.refuse_evolves | with_reducible apply State.waitCounter_evolves | with_reducible apply State.examineOperands_evolves | with_reducible apply State.modCmd_evolves | split | (simp only [Evolves.mk_iff]; apply Evolves.core) | (intro _) | dsimp only

theorem State.examine_evolves {s0 : State} {a1 : State} {a2} {a3} {a4} {a5} (h : Evolves s0 a1) : Evolves s0 (State.examine a1 a2 a3 a4 a5) := by
  unfold State.examine
  repeat' first | with_reducible assumption | with_reducible apply State.refuse_evolves | with_reducible apply State.examineCounters_evolves | split | (simp only [Evolves.mk_iff]; apply Evolves.core) | dsimp only

theorem State.dispatchRing_evolves {s0 : State} {a1 : State} {a2} {a3} (h : Evolves s0 a1) : Evolves s0 (State.dispatchRing a1 a2 a3) := by
  unfold State.dispatchRing
  repeat' first | with_reducible assumption | with_reducible apply State.examine_evolves | with_reducible apply State.tryWait_evolves | with_reducible apply State.tryShare_evolves | split | (simp only [Evolves.mk_iff]; apply Evolves.core) | dsimp only

theorem State.waitAgain_evolves {s0 : State} {a1 : State} {a2} (h : Evolves s0 a1) : Evolves s0 (State.waitAgain a1 a2) := by
  unfold State.waitAgain
  repeat' first | with_reducible assumption | with_reducible apply State.tryWait_evolves | split | (simp only [Evolves.mk_iff]; apply Evolves.core) | dsimp only

theorem State.waitExpires_evolves {s0 : State} {a1 : State} {a2} (h : Evolves s0 a1) : Evolves s0 (State.waitExpires a1 a2) := by
  unfold State.waitExpires
  repeat' first | with_reducible assumption | with_reducible apply State.refuse_evolves | with_reducible apply State.abandonCmd_evolves | with_reducible apply State.modVer_evolves | split | (simp only [Evolves.mk_iff]; apply Evolves.core) | (intro _) | dsimp only

theorem State.tileEnds_evolves {s0 : State} {a1 : State} {a2} {a3} (h : Evolves s0 a1) : Evolves s0 (State.tileEnds a1 a2 a3) := by
  unfold State.tileEnds
  repeat' first | with_reducible assumption | with_reducible apply State.modCmd_evolves | with_reducible apply State.noteTile_evolves | with_reducible apply State.chargeEngine_evolves | with_reducible apply State.finish_evolves | with_reducible apply State.markEnds_evolves | split | (simp only [Evolves.mk_iff]; apply Evolves.core) | (intro _) | dsimp only

theorem State.abandonLate_evolves {s0 : State} {a1 : State} {a2} (h : Evolves s0 a1) : Evolves s0 (State.abandonLate a1 a2) := by
  unfold State.abandonLate
  repeat' first | with_reducible assumption | with_reducible apply State.abandonCmd_evolves | split | (simp only [Evolves.mk_iff]; apply Evolves.core) | dsimp only

theorem State.writesDone_evolves {s0 : State} {a1 : State} {a2} {a3} (h : Evolves s0 a1) : Evolves s0 (State.writesDone a1 a2 a3).2 := by
  unfold State.writesDone
  repeat' first | with_reducible assumption | with_reducible apply State.issueWants_evolves | with_reducible apply State.modRing_evolves | with_reducible apply State.modCmd_evolves | with_reducible apply Evolves.foldl | with_reducible apply Evolves.foldl_snd | split | (simp only [Evolves.mk_iff]; apply Evolves.core) | (intro _) | dsimp only

theorem State.landDump_evolves {s0 : State} {a1 : State} {a2} {a3} (h : Evolves s0 a1) : Evolves s0 (State.landDump a1 a2 a3) := by
  unfold State.landDump
  repeat' first | with_reducible assumption | with_reducible apply State.draw_evolves | with_reducible apply State.ownWrite_evolves | with_reducible apply State.mark_evolves | split | (simp only [Evolves.mk_iff]; apply Evolves.core) | (intro _) | (refine Evolves.snd_of (by assumption) ?_) | dsimp only

theorem State.releaseCmd_evolves {s0 : State} {a1 : State} {a2} {a3} (h : Evolves s0 a1) : Evolves s0 (State.releaseCmd a1 a2 a3) := by
  unfold State.releaseCmd
  repeat' first | with_reducible assumption | with_reducible apply State.unbindIndex_evolves | with_reducible apply State.unbindTable_evolves | with_reducible apply State.kvRelease_evolves | with_reducible apply State.collDone_evolves | with_reducible apply State.grpNote_evolves | with_reducible apply State.reapVersions_evolves | with_reducible apply State.grpDrained_evolves | with_reducible apply State.modRing_evolves | split | (simp only [Evolves.mk_iff]; apply Evolves.core) | (intro _) | dsimp only

theorem State.writeRecord_evolves {s0 : State} {a1 : State} {a2} (h : Evolves s0 a1) : Evolves s0 (State.writeRecord a1 a2) := by
  unfold State.writeRecord
  repeat' first | with_reducible assumption | with_reducible apply State.pageGone_evolves | with_reducible apply State.landDump_evolves | with_reducible apply State.draw_evolves | with_reducible apply State.ownWrite_evolves | with_reducible apply State.modRing_evolves | with_reducible apply State.sendMsix_evolves | with_reducible apply State.bumpCount_evolves | with_reducible apply State.bumpMeter_evolves | with_reducible apply State.mark_evolves | with_reducible apply State.releaseCmd_evolves | with_reducible apply Evolves.foldl | with_reducible apply Evolves.foldl_snd | split | (simp only [Evolves.mk_iff]; apply Evolves.core) | (intro _) | (refine Evolves.snd_of (by assumption) ?_) | dsimp only

theorem State.applySignal_evolves {s0 : State} {a1 : State} {a2} {a3} (h : Evolves s0 a1) : Evolves s0 (State.applySignal a1 a2 a3) := by
  unfold State.applySignal
  repeat' first | with_reducible assumption | with_reducible apply State.modCmd_evolves | with_reducible apply State.dropWrite_evolves | with_reducible apply State.localFlag_evolves | with_reducible apply State.remoteFlag_evolves | split | (simp only [Evolves.mk_iff]; apply Evolves.core) | (intro _) | (refine Evolves.snd_of (by assumption) ?_) | dsimp only

theorem State.completeCmd_evolves {s0 : State} {a1} {a2} {a3 : State} (h : Evolves s0 a3) : Evolves s0 (State.completeCmd a1 a2 a3) := by
  induction a2 generalizing a3 with
  | zero =>
    unfold State.completeCmd
    repeat' first | with_reducible assumption | with_reducible apply Work.giveBack_evolves | with_reducible apply State.giveBack_evolves | with_reducible apply State.writesDone_evolves | with_reducible apply State.writeRecord_evolves | with_reducible apply State.applySignal_evolves | split | (simp only [Evolves.mk_iff]; apply Evolves.core) | (intro _) | (refine Evolves.snd_of (by assumption) ?_) | dsimp only
  | succ n ih =>
    unfold State.completeCmd
    repeat' first | with_reducible assumption | with_reducible apply ih | with_reducible apply Work.giveBack_evolves | with_reducible apply State.giveBack_evolves | with_reducible apply State.writesDone_evolves | with_reducible apply State.writeRecord_evolves | with_reducible apply State.applySignal_evolves | split | (simp only [Evolves.mk_iff]; apply Evolves.core) | (intro _) | (refine Evolves.snd_of (by assumption) ?_) | dsimp only

theorem State.vectorControl_evolves {s0 : State} {a1 : State} {a2} {a3} {a4} (h : Evolves s0 a1) : Evolves s0 (State.vectorControl a1 a2 a3 a4) := by
  unfold State.vectorControl
  repeat' first | with_reducible assumption | with_reducible apply State.sendMsix_evolves | split | (simp only [Evolves.mk_iff]; apply Evolves.core) | dsimp only

end Sys2Proof.Machine
end

