-- ==== Sys2Proof/Laws/EvolveRemoteEnd.lean ====
section
/-! SUPPORT. No operation of `Machine/RemoteEnd.lean` does what no command may do (`Evolves`). -/

namespace Sys2Proof.Machine

set_option linter.all false

theorem State.putPiece_evolves {s0 : State} {a1 : State} {a2} {a3} {a4} {a5} (h : Evolves s0 a1) : Evolves s0 (State.putPiece a1 a2 a3 a4 a5) := by
  unfold State.putPiece
  repeat' first | with_reducible assumption | with_reducible apply State.modPage_evolves | with_reducible apply State.ownWrite_evolves | (simp only [Evolves.mk_iff]; apply Evolves.core) | (intro _) | dsimp only

theorem State.fillArrives_evolves {s0 : State} {a1 : State} {a2} {a3} {a4} {a5} (h : Evolves s0 a1) : Evolves s0 (State.fillArrives a1 a2 a3 a4 a5) := by
  unfold State.fillArrives
  repeat' first | with_reducible assumption | with_reducible apply State.pumpFaults_evolves | with_reducible apply State.fillFails_evolves | with_reducible apply State.putPiece_evolves | with_reducible apply State.modPage_evolves | split | (simp only [Evolves.mk_iff]; apply Evolves.core) | (intro _) | dsimp only

theorem State.pageFilled_evolves {s0 : State} {a1 : State} {a2} (h : Evolves s0 a1) : Evolves s0 (State.pageFilled a1 a2) := by
  unfold State.pageFilled
  repeat' first | with_reducible assumption | with_reducible apply State.pumpFaults_evolves | with_reducible apply State.modPage_evolves | split | (simp only [Evolves.mk_iff]; apply Evolves.core) | (intro _) | dsimp only

theorem State.remoteFault_evolves {s0 : State} {a1 : State} {a2} (h : Evolves s0 a1) : Evolves s0 (State.remoteFault a1 a2) := by
  unfold State.remoteFault
  repeat' first | with_reducible assumption | with_reducible apply State.alarm_evolves | with_reducible apply State.memberFault_evolves | split | (simp only [Evolves.mk_iff]; apply Evolves.core) | dsimp only

theorem State.targetAnswers_evolves {s0 : State} {a1 : State} {a2} (h : Evolves s0 a1) : Evolves s0 (State.targetAnswers a1 a2) := by
  unfold State.targetAnswers
  repeat' first | with_reducible assumption | with_reducible apply State.alarmEnd_evolves | split | (simp only [Evolves.mk_iff]; apply Evolves.core) | dsimp only

theorem State.writeFails_evolves {s0 : State} {a1 : State} {a2} {a3} (h : Evolves s0 a1) : Evolves s0 (State.writeFails a1 a2 a3) := by
  unfold State.writeFails
  repeat' first | with_reducible assumption | with_reducible apply State.modCmd_evolves | with_reducible apply State.modRing_evolves | split | (simp only [Evolves.mk_iff]; apply Evolves.core) | (intro _) | dsimp only

theorem State.writeEnds_evolves {s0 : State} {a1 : State} {a2} {a3} (h : Evolves s0 a1) : Evolves s0 (State.writeEnds a1 a2 a3) := by
  unfold State.writeEnds
  repeat' first | with_reducible assumption | with_reducible apply State.modCmd_evolves | split | (simp only [Evolves.mk_iff]; apply Evolves.core) | (intro _) | dsimp only

theorem State.beginSync_evolves {s0 : State} {a1 : State} {a2} (h : Evolves s0 a1) : Evolves s0 (State.beginSync a1 a2) := by
  unfold State.beginSync
  repeat' first | with_reducible assumption | with_reducible apply State.startPeerSync_evolves | with_reducible apply State.remoteFault_evolves | split | dsimp only

theorem State.flagEnds_evolves {s0 : State} {a1 : State} {a2} {a3} {a4} (h : Evolves s0 a1) : Evolves s0 (State.flagEnds a1 a2 a3 a4) := by
  unfold State.flagEnds
  repeat' first | with_reducible assumption | with_reducible apply State.setPeer_evolves | with_reducible apply State.beginSync_evolves | split | (simp only [Evolves.mk_iff]; apply Evolves.core) | dsimp only

theorem State.peerSyncEnds_evolves {s0 : State} {a1 : State} {a2} {a3} (h : Evolves s0 a1) : Evolves s0 (State.peerSyncEnds a1 a2 a3) := by
  unfold State.peerSyncEnds
  repeat' first | with_reducible assumption | with_reducible apply State.setPeer_evolves | with_reducible apply State.beginSync_evolves | with_reducible apply State.remoteFault_evolves | split | (simp only [Evolves.mk_iff]; apply Evolves.core) | dsimp only

theorem State.writeLands_evolves {s0 : State} {a1 : State} {a2} {a3} (h : Evolves s0 a1) : Evolves s0 (State.writeLands a1 a2 a3) := by
  unfold State.writeLands
  repeat' first | with_reducible assumption | with_reducible apply State.landNow_evolves | with_reducible apply State.completeLanded_evolves | with_reducible apply State.writeEnds_evolves | with_reducible apply Evolves.foldl | with_reducible apply Evolves.foldl_snd | split | (simp only [Evolves.mk_iff]; apply Evolves.core) | (intro _) | dsimp only

theorem State.mirrorServe_evolves {s0 : State} {a1 : State} {a2} {a3} (h : Evolves s0 a1) : Evolves s0 (State.mirrorServe a1 a2 a3) := by
  unfold State.mirrorServe
  repeat' first | with_reducible assumption | with_reducible apply State.writeLands_evolves | with_reducible apply State.landHere_evolves | with_reducible apply State.respond_evolves | split | (simp only [Evolves.mk_iff]; apply Evolves.core) | dsimp only

theorem State.mirrorReadEnds_evolves {s0 : State} {a1 : State} {a2} {a3} {a4} {a5} (h : Evolves s0 a1) : Evolves s0 (State.mirrorReadEnds a1 a2 a3 a4 a5) := by
  unfold State.mirrorReadEnds
  repeat' first | with_reducible assumption | with_reducible apply State.mirrorRepair_evolves | with_reducible apply State.partnerLost_evolves | with_reducible apply State.mirrorServe_evolves | with_reducible apply State.ackConflicts_evolves | with_reducible apply Evolves.foldl | split | (simp only [Evolves.mk_iff]; apply Evolves.core) | (intro _) | dsimp only

theorem State.endRemote_evolves {s0 : State} {a1 : State} {a2} {a3} {a4} {a5} (h : Evolves s0 a1) : Evolves s0 (State.endRemote a1 a2 a3 a4 a5) := by
  unfold State.endRemote
  repeat' first | with_reducible assumption | with_reducible apply State.degrade_evolves | with_reducible apply State.finishOwed_evolves | with_reducible apply State.writeEnds_evolves | with_reducible apply State.mirrorReadEnds_evolves | with_reducible apply State.resyncAcked_evolves | with_reducible apply State.enterResync_evolves | with_reducible apply State.modCmd_evolves | with_reducible apply State.writeFails_evolves | with_reducible apply State.flagEnds_evolves | with_reducible apply State.abandonCmd_evolves | with_reducible apply State.peerSyncEnds_evolves | with_reducible apply State.fillArrives_evolves | split | (simp only [Evolves.mk_iff]; apply Evolves.core) | (intro _) | dsimp only

theorem State.remoteReturns_evolves {s0 : State} {a1 : State} {a2} {a3} {a4} (h : Evolves s0 a1) : Evolves s0 (State.remoteReturns a1 a2 a3 a4) := by
  unfold State.remoteReturns
  repeat' first | with_reducible assumption | with_reducible apply State.pump_evolves | with_reducible apply State.endRemote_evolves | with_reducible apply State.targetAnswers_evolves | with_reducible apply State.bump_evolves | split | (simp only [Evolves.mk_iff]; apply Evolves.core) | dsimp only

theorem State.remoteExpires_evolves {s0 : State} {a1 : State} {a2} (h : Evolves s0 a1) : Evolves s0 (State.remoteExpires a1 a2) := by
  unfold State.remoteExpires
  repeat' first | with_reducible assumption | with_reducible apply State.pump_evolves | with_reducible apply State.endRemote_evolves | with_reducible apply State.remoteFault_evolves | split | (simp only [Evolves.mk_iff]; apply Evolves.core) | dsimp only

end Sys2Proof.Machine
end

