-- ==== Sys2Proof/Laws/EvolveExtents.lean ====
section
/-! SUPPORT. No operation of `Machine/Extents.lean` does what no command may do (`Evolves`). -/

namespace Sys2Proof.Machine

set_option linter.all false

theorem State.modExt_evolves {s0 : State} {a1 : State} {a2} {a3} (h : Evolves s0 a1) : Evolves s0 (State.modExt a1 a2 a3) := by
  unfold State.modExt
  repeat' first | with_reducible assumption | (simp only [Evolves.mk_iff]; apply Evolves.core) | dsimp only

theorem State.present_evolves {s0 : State} {a1 : State} {a2} {a3} (h : Evolves s0 a1) : Evolves s0 (State.present a1 a2 a3) := by
  unfold State.present
  repeat' first | with_reducible assumption | with_reducible apply State.emit_evolves | with_reducible apply State.modExt_evolves | split | (simp only [Evolves.mk_iff]; apply Evolves.core) | (intro _) | dsimp only

theorem State.postDeferred_evolves {s0 : State} {a1 : State} {a2} (h : Evolves s0 a1) : Evolves s0 (State.postDeferred a1 a2) := by
  unfold State.postDeferred
  repeat' first | with_reducible assumption | with_reducible apply State.present_evolves | with_reducible apply Evolves.foldl | split | (simp only [Evolves.mk_iff]; apply Evolves.core) | (intro _) | dsimp only

theorem State.unpresent_evolves {s0 : State} {a1 : State} {a2} {a3} {a4} (h : Evolves s0 a1) : Evolves s0 (State.unpresent a1 a2 a3 a4) := by
  unfold State.unpresent
  repeat' first | with_reducible assumption | with_reducible apply State.modExt_evolves | with_reducible apply State.postDeferred_evolves | with_reducible apply State.emit_evolves | split | (simp only [Evolves.mk_iff]; apply Evolves.core) | (intro _) | dsimp only

theorem State.moveExt_evolves {s0 : State} {a1 : State} {a2} {a3} (h : Evolves s0 a1) : Evolves s0 (State.moveExt a1 a2 a3) := by
  unfold State.moveExt
  repeat' first | with_reducible assumption | with_reducible apply State.logAt_evolves | with_reducible apply State.modExt_evolves | split | (simp only [Evolves.mk_iff]; apply Evolves.core) | (intro _) | dsimp only

theorem State.createExt_evolves {s0 : State} {a1 : State} {a2} {a3} (h : Evolves s0 a1) : Evolves s0 (State.createExt a1 a2 a3) := by
  unfold State.createExt
  repeat' first | with_reducible assumption | with_reducible apply State.moveExt_evolves | with_reducible apply State.present_evolves | with_reducible apply Evolves.foldl | split | (simp only [Evolves.mk_iff]; apply Evolves.core) | (intro _) | dsimp only

theorem State.stopCmds_evolves {s0 : State} {a1 : State} {a2} (h : Evolves s0 a1) : Evolves s0 (State.stopCmds a1 a2) := by
  unfold State.stopCmds
  repeat' first | with_reducible assumption | split | (simp only [Evolves.mk_iff]; apply Evolves.core) | (intro _) | dsimp only

theorem State.losePages_evolves {s0 : State} {a1 : State} {a2} {a3} (h : Evolves s0 a1) : Evolves s0 (State.losePages a1 a2 a3) := by
  unfold State.losePages
  repeat' first | with_reducible assumption | with_reducible apply State.logAt_evolves | with_reducible apply State.pumpFaults_evolves | with_reducible apply State.stopCmds_evolves | with_reducible apply Evolves.foldl | (simp only [Evolves.mk_iff]; apply Evolves.core) | (intro _) | dsimp only

theorem State.startDraining_evolves {s0 : State} {a1 : State} {a2} (h : Evolves s0 a1) : Evolves s0 (State.startDraining a1 a2) := by
  unfold State.startDraining
  repeat' first | with_reducible assumption | with_reducible apply State.moveExt_evolves | with_reducible apply State.modExt_evolves | with_reducible apply State.mirrorAlarmEnd_evolves | with_reducible apply State.revokeFlags_evolves | with_reducible apply State.ringError_evolves | with_reducible apply State.dropRows_evolves | with_reducible apply State.killIndexes_evolves | with_reducible apply State.killVersions_evolves | with_reducible apply State.losePages_evolves | with_reducible apply State.stopCmds_evolves | with_reducible apply Evolves.foldl | split | (simp only [Evolves.mk_iff]; apply Evolves.core) | (intro _) | dsimp only

theorem State.dropComp_evolves {s0 : State} {a1 : State} {a2} (h : Evolves s0 a1) : Evolves s0 (State.dropComp a1 a2) := by
  unfold State.dropComp
  repeat' first | with_reducible assumption | (simp only [Evolves.mk_iff]; apply Evolves.core) | (intro _) | dsimp only

theorem State.freeExt_evolves {s0 : State} {a1 : State} {a2} (h : Evolves s0 a1) : Evolves s0 (State.freeExt a1 a2) := by
  unfold State.freeExt
  repeat' first | with_reducible assumption | with_reducible apply State.moveExt_evolves | with_reducible apply State.modExt_evolves | (intro _) | dsimp only

theorem State.endRebuilds_evolves {s0 : State} {a1 : State} {a2} (h : Evolves s0 a1) : Evolves s0 (State.endRebuilds a1 a2) := by
  unfold State.endRebuilds
  repeat' first | with_reducible assumption | with_reducible apply State.retireRegion_evolves | with_reducible apply Evolves.foldl | (intro _) | dsimp only

theorem State.extDrained_evolves {s0 : State} {a1 : State} {a2} (h : Evolves s0 a1) : Evolves s0 (State.extDrained a1 a2) := by
  unfold State.extDrained
  repeat' first | with_reducible assumption | with_reducible apply State.raiseEvent_evolves | with_reducible apply State.moveExt_evolves | with_reducible apply State.unpresent_evolves | with_reducible apply State.endRebuilds_evolves | with_reducible apply State.dropComp_evolves | with_reducible apply State.freeExt_evolves | with_reducible apply Evolves.foldl | split | (simp only [Evolves.mk_iff]; apply Evolves.core) | (intro _) | dsimp only

theorem State.zeroUnits_evolves {s0 : State} {a1 : State} {a2} {a3} (h : Evolves s0 a1) : Evolves s0 (State.zeroUnits a1 a2 a3) := by
  unfold State.zeroUnits
  repeat' first | with_reducible assumption | with_reducible apply State.zeroChans_evolves | (simp only [Evolves.mk_iff]; refine Evolves.core_mem ?_ (fun x => Memory.wf_filter _ x)) | (simp only [Evolves.mk_iff]; apply Evolves.core) | (intro _) | dsimp only

theorem State.scrubExt_evolves {s0 : State} {a1 : State} {a2} {a3} (h : Evolves s0 a1) : Evolves s0 (State.scrubExt a1 a2 a3) := by
  unfold State.scrubExt
  repeat' first | with_reducible assumption | with_reducible apply State.startRetire_evolves | with_reducible apply State.zeroUnits_evolves | with_reducible apply State.modExt_evolves | with_reducible apply State.evictLine_evolves | with_reducible apply State.freeExt_evolves | with_reducible apply Evolves.foldl | split | (simp only [Evolves.mk_iff]; apply Evolves.core) | (intro _) | dsimp only

theorem State.shareZeroed_evolves {s0 : State} {a1 : State} {a2} (h : Evolves s0 a1) : Evolves s0 (State.shareZeroed a1 a2) := by
  unfold State.shareZeroed
  repeat' first | with_reducible assumption | with_reducible apply State.freeExt_evolves | with_reducible apply State.zeroUnits_evolves | split | (simp only [Evolves.mk_iff]; apply Evolves.core) | dsimp only

theorem State.changeAcl_evolves {s0 : State} {a1 : State} {a2} {a3} {a4} (h : Evolves s0 a1) : Evolves s0 (State.changeAcl a1 a2 a3 a4) := by
  unfold State.changeAcl
  repeat' first | with_reducible assumption | with_reducible apply State.modExt_evolves | with_reducible apply State.unpresent_evolves | with_reducible apply State.present_evolves | with_reducible apply Evolves.foldl | split | (simp only [Evolves.mk_iff]; apply Evolves.core) | (intro _) | dsimp only

theorem State.releaseCapacity_evolves {s0 : State} {a1 : State} {a2} {a3} {a4} {a5} (h : Evolves s0 a1) : Evolves s0 (State.releaseCapacity a1 a2 a3 a4 a5) := by
  unfold State.releaseCapacity
  repeat' first | with_reducible assumption | with_reducible apply State.emit_evolves | with_reducible apply State.changeAcl_evolves | with_reducible apply State.startDraining_evolves | split | (simp only [Evolves.mk_iff]; apply Evolves.core) | (intro _) | dsimp only

theorem State.applyAdr_evolves {s0 : State} {a1 : State} {a2} (h : Evolves s0 a1) : Evolves s0 (State.applyAdr a1 a2) := by
  unfold State.applyAdr
  repeat' first | with_reducible assumption | with_reducible apply State.decide__evolves | with_reducible apply State.bumpMeter_evolves | with_reducible apply State.createExt_evolves | with_reducible apply State.startDraining_evolves | with_reducible apply State.changeAcl_evolves | split | (simp only [Evolves.mk_iff]; apply Evolves.core) | (intro _) | dsimp only

end Sys2Proof.Machine
end

