-- ==== Sys2Proof/Laws/EvolveCompositions.lean ====
section
/-! SUPPORT. No operation of `Machine/Compositions.lean` does what no command may do (`Evolves`). -/

namespace Sys2Proof.Machine

set_option linter.all false

theorem State.settleOverq_evolves {s0 : State} {a1 : State} (h : Evolves s0 a1) : Evolves s0 (State.settleOverq a1) := by
  unfold State.settleOverq
  repeat' first | with_reducible assumption | with_reducible apply State.modComp_evolves | with_reducible apply Evolves.foldl | (simp only [Evolves.mk_iff]; apply Evolves.core) | (intro _) | dsimp only

theorem State.cutQuotas_evolves {s0 : State} {a1 : State} {a2} {a3} (h : Evolves s0 a1) : Evolves s0 (State.cutQuotas a1 a2 a3) := by
  unfold State.cutQuotas
  repeat' first | with_reducible assumption | with_reducible apply State.modComp_evolves | with_reducible apply Evolves.foldl | split | (simp only [Evolves.mk_iff]; apply Evolves.core) | (intro _) | dsimp only

theorem State.writePage_evolves {s0 : State} {a1 : State} {a2} {a3} (h : Evolves s0 a1) : Evolves s0 (State.writePage a1 a2 a3) := by
  unfold State.writePage
  repeat' first | with_reducible assumption | with_reducible apply State.ownWrite_evolves | split | dsimp only

theorem State.meterPageWrite_evolves {s0 : State} {a1 : State} {a2} {a3} (h : Evolves s0 a1) : Evolves s0 (State.meterPageWrite a1 a2 a3) := by
  unfold State.meterPageWrite
  repeat' first | with_reducible assumption | with_reducible apply State.writePage_evolves | (simp only [Evolves.mk_iff]; apply Evolves.core) | dsimp only

theorem State.countPageWrite_evolves {s0 : State} {a1 : State} {a2} {a3} (h : Evolves s0 a1) : Evolves s0 (State.countPageWrite a1 a2 a3) := by
  unfold State.countPageWrite
  repeat' first | with_reducible assumption | with_reducible apply State.writePage_evolves | (simp only [Evolves.mk_iff]; apply Evolves.core) | dsimp only

theorem State.setComp_evolves {s0 : State} {a1 : State} {a2} {a3} (h : Evolves s0 a1) : Evolves s0 (State.setComp a1 a2 a3) := by
  unfold State.setComp
  repeat' first | with_reducible assumption | with_reducible apply State.modComp_evolves | with_reducible apply State.cutQuotas_evolves | split | (simp only [Evolves.mk_iff]; apply Evolves.core) | (intro _) | dsimp only

theorem State.createComp_evolves {s0 : State} {a1 : State} {a2} {a3} (h : Evolves s0 a1) : Evolves s0 (State.createComp a1 a2 a3) := by
  unfold State.createComp
  repeat' first | with_reducible assumption | with_reducible apply State.setComp_evolves | (simp only [Evolves.mk_iff]; apply Evolves.core) | dsimp only

theorem State.deleteComp_evolves {s0 : State} {a1 : State} {a2} (h : Evolves s0 a1) : Evolves s0 (State.deleteComp a1 a2) := by
  unfold State.deleteComp
  repeat' first | with_reducible assumption | with_reducible apply State.dropComp_evolves | with_reducible apply State.meterPageWrite_evolves | (simp only [Evolves.mk_iff]; apply Evolves.core) | (intro _) | dsimp only

theorem State.applyCmp_evolves {s0 : State} {a1 : State} {a2} (h : Evolves s0 a1) : Evolves s0 (State.applyCmp a1 a2) := by
  unfold State.applyCmp
  repeat' first | with_reducible assumption | with_reducible apply State.decide__evolves | with_reducible apply State.createComp_evolves | with_reducible apply State.deleteComp_evolves | with_reducible apply State.setComp_evolves | split | (simp only [Evolves.mk_iff]; apply Evolves.core) | (intro _) | dsimp only

theorem State.quotaRecall_evolves {s0 : State} {a1 : State} {a2} {a3} (h : Evolves s0 a1) : Evolves s0 (State.quotaRecall a1 a2 a3) := by
  unfold State.quotaRecall
  repeat' first | with_reducible assumption | with_reducible apply State.evictLine_evolves | split | (simp only [Evolves.mk_iff]; apply Evolves.core) | dsimp only

theorem State.renewShares_evolves {s0 : State} {a1 : State} (h : Evolves s0 a1) : Evolves s0 (State.renewShares a1) := by
  unfold State.renewShares
  repeat' first | with_reducible assumption | (simp only [Evolves.mk_iff]; apply Evolves.core) | (intro _) | dsimp only

theorem State.syncMark_evolves {s0 : State} {a1 : State} {a2} {a3} (h : Evolves s0 a1) : Evolves s0 (State.syncMark a1 a2 a3) := by
  unfold State.syncMark
  repeat' first | with_reducible assumption | with_reducible apply State.mark_evolves | (simp only [Evolves.mk_iff]; apply Evolves.core) | dsimp only

theorem State.boundary_evolves {s0 : State} {a1 : State} (h : Evolves s0 a1) : Evolves s0 (State.boundary a1) := by
  unfold State.boundary
  repeat' first | with_reducible assumption | with_reducible apply State.renewShares_evolves | with_reducible apply State.countPageWrite_evolves | with_reducible apply State.meterPageWrite_evolves | with_reducible apply State.ageRows_evolves | with_reducible apply State.syncMark_evolves | with_reducible apply Evolves.foldl | split | (simp only [Evolves.mk_iff]; apply Evolves.core) | (intro _) | dsimp only

end Sys2Proof.Machine
end

