-- ==== Sys2Proof/Laws/EvolveCommits.lean ====
section
/-! SUPPORT. No operation of `Machine/Commits.lean` does what no command may do (`Evolves`). -/

namespace Sys2Proof.Machine

set_option linter.all false

theorem State.applyRegs_evolves {s0 : State} {a1 : State} {a2} {a3} {a4} {a5 : State → State} (hf : ∀ t, Evolves s0 t → Evolves s0 (a5 t)) (h : Evolves s0 a1) : Evolves s0 (State.applyRegs a1 a2 a3 a4 a5) := by
  unfold State.applyRegs
  repeat' first | with_reducible assumption | apply hf | with_reducible apply State.decide__evolves | with_reducible apply State.adopt_evolves | (intro _) | dsimp only

theorem State.applyCtl_evolves {s0 : State} {a1 : State} {a2} (h : Evolves s0 a1) : Evolves s0 (State.applyCtl a1 a2) := by
  unfold State.applyCtl
  repeat' first | with_reducible assumption | with_reducible apply State.applyRegs_evolves | with_reducible apply State.raiseEvent_evolves | split | (intro _) | dsimp only

theorem State.applyCoh_evolves {s0 : State} {a1 : State} {a2} (h : Evolves s0 a1) : Evolves s0 (State.applyCoh a1 a2) := by
  unfold State.applyCoh
  repeat' first | with_reducible assumption | with_reducible apply State.applyRegs_evolves | (intro _) | dsimp only

theorem State.ceReached_evolves {s0 : State} {a1 : State} {a2} (h : Evolves s0 a1) : Evolves s0 (State.ceReached a1 a2) := by
  unfold State.ceReached
  repeat' first | with_reducible assumption | with_reducible apply State.alarm_evolves | with_reducible apply State.startRetire_evolves | split | (simp only [Evolves.mk_iff]; apply Evolves.core) | dsimp only

theorem State.cutCeLimit_evolves {s0 : State} {a1 : State} {a2} (h : Evolves s0 a1) : Evolves s0 (State.cutCeLimit a1 a2) := by
  unfold State.cutCeLimit
  repeat' first | with_reducible assumption | with_reducible apply State.ceReached_evolves | with_reducible apply Evolves.foldl | (intro _) | dsimp only

theorem State.applyMed_evolves {s0 : State} {a1 : State} {a2} (h : Evolves s0 a1) : Evolves s0 (State.applyMed a1 a2) := by
  unfold State.applyMed
  repeat' first | with_reducible assumption | with_reducible apply State.applyRegs_evolves | with_reducible apply State.cutCeLimit_evolves | split | (simp only [Evolves.mk_iff]; apply Evolves.core) | (intro _) | dsimp only

theorem State.setCtx_evolves {s0 : State} {a1 : State} {a2} {a3} (h : Evolves s0 a1) : Evolves s0 (State.setCtx a1 a2 a3) := by
  unfold State.setCtx
  repeat' first | with_reducible assumption | split | (simp only [Evolves.mk_iff]; apply Evolves.core) | (intro _) | dsimp only

theorem State.applyEng_evolves {s0 : State} {a1 : State} {a2} (h : Evolves s0 a1) : Evolves s0 (State.applyEng a1 a2) := by
  unfold State.applyEng
  repeat' first | with_reducible assumption | with_reducible apply State.applyRegs_evolves | with_reducible apply State.setCtx_evolves | with_reducible apply State.dropRows_evolves | split | (intro _) | dsimp only

theorem State.applyTim_evolves {s0 : State} {a1 : State} {a2} (h : Evolves s0 a1) : Evolves s0 (State.applyTim a1 a2) := by
  unfold State.applyTim
  repeat' first | with_reducible assumption | with_reducible apply State.applyRegs_evolves | (simp only [Evolves.mk_iff]; apply Evolves.core) | (intro _) | dsimp only

theorem State.applyPwr_evolves {s0 : State} {a1 : State} {a2} (h : Evolves s0 a1) : Evolves s0 (State.applyPwr a1 a2) := by
  unfold State.applyPwr
  repeat' first | with_reducible assumption | with_reducible apply State.applyRegs_evolves | (intro _) | dsimp only

theorem State.traceChanged_evolves {s0 : State} {a1 : State} {a2} {a3} (h : Evolves s0 a1) : Evolves s0 (State.traceChanged a1 a2 a3) := by
  unfold State.traceChanged
  repeat' first | with_reducible assumption | split | (simp only [Evolves.mk_iff]; apply Evolves.core) | (intro _) | dsimp only

theorem State.recRingsChanged_evolves {s0 : State} {a1 : State} {a2} {a3} (h : Evolves s0 a1) : Evolves s0 (State.recRingsChanged a1 a2 a3) := by
  unfold State.recRingsChanged
  repeat' first | with_reducible assumption | split | (simp only [Evolves.mk_iff]; apply Evolves.core) | dsimp only

theorem State.applyObs_evolves {s0 : State} {a1 : State} {a2} (h : Evolves s0 a1) : Evolves s0 (State.applyObs a1 a2) := by
  unfold State.applyObs
  repeat' first | with_reducible assumption | with_reducible apply State.applyRegs_evolves | with_reducible apply State.updateAlert_evolves | with_reducible apply State.flushAlarms_evolves | with_reducible apply State.flushLog_evolves | with_reducible apply State.recRingsChanged_evolves | with_reducible apply State.traceChanged_evolves | (intro _) | dsimp only

theorem State.applySec_evolves {s0 : State} {a1 : State} {a2} (h : Evolves s0 a1) : Evolves s0 (State.applySec a1 a2) := by
  unfold State.applySec
  repeat' first | with_reducible assumption | with_reducible apply State.applyRegs_evolves | (intro _) | dsimp only

theorem State.markReroutes_evolves {s0 : State} {a1 : State} {a2} (h : Evolves s0 a1) : Evolves s0 (State.markReroutes a1 a2) := by
  unfold State.markReroutes
  repeat' first | with_reducible assumption | with_reducible apply State.setPeer_evolves | with_reducible apply Evolves.foldl | split | (simp only [Evolves.mk_iff]; apply Evolves.core) | (intro _) | dsimp only

theorem State.applyHed_evolves {s0 : State} {a1 : State} {a2} {a3} (h : Evolves s0 a1) : Evolves s0 (State.applyHed a1 a2 a3) := by
  unfold State.applyHed
  repeat' first | with_reducible assumption | with_reducible apply State.applyRegs_evolves | with_reducible apply State.postDeferred_evolves | with_reducible apply State.pump_evolves | with_reducible apply State.retrySyncs_evolves | with_reducible apply State.markReroutes_evolves | split | (intro _) | dsimp only

theorem State.commitStep_evolves {s0 : State} {a1 : State} {a2} {a3 : State → Frame → State} (hf : ∀ t f, Evolves s0 t → Evolves s0 (a3 t f)) (h : Evolves s0 a1) : Evolves s0 (State.commitStep a1 a2 a3) := by
  unfold State.commitStep
  repeat' first | with_reducible assumption | apply hf | split | (simp only [Evolves.mk_iff]; apply Evolves.core) | (intro _) | (refine State.takeFrame_evolves (by assumption) ?_) | dsimp only

end Sys2Proof.Machine
end

