-- ==== Sys2Proof/Laws/EvolveRegisters.lean ====
section
/-! SUPPORT. No operation of `Machine/Registers.lean` does what no command may do (`Evolves`). -/

namespace Sys2Proof.Machine

set_option linter.all false

theorem State.stage_evolves {s0 : State} {a1 : State} {a2} {a3} (h : Evolves s0 a1) : Evolves s0 (State.stage a1 a2 a3) := by
  unfold State.stage
  repeat' first | with_reducible assumption | (simp only [Evolves.mk_iff]; apply Evolves.core) | dsimp only

theorem State.loadWord_evolves {s0 : State} {a1 : State} {a2} (h : Evolves s0 a1) : Evolves s0 (State.loadWord a1 a2) := by
  unfold State.loadWord
  repeat' first | with_reducible assumption | with_reducible apply State.stage_evolves | dsimp only

theorem State.select_evolves {s0 : State} {a1 : State} {a2} {a3} (h : Evolves s0 a1) : Evolves s0 (State.select a1 a2 a3) := by
  unfold State.select
  repeat' first | with_reducible assumption | with_reducible apply State.loadWord_evolves | with_reducible apply Evolves.foldl | (simp only [Evolves.mk_iff]; apply Evolves.core) | (intro _) | dsimp only

theorem State.stageWord_evolves {s0 : State} {a1 : State} {a2} {a3} {a4} (h : Evolves s0 a1) : Evolves s0 (State.stageWord a1 a2 a3 a4) := by
  unfold State.stageWord
  repeat' first | with_reducible assumption | with_reducible apply State.stage_evolves | dsimp only

theorem State.clearSetup_evolves {s0 : State} {a1 : State} {a2} (h : Evolves s0 a1) : Evolves s0 (State.clearSetup a1 a2) := by
  unfold State.clearSetup
  repeat' first | with_reducible assumption | (simp only [Evolves.mk_iff]; apply Evolves.core) | dsimp only

theorem State.landPointer_evolves {s0 : State} {a1 : State} {a2} {a3} (h : Evolves s0 a1) : Evolves s0 (State.landPointer a1 a2 a3) := by
  unfold State.landPointer
  repeat' first | with_reducible assumption | with_reducible apply State.flushEvents_evolves | with_reducible apply State.flushLog_evolves | with_reducible apply State.flushAlarms_evolves | split | (simp only [Evolves.mk_iff]; apply Evolves.core) | dsimp only

theorem State.selectL2_evolves {s0 : State} {a1 : State} {a2} (h : Evolves s0 a1) : Evolves s0 (State.selectL2 a1 a2) := by
  unfold State.selectL2
  repeat' first | with_reducible assumption | (simp only [Evolves.mk_iff]; apply Evolves.core) | dsimp only

theorem State.clearTrip_evolves {s0 : State} {a1 : State} {a2} (h : Evolves s0 a1) : Evolves s0 (State.clearTrip a1 a2) := by
  unfold State.clearTrip
  repeat' first | with_reducible assumption | split | (simp only [Evolves.mk_iff]; apply Evolves.core) | dsimp only

theorem State.landWord_evolves {s0 : State} {a1 : State} {a2} {a3} {a4} (h : Evolves s0 a1) : Evolves s0 (State.landWord a1 a2 a3 a4) := by
  unfold State.landWord
  repeat' first | with_reducible assumption | with_reducible apply State.stageWord_evolves | with_reducible apply State.clearSetup_evolves | with_reducible apply State.selectL2_evolves | with_reducible apply State.clearTrip_evolves | with_reducible apply State.landPointer_evolves | split | dsimp only

theorem State.msixWrite_evolves {s0 : State} {a1 : State} {a2} {a3} {a4} {a5} (h : Evolves s0 a1) : Evolves s0 (State.msixWrite a1 a2 a3 a4 a5) := by
  unfold State.msixWrite
  repeat' first | with_reducible assumption | with_reducible apply State.vectorControl_evolves | split | (simp only [Evolves.mk_iff]; apply Evolves.core) | dsimp only

theorem State.cxlWrite_evolves {s0 : State} {a1 : State} {a2} {a3} {a4} {a5} (h : Evolves s0 a1) : Evolves s0 (State.cxlWrite a1 a2 a3 a4 a5) := by
  unfold State.cxlWrite
  repeat' first | with_reducible assumption | with_reducible apply State.modHead_evolves | split | (simp only [Evolves.mk_iff]; apply Evolves.core) | (intro _) | dsimp only

theorem State.regWrite_evolves {s0 : State} {a1 : State} {a2} {a3} {a4} {a5} {a6} (h : Evolves s0 a1) : Evolves s0 (State.regWrite a1 a2 a3 a4 a5 a6) := by
  unfold State.regWrite
  repeat' first | with_reducible assumption | with_reducible apply State.landSetup_evolves | with_reducible apply State.landWord_evolves | with_reducible apply State.msixWrite_evolves | with_reducible apply State.cxlWrite_evolves | split | dsimp only

end Sys2Proof.Machine
end

