-- ==== Sys2Proof/Laws/EvolveTime.lean ====
section
/-! SUPPORT. No operation of `Machine/Time.lean` does what no command may do (`Evolves`). -/

namespace Sys2Proof.Machine

set_option linter.all false

theorem State.alignInterval_evolves {s0 : State} {a1 : State} (h : Evolves s0 a1) : Evolves s0 (State.alignInterval a1) := by
  unfold State.alignInterval
  repeat' first | with_reducible assumption | split | (simp only [Evolves.mk_iff]; apply Evolves.core) | dsimp only

theorem State.stepTo_evolves {s0 : State} {a1 : State} {a2} {a3} (h : Evolves s0 a1) : Evolves s0 (State.stepTo a1 a2 a3) := by
  unfold State.stepTo
  repeat' first | with_reducible assumption | with_reducible apply State.alignInterval_evolves | with_reducible apply State.moveCounter_evolves | with_reducible apply State.logAt_evolves | split | (simp only [Evolves.mk_iff]; apply Evolves.core) | dsimp only

theorem State.loadTime_evolves {s0 : State} {a1 : State} {a2} (h : Evolves s0 a1) : Evolves s0 (State.loadTime a1 a2) := by
  unfold State.loadTime
  repeat' first | with_reducible assumption | with_reducible apply State.stepTo_evolves | (simp only [Evolves.mk_iff]; apply Evolves.core) | dsimp only

theorem State.itemTimeSet_evolves {s0 : State} {a1 : Work} {a2} (h : Evolves s0 a1.s) : Evolves s0 (State.itemTimeSet a1 a2).s := by
  unfold State.itemTimeSet
  repeat' first | with_reducible assumption | with_reducible apply State.loadTime_evolves | split | (simp only [Evolves.mk_iff]; apply Evolves.core) | dsimp only

theorem State.awaitPulse_evolves {s0 : State} {a1 : State} {a2} (h : Evolves s0 a1) : Evolves s0 (State.awaitPulse a1 a2) := by
  unfold State.awaitPulse
  repeat' first | with_reducible assumption | split | (simp only [Evolves.mk_iff]; apply Evolves.core) | dsimp only

theorem State.syncJump_evolves {s0 : State} {a1 : State} {a2} (h : Evolves s0 a1) : Evolves s0 (State.syncJump a1 a2) := by
  unfold State.syncJump
  repeat' first | with_reducible assumption | with_reducible apply State.alarm_evolves | dsimp only

theorem State.acceptPulse_evolves {s0 : State} {a1 : State} {a2} {a3} {a4} (h : Evolves s0 a1) : Evolves s0 (State.acceptPulse a1 a2 a3 a4) := by
  unfold State.acceptPulse
  repeat' first | with_reducible assumption | with_reducible apply State.alarmEnd_evolves | with_reducible apply State.loadTime_evolves | with_reducible apply State.finish_evolves | with_reducible apply State.modCmd_evolves | with_reducible apply State.stepTo_evolves | split | (simp only [Evolves.mk_iff]; apply Evolves.core) | (intro _) | dsimp only

theorem State.pulseArrives_evolves {s0 : State} {a1 : State} (h : Evolves s0 a1) : Evolves s0 (State.pulseArrives a1) := by
  unfold State.pulseArrives
  repeat' first | with_reducible assumption | with_reducible apply State.stepTo_evolves | with_reducible apply State.alarmEnd_evolves | with_reducible apply State.acceptPulse_evolves | with_reducible apply State.syncJump_evolves | split | (simp only [Evolves.mk_iff]; apply Evolves.core) | dsimp only

theorem State.pulseMissed_evolves {s0 : State} {a1 : State} (h : Evolves s0 a1) : Evolves s0 (State.pulseMissed a1) := by
  unfold State.pulseMissed
  repeat' first | with_reducible assumption | with_reducible apply State.alarm_evolves | split | (simp only [Evolves.mk_iff]; apply Evolves.core) | dsimp only

theorem State.plumbGone_evolves {s0 : State} {a1 : State} (h : Evolves s0 a1) : Evolves s0 (State.plumbGone a1) := by
  unfold State.plumbGone
  repeat' first | with_reducible assumption | with_reducible apply State.alarm_evolves | split | (simp only [Evolves.mk_iff]; apply Evolves.core) | dsimp only

theorem State.plumbBack_evolves {s0 : State} {a1 : State} (h : Evolves s0 a1) : Evolves s0 (State.plumbBack a1) := by
  unfold State.plumbBack
  repeat' first | with_reducible assumption | split | (simp only [Evolves.mk_iff]; apply Evolves.core) | dsimp only

theorem State.ptmExchange_evolves {s0 : State} {a1 : State} {a2} (h : Evolves s0 a1) : Evolves s0 (State.ptmExchange a1 a2) := by
  unfold State.ptmExchange
  repeat' first | with_reducible assumption | with_reducible apply State.stepTo_evolves | split | (simp only [Evolves.mk_iff]; apply Evolves.core) | dsimp only

theorem State.laneRead_evolves {s0 : State} {a1 : State} {a2} (h : Evolves s0 a1) : Evolves s0 (State.laneRead a1 a2) := by
  unfold State.laneRead
  repeat' first | with_reducible assumption | split | (simp only [Evolves.mk_iff]; apply Evolves.core) | dsimp only

end Sys2Proof.Machine
end

