-- ==== Sys2Proof/Laws/EvolvePower.lean ====
section
/-! SUPPORT. No operation of `Machine/Power.lean` does what no command may do (`Evolves`). -/

namespace Sys2Proof.Machine

set_option linter.all false

theorem State.chargeCmd_evolves {s0 : State} {a1 : State} {a2} {a3} (h : Evolves s0 a1) : Evolves s0 (State.chargeCmd a1 a2 a3) := by
  unfold State.chargeCmd
  repeat' first | with_reducible assumption | with_reducible apply State.bumpMeter_evolves | with_reducible apply State.modCmd_evolves | split | (simp only [Evolves.mk_iff]; apply Evolves.core) | (intro _) | dsimp only

theorem State.chargeRun_evolves {s0 : State} {a1 : State} {a2} {a3} {a4} (h : Evolves s0 a1) : Evolves s0 (State.chargeRun a1 a2 a3 a4) := by
  unfold State.chargeRun
  repeat' first | with_reducible assumption | with_reducible apply State.chargeCmd_evolves | with_reducible apply State.bumpMeter_evolves | split | dsimp only

theorem State.chargeSrc_evolves {s0 : State} {a1} {a2} (h : Evolves s0 a1.1) : Evolves s0 (State.chargeSrc a1 a2).1 := by
  unfold State.chargeSrc
  repeat' first | with_reducible assumption | with_reducible apply State.chargeRun_evolves | with_reducible apply Evolves.foldl | with_reducible apply Evolves.foldl_fst | (simp only [Evolves.mk_iff]; apply Evolves.core) | (intro _) | dsimp only

theorem State.chargeReq_evolves {s0 : State} {a1} {a2} {a3} (h : Evolves s0 a2.1) : Evolves s0 (State.chargeReq a1 a2 a3).1 := by
  unfold State.chargeReq
  repeat' first | with_reducible assumption | with_reducible apply State.bumpMeter_evolves | with_reducible apply State.chargeRun_evolves | split | dsimp only

theorem State.endCharges_evolves {s0 : State} {a1 : State} {a2} (h : Evolves s0 a1) : Evolves s0 (State.endCharges a1 a2) := by
  unfold State.endCharges
  repeat' first | with_reducible assumption | (simp only [Evolves.mk_iff]; apply Evolves.core) | dsimp only

theorem State.countDie_evolves {s0 : State} {a1} {a2 : State} {a3} (h : Evolves s0 a2) : Evolves s0 (State.countDie a1 a2 a3) := by
  unfold State.countDie
  repeat' first | with_reducible assumption | with_reducible apply State.bump_evolves | dsimp only

theorem State.chargeBoth_evolves {s0 : State} {a1 : State} {a2} (h : Evolves s0 a1) : Evolves s0 (State.chargeBoth a1 a2).1 := by
  unfold State.chargeBoth
  repeat' first | with_reducible assumption | with_reducible apply State.chargeReq_evolves | with_reducible apply State.chargeSrc_evolves | with_reducible apply Evolves.foldl | with_reducible apply Evolves.foldl_fst | (intro _) | dsimp only

theorem State.chargeAll_evolves {s0 : State} {a1 : State} {a2} (h : Evolves s0 a1) : Evolves s0 (State.chargeAll a1 a2).2 := by
  unfold State.chargeAll
  repeat' first | with_reducible assumption | with_reducible apply State.chargeBoth_evolves | with_reducible apply State.countDie_evolves | with_reducible apply State.endCharges_evolves | with_reducible apply State.bump_evolves | with_reducible apply Evolves.foldl | with_reducible apply Evolves.foldl_snd | with_reducible apply Evolves.foldl_fst | (intro _) | dsimp only

theorem State.memberAlarm_evolves {s0 : State} {a1 : State} {a2} {a3} {a4} {a5} {a6} (h : Evolves s0 a1) : Evolves s0 (State.memberAlarm a1 a2 a3 a4 a5 a6) := by
  unfold State.memberAlarm
  repeat' first | with_reducible assumption | with_reducible apply State.alarm_evolves | with_reducible apply State.alarmEnd_evolves | split | dsimp only

theorem State.setRail_evolves {s0 : State} {a1 : State} {a2} (h : Evolves s0 a1) : Evolves s0 (State.setRail a1 a2) := by
  unfold State.setRail
  repeat' first | with_reducible assumption | with_reducible apply State.memberAlarm_evolves | with_reducible apply State.modCourse_evolves | split | (simp only [Evolves.mk_iff]; apply Evolves.core) | (intro _) | dsimp only

theorem State.setPkg_evolves {s0 : State} {a1 : State} (h : Evolves s0 a1) : Evolves s0 (State.setPkg a1) := by
  unfold State.setPkg
  repeat' first | with_reducible assumption | with_reducible apply State.modCourse_evolves | with_reducible apply State.memberAlarm_evolves | with_reducible apply Evolves.foldl | (simp only [Evolves.mk_iff]; apply Evolves.core) | (intro _) | dsimp only

theorem State.settleLevels_evolves {s0 : State} {a1 : State} (h : Evolves s0 a1) : Evolves s0 (State.settleLevels a1) := by
  unfold State.settleLevels
  repeat' first | with_reducible assumption | with_reducible apply State.modCourse_evolves | with_reducible apply Evolves.foldl | split | (simp only [Evolves.mk_iff]; apply Evolves.core) | (intro _) | dsimp only

theorem State.noteLevels_evolves {s0 : State} {a1 : State} (h : Evolves s0 a1) : Evolves s0 (State.noteLevels a1) := by
  unfold State.noteLevels
  repeat' first | with_reducible assumption | with_reducible apply State.modCourse_evolves | with_reducible apply Evolves.foldl | (simp only [Evolves.mk_iff]; apply Evolves.core) | (intro _) | dsimp only

theorem State.followLevels_evolves {s0 : State} {a1 : State} (h : Evolves s0 a1) : Evolves s0 (State.followLevels a1) := by
  unfold State.followLevels
  repeat' first | with_reducible assumption | with_reducible apply State.modCourse_evolves | with_reducible apply Evolves.foldl | (simp only [Evolves.mk_iff]; apply Evolves.core) | (intro _) | dsimp only

theorem State.setBudget_evolves {s0 : State} {a1 : State} {a2} {a3} (h : Evolves s0 a1) : Evolves s0 (State.setBudget a1 a2 a3) := by
  unfold State.setBudget
  repeat' first | with_reducible assumption | with_reducible apply State.bumpMeter_evolves | with_reducible apply State.modComp_evolves | split | (simp only [Evolves.mk_iff]; apply Evolves.core) | (intro _) | dsimp only

theorem State.takeInterval_evolves {s0 : State} {a1 : State} {a2} (h : Evolves s0 a1) : Evolves s0 (State.takeInterval a1 a2) := by
  unfold State.takeInterval
  repeat' first | with_reducible assumption | with_reducible apply Evolves.foldl | (simp only [Evolves.mk_iff]; apply Evolves.core) | (intro _) | dsimp only

theorem State.setLevels_evolves {s0 : State} {a1 : State} (h : Evolves s0 a1) : Evolves s0 (State.setLevels a1) := by
  unfold State.setLevels
  repeat' first | with_reducible assumption | with_reducible apply State.settleLevels_evolves | with_reducible apply State.setPkg_evolves | with_reducible apply State.setRail_evolves | with_reducible apply Evolves.foldl | (intro _) | dsimp only

theorem State.chargeInterval_evolves {s0 : State} {a1 : State} {a2} (h : Evolves s0 a1) : Evolves s0 (State.chargeInterval a1 a2) := by
  unfold State.chargeInterval
  repeat' first | with_reducible assumption | with_reducible apply State.chargeAll_evolves | with_reducible apply State.setBudget_evolves | with_reducible apply Evolves.foldl | with_reducible apply Evolves.foldl_snd | (intro _) | dsimp only

theorem State.nextInterval_evolves {s0 : State} {a1 : State} (h : Evolves s0 a1) : Evolves s0 (State.nextInterval a1) := by
  unfold State.nextInterval
  repeat' first | with_reducible assumption | (simp only [Evolves.mk_iff]; apply Evolves.core) | dsimp only

theorem State.powerInterval_evolves {s0 : State} {a1 : State} {a2} (h : Evolves s0 a1) : Evolves s0 (State.powerInterval a1 a2) := by
  unfold State.powerInterval
  repeat' first | with_reducible assumption | with_reducible apply State.nextInterval_evolves | with_reducible apply State.followLevels_evolves | with_reducible apply State.chargeInterval_evolves | with_reducible apply State.takeInterval_evolves | with_reducible apply State.setLevels_evolves | with_reducible apply State.noteLevels_evolves | split | dsimp only

theorem State.pmbusRead_evolves {s0 : State} {a1 : State} {a2} (h : Evolves s0 a1) : Evolves s0 (State.pmbusRead a1 a2) := by
  unfold State.pmbusRead
  repeat' first | with_reducible assumption | with_reducible apply State.alarm_evolves | split | (simp only [Evolves.mk_iff]; apply Evolves.core) | dsimp only

theorem State.voltageReached_evolves {s0 : State} {a1 : State} {a2} {a3} (h : Evolves s0 a1) : Evolves s0 (State.voltageReached a1 a2 a3) := by
  unfold State.voltageReached
  repeat' first | with_reducible assumption | with_reducible apply State.settleLevels_evolves | with_reducible apply State.modCourse_evolves | split | (simp only [Evolves.mk_iff]; apply Evolves.core) | (intro _) | dsimp only

theorem State.droopStart_evolves {s0 : State} {a1 : State} {a2} (h : Evolves s0 a1) : Evolves s0 (State.droopStart a1 a2) := by
  unfold State.droopStart
  repeat' first | with_reducible assumption | with_reducible apply State.modCourse_evolves | with_reducible apply State.bump_evolves | split | (simp only [Evolves.mk_iff]; apply Evolves.core) | (intro _) | dsimp only

theorem State.droopEnd_evolves {s0 : State} {a1 : State} {a2} {a3} (h : Evolves s0 a1) : Evolves s0 (State.droopEnd a1 a2 a3) := by
  unfold State.droopEnd
  repeat' first | with_reducible assumption | with_reducible apply State.bump_evolves | with_reducible apply State.modCourse_evolves | split | (simp only [Evolves.mk_iff]; apply Evolves.core) | (intro _) | dsimp only

theorem State.vrAlert_evolves {s0 : State} {a1 : State} {a2} (h : Evolves s0 a1) : Evolves s0 (State.vrAlert a1 a2) := by
  unfold State.vrAlert
  repeat' first | with_reducible assumption | with_reducible apply State.settleLevels_evolves | with_reducible apply State.alarm_evolves | split | (simp only [Evolves.mk_iff]; apply Evolves.core) | dsimp only

theorem State.floorEnds_evolves {s0 : State} {a1 : State} (h : Evolves s0 a1) : Evolves s0 (State.floorEnds a1) := by
  unfold State.floorEnds
  repeat' first | with_reducible assumption | with_reducible apply State.settleLevels_evolves | with_reducible apply State.alarmEnd_evolves | split | (simp only [Evolves.mk_iff]; apply Evolves.core) | dsimp only

theorem State.thermDie_evolves {s0 : State} {a1} {a2 : State} {a3} (h : Evolves s0 a2) : Evolves s0 (State.thermDie a1 a2 a3) := by
  unfold State.thermDie
  repeat' first | with_reducible assumption | with_reducible apply State.modCourse_evolves | with_reducible apply State.memberAlarm_evolves | split | (simp only [Evolves.mk_iff]; apply Evolves.core) | (intro _) | dsimp only

theorem State.thermalCollect_evolves {s0 : State} {a1 : State} {a2} (h : Evolves s0 a1) : Evolves s0 (State.thermalCollect a1 a2) := by
  unfold State.thermalCollect
  repeat' first | with_reducible assumption | with_reducible apply State.settleLevels_evolves | with_reducible apply State.thermDie_evolves | with_reducible apply Evolves.foldl | split | (simp only [Evolves.mk_iff]; apply Evolves.core) | (intro _) | dsimp only

theorem State.engineTrip_evolves {s0 : State} {a1 : State} {a2} {a3} (h : Evolves s0 a1) : Evolves s0 (State.engineTrip a1 a2 a3) := by
  unfold State.engineTrip
  repeat' first | with_reducible assumption | with_reducible apply State.modCourse_evolves | with_reducible apply State.alarm_evolves | with_reducible apply State.abandonCmd_evolves | with_reducible apply Evolves.foldl | split | (simp only [Evolves.mk_iff]; apply Evolves.core) | (intro _) | dsimp only

theorem State.engineResume_evolves {s0 : State} {a1 : State} {a2} (h : Evolves s0 a1) : Evolves s0 (State.engineResume a1 a2) := by
  unfold State.engineResume
  repeat' first | with_reducible assumption | with_reducible apply State.modCourse_evolves | with_reducible apply State.alarmEnd_evolves | split | (simp only [Evolves.mk_iff]; apply Evolves.core) | (intro _) | dsimp only

theorem State.cleared_evolves {s0 : State} {a1 : State} (h : Evolves s0 a1) : Evolves s0 (State.cleared a1) := by
  unfold State.cleared
  repeat' first | with_reducible assumption | (simp only [Evolves.mk_iff]; refine Evolves.core_mem ?_ (fun _ => rfl)) | (simp only [Evolves.mk_iff]; apply Evolves.core) | (intro _) | dsimp only

theorem State.thermTrip_evolves {s0 : State} {a1 : State} {a2} {a3} (h : Evolves s0 a1) : Evolves s0 (State.thermTrip a1 a2 a3) := by
  unfold State.thermTrip
  repeat' first | with_reducible assumption | with_reducible apply State.cleared_evolves | with_reducible apply State.emit_evolves | split | (simp only [Evolves.mk_iff]; apply Evolves.core) | dsimp only

theorem State.walkCourse_evolves {s0 : State} {a1} {a2 : State} {a3} (h : Evolves s0 a2) : Evolves s0 (State.walkCourse a1 a2 a3) := by
  unfold State.walkCourse
  repeat' first | with_reducible assumption | with_reducible apply State.loseLine_evolves | with_reducible apply State.setDir_evolves | split | (simp only [Evolves.mk_iff]; apply Evolves.core) | dsimp only

theorem State.withdraw_evolves {s0 : State} {a1 : State} {a2} (h : Evolves s0 a1) : Evolves s0 (State.withdraw a1 a2) := by
  unfold State.withdraw
  repeat' first | with_reducible assumption | with_reducible apply State.alarm_evolves | with_reducible apply State.modCourse_evolves | with_reducible apply State.abandonCmd_evolves | with_reducible apply State.walkCourse_evolves | with_reducible apply State.answered_evolves | with_reducible apply Evolves.foldl | split | (simp only [Evolves.mk_iff]; apply Evolves.core) | (intro _) | dsimp only

theorem State.faultReq_evolves {s0 : State} {a1 : State} {a2} (h : Evolves s0 a1) : Evolves s0 (State.faultReq a1 a2) := by
  unfold State.faultReq
  repeat' first | with_reducible assumption | with_reducible apply State.respond_evolves | split | (simp only [Evolves.mk_iff]; apply Evolves.core) | dsimp only

theorem State.packageFault_evolves {s0 : State} {a1 : State} {a2} (h : Evolves s0 a1) : Evolves s0 (State.packageFault a1 a2) := by
  unfold State.packageFault
  repeat' first | with_reducible assumption | with_reducible apply State.alarm_evolves | with_reducible apply State.faultReq_evolves | with_reducible apply State.ackConflicts_evolves | with_reducible apply State.flagCpl_evolves | with_reducible apply Evolves.foldl | split | (simp only [Evolves.mk_iff]; apply Evolves.core) | (intro _) | dsimp only

theorem State.mortarFails_evolves {s0 : State} {a1 : State} {a2} {a3} (h : Evolves s0 a1) : Evolves s0 (State.mortarFails a1 a2 a3) := by
  unfold State.mortarFails
  repeat' first | with_reducible assumption | with_reducible apply State.withdraw_evolves | with_reducible apply State.packageFault_evolves | split | dsimp only

end Sys2Proof.Machine
end

