-- ==== Sys2Proof/Laws/EvolveObserve.lean ====
section
/-! SUPPORT. No operation of `Machine/Observe.lean` does what no command may do (`Evolves`). -/

namespace Sys2Proof.Machine

set_option linter.all false

theorem State.setTrace_evolves {s0 : State} {a1 : State} {a2} {a3} (h : Evolves s0 a1) : Evolves s0 (State.setTrace a1 a2 a3) := by
  unfold State.setTrace
  repeat' first | with_reducible assumption | (simp only [Evolves.mk_iff]; apply Evolves.core) | dsimp only

theorem State.traceEnter_evolves {s0 : State} {a1 : State} {a2} {a3} (h : Evolves s0 a1) : Evolves s0 (State.traceEnter a1 a2 a3) := by
  unfold State.traceEnter
  repeat' first | with_reducible assumption | with_reducible apply State.bump_evolves | with_reducible apply State.setTrace_evolves | with_reducible apply State.bumpCount_evolves | split | (simp only [Evolves.mk_iff]; apply Evolves.core) | dsimp only

theorem State.markStep_evolves {s0 : State} {a1 : State} {a2} (h : Evolves s0 a1) : Evolves s0 (State.markStep a1 a2) := by
  unfold State.markStep
  repeat' first | with_reducible assumption | with_reducible apply State.traceEnter_evolves | with_reducible apply State.bump_evolves | with_reducible apply State.bumpCount_evolves | split | (simp only [Evolves.mk_iff]; apply Evolves.core) | dsimp only

theorem State.rearm_evolves {s0 : State} {a1 : State} (h : Evolves s0 a1) : Evolves s0 (State.rearm a1) := by
  unfold State.rearm
  repeat' first | with_reducible assumption | (simp only [Evolves.mk_iff]; apply Evolves.core) | (intro _) | dsimp only

theorem State.samplePins_evolves {s0 : State} {a1 : State} {a2} (h : Evolves s0 a1) : Evolves s0 (State.samplePins a1 a2) := by
  unfold State.samplePins
  repeat' first | with_reducible assumption | with_reducible apply State.mark_evolves | with_reducible apply Evolves.foldl | (intro _) | dsimp only

theorem State.sendRow_evolves {s0 : State} {a1 : State} {a2} {a3} {a4} (h : Evolves s0 a1) : Evolves s0 (State.sendRow a1 a2 a3 a4) := by
  unfold State.sendRow
  repeat' first | with_reducible assumption | with_reducible apply State.emit_evolves | (simp only [Evolves.mk_iff]; apply Evolves.core) | (intro _) | dsimp only

theorem State.portRow_evolves {s0 : State} {a1 : State} (h : Evolves s0 a1) : Evolves s0 (State.portRow a1) := by
  unfold State.portRow
  repeat' first | with_reducible assumption | with_reducible apply State.sendRow_evolves | with_reducible apply State.setTrace_evolves | split | (simp only [Evolves.mk_iff]; apply Evolves.core) | (intro _) | dsimp only

theorem State.l2Challenge_evolves {s0 : State} {a1 : State} {a2} (h : Evolves s0 a1) : Evolves s0 (State.l2Challenge a1 a2) := by
  unfold State.l2Challenge
  repeat' first | with_reducible assumption | with_reducible apply State.draw_evolves | with_reducible apply State.emit_evolves | split | (simp only [Evolves.mk_iff]; apply Evolves.core) | (refine Evolves.snd_of (by assumption) ?_) | dsimp only

theorem State.l2Write_evolves {s0 : State} {a1 : State} {a2} (h : Evolves s0 a1) : Evolves s0 (State.l2Write a1 a2) := by
  unfold State.l2Write
  repeat' first | with_reducible assumption | split | (simp only [Evolves.mk_iff]; apply Evolves.core) | dsimp only

theorem State.readToken_evolves {s0 : State} {a1 : State} {a2} {a3} (h : Evolves s0 a1) : Evolves s0 (State.readToken a1 a2 a3).2 := by
  unfold State.readToken
  repeat' first | with_reducible assumption | with_reducible apply State.ownRead_evolves | split | dsimp only

theorem State.takeToken_evolves {s0 : State} {a1 : State} {a2} {a3} (h : Evolves s0 a1) : Evolves s0 (State.takeToken a1 a2 a3) := by
  unfold State.takeToken
  repeat' first | with_reducible assumption | split | (simp only [Evolves.mk_iff]; apply Evolves.core) | dsimp only

theorem State.l2Verify_evolves {s0 : State} {a1 : State} {a2} (h : Evolves s0 a1) : Evolves s0 (State.l2Verify a1 a2) := by
  unfold State.l2Verify
  repeat' first | with_reducible assumption | with_reducible apply State.readToken_evolves | with_reducible apply State.logAt_evolves | with_reducible apply State.takeToken_evolves | with_reducible apply State.alarm_evolves | split | (simp only [Evolves.mk_iff]; apply Evolves.core) | (refine Evolves.snd_of (by assumption) ?_) | dsimp only

theorem State.mctpRead_evolves {s0 : State} {a1 : State} {a2} {a3} {a4} (h : Evolves s0 a1) : Evolves s0 (State.mctpRead a1 a2 a3 a4) := by
  unfold State.mctpRead
  repeat' first | with_reducible assumption | with_reducible apply State.emit_evolves | split | (intro _) | dsimp only

end Sys2Proof.Machine
end

