-- ==== Sys2Proof/Laws/EvolveStartup.lean ====
section
/-! SUPPORT. No operation of `Machine/Startup.lean` does what no command may do (`Evolves`). -/

namespace Sys2Proof.Machine

set_option linter.all false

theorem State.resetReleased_evolves {s0 : State} {a1 : State} {a2} {a3} (h : Evolves s0 a1) : Evolves s0 (State.resetReleased a1 a2 a3) := by
  unfold State.resetReleased
  repeat' first | with_reducible assumption | with_reducible apply State.samplePins_evolves | split | (simp only [Evolves.mk_iff]; apply Evolves.core) | dsimp only

theorem State.pwrokLost_evolves {s0 : State} {a1 : State} (h : Evolves s0 a1) : Evolves s0 (State.pwrokLost a1) := by
  unfold State.pwrokLost
  repeat' first | with_reducible assumption | with_reducible apply State.emit_evolves | with_reducible apply State.cleared_evolves | split | (simp only [Evolves.mk_iff]; apply Evolves.core) | dsimp only

theorem State.auxRemoved_evolves {s0 : State} {a1 : State} (h : Evolves s0 a1) : Evolves s0 (State.auxRemoved a1) := by
  unfold State.auxRemoved
  repeat' first | with_reducible assumption | with_reducible apply State.emit_evolves | split | (simp only [Evolves.mk_iff]; apply Evolves.core) | dsimp only

theorem State.boot_evolves {s0 : State} {a1 : State} {a2} {a3} {a4} {a5} (h : Evolves s0 a1) : Evolves s0 (State.boot a1 a2 a3 a4 a5) := by
  unfold State.boot
  repeat' first | with_reducible assumption | with_reducible apply Evolves.foldl | split | (simp only [Evolves.mk_iff]; apply Evolves.core_otp) | (simp only [Evolves.mk_iff]; apply Evolves.core) | (intro _) | dsimp only

theorem State.mortarUp_evolves {s0 : State} {a1 : State} {a2} (h : Evolves s0 a1) : Evolves s0 (State.mortarUp a1 a2) := by
  unfold State.mortarUp
  repeat' first | with_reducible assumption | with_reducible apply State.packageFault_evolves | split | (simp only [Evolves.mk_iff]; apply Evolves.core) | dsimp only

theorem State.linkComesUp_evolves {s0 : State} {a1 : State} {a2} {a3} {a4} (h : Evolves s0 a1) : Evolves s0 (State.linkComesUp a1 a2 a3 a4) := by
  unfold State.linkComesUp
  repeat' first | with_reducible assumption | with_reducible apply State.modHead_evolves | with_reducible apply State.pumpSnoops_evolves | with_reducible apply State.pump_evolves | with_reducible apply State.bump_evolves | split | (simp only [Evolves.mk_iff]; apply Evolves.core) | (intro _) | dsimp only

theorem State.linkGoesDown_evolves {s0 : State} {a1 : State} {a2} (h : Evolves s0 a1) : Evolves s0 (State.linkGoesDown a1 a2) := by
  unfold State.linkGoesDown
  repeat' first | with_reducible assumption | with_reducible apply State.pump_evolves | with_reducible apply State.modHead_evolves | split | dsimp only

theorem State.hostFails_evolves {s0 : State} {a1 : State} {a2} {a3} (h : Evolves s0 a1) : Evolves s0 (State.hostFails a1 a2 a3) := by
  unfold State.hostFails
  repeat' first | with_reducible assumption | with_reducible apply State.endRemote_evolves | with_reducible apply Evolves.foldl | split | (simp only [Evolves.mk_iff]; apply Evolves.core) | (intro _) | dsimp only

theorem State.busMaster_evolves {s0 : State} {a1 : State} {a2} {a3} (h : Evolves s0 a1) : Evolves s0 (State.busMaster a1 a2 a3) := by
  unfold State.busMaster
  repeat' first | with_reducible assumption | with_reducible apply State.modHead_evolves | with_reducible apply State.hostFails_evolves | split | (simp only [Evolves.mk_iff]; apply Evolves.core) | (intro _) | dsimp only

theorem State.unhear_evolves {s0 : State} {a1 : State} {a2} (h : Evolves s0 a1) : Evolves s0 (State.unhear a1 a2) := by
  unfold State.unhear
  repeat' first | with_reducible assumption | (simp only [Evolves.mk_iff]; apply Evolves.core) | (intro _) | dsimp only

theorem State.resetHedPage_evolves {s0 : State} {a1 : State} {a2} (h : Evolves s0 a1) : Evolves s0 (State.resetHedPage a1 a2) := by
  unfold State.resetHedPage
  repeat' first | with_reducible assumption | (simp only [Evolves.mk_iff]; apply Evolves.core) | (intro _) | dsimp only

theorem State.redue_evolves {s0 : State} {a1 : State} {a2} (h : Evolves s0 a1) : Evolves s0 (State.redue a1 a2) := by
  unfold State.redue
  repeat' first | with_reducible assumption | split | (simp only [Evolves.mk_iff]; apply Evolves.core) | (intro _) | dsimp only

theorem State.eraseHeadKeys_evolves {s0 : State} {a1 : State} {a2} (h : Evolves s0 a1) : Evolves s0 (State.eraseHeadKeys a1 a2) := by
  unfold State.eraseHeadKeys
  repeat' first | with_reducible assumption | split | (simp only [Evolves.mk_iff]; apply Evolves.core) | (intro _) | dsimp only

theorem State.strandPeers_evolves {s0 : State} {a1 : State} {a2} (h : Evolves s0 a1) : Evolves s0 (State.strandPeers a1 a2) := by
  unfold State.strandPeers
  repeat' first | with_reducible assumption | split | (simp only [Evolves.mk_iff]; apply Evolves.core) | (intro _) | dsimp only

theorem State.perstFalls_evolves {s0 : State} {a1 : State} {a2} (h : Evolves s0 a1) : Evolves s0 (State.perstFalls a1 a2) := by
  unfold State.perstFalls
  repeat' first | with_reducible assumption | with_reducible apply State.modHead_evolves | with_reducible apply State.hostFails_evolves | with_reducible apply State.strandPeers_evolves | with_reducible apply State.eraseHeadKeys_evolves | with_reducible apply State.redue_evolves | with_reducible apply State.resetHedPage_evolves | with_reducible apply State.unhear_evolves | with_reducible apply State.headDropsFlags_evolves | split | (simp only [Evolves.mk_iff]; apply Evolves.core) | (intro _) | dsimp only

theorem State.perstRises_evolves {s0 : State} {a1 : State} {a2} (h : Evolves s0 a1) : Evolves s0 (State.perstRises a1 a2) := by
  unfold State.perstRises
  repeat' first | with_reducible assumption | with_reducible apply State.modHead_evolves | split | (simp only [Evolves.mk_iff]; apply Evolves.core) | (intro _) | dsimp only

theorem State.uathesOffered_evolves {s0 : State} {a1 : State} {a2} {a3} {a4} {a5} {a6} (h : Evolves s0 a1) : Evolves s0 (State.uathesOffered a1 a2 a3 a4 a5 a6) := by
  unfold State.uathesOffered
  repeat' first | with_reducible assumption | with_reducible apply State.emit_evolves | with_reducible apply State.modHead_evolves | split | (simp only [Evolves.mk_iff]; apply Evolves.core) | (intro _) | dsimp only

theorem State.uathesStarts_evolves {s0 : State} {a1 : State} {a2} (h : Evolves s0 a1) : Evolves s0 (State.uathesStarts a1 a2) := by
  unfold State.uathesStarts
  repeat' first | with_reducible assumption | with_reducible apply State.modHead_evolves | split | (simp only [Evolves.mk_iff]; apply Evolves.core) | (intro _) | dsimp only

theorem State.uathesReached_evolves {s0 : State} {a1 : State} {a2} (h : Evolves s0 a1) : Evolves s0 (State.uathesReached a1 a2) := by
  unfold State.uathesReached
  repeat' first | with_reducible assumption | with_reducible apply State.modHead_evolves | split | (simp only [Evolves.mk_iff]; apply Evolves.core) | (intro _) | dsimp only

theorem State.countErrors_evolves {s0 : State} {a1 : State} {a2} {a3} (h : Evolves s0 a1) : Evolves s0 (State.countErrors a1 a2 a3) := by
  unfold State.countErrors
  repeat' first | with_reducible assumption | with_reducible apply State.bump_evolves | with_reducible apply Evolves.foldl | split | (simp only [Evolves.mk_iff]; apply Evolves.core) | (intro _) | dsimp only

theorem State.uathesFails_evolves {s0 : State} {a1 : State} {a2} {a3} (h : Evolves s0 a1) : Evolves s0 (State.uathesFails a1 a2 a3) := by
  unfold State.uathesFails
  repeat' first | with_reducible assumption | with_reducible apply State.countErrors_evolves | with_reducible apply State.modHead_evolves | with_reducible apply State.bump_evolves | with_reducible apply State.emit_evolves | split | (simp only [Evolves.mk_iff]; apply Evolves.core) | (intro _) | dsimp only

theorem State.uathesRetry_evolves {s0 : State} {a1 : State} {a2} (h : Evolves s0 a1) : Evolves s0 (State.uathesRetry a1 a2) := by
  unfold State.uathesRetry
  repeat' first | with_reducible assumption | with_reducible apply State.bump_evolves | with_reducible apply State.emit_evolves | with_reducible apply State.modHead_evolves | split | (simp only [Evolves.mk_iff]; apply Evolves.core) | (intro _) | dsimp only

end Sys2Proof.Machine
end

