-- ==== Sys2Proof/Laws/EvolveSecurity.lean ====
section
/-! SUPPORT. No operation of `Machine/Security.lean` does what no command may do (`Evolves`). -/

namespace Sys2Proof.Machine

set_option linter.all false

theorem State.raiseFloor_evolves {s0 : State} {a1 : State} (h : Evolves s0 a1) : Evolves s0 (State.raiseFloor a1) := by
  unfold State.raiseFloor
  repeat' first | with_reducible assumption | split | (simp only [Evolves.mk_iff]; refine Evolves.core_floor ?_ (Nat.le_max_left _ _)) | (simp only [Evolves.mk_iff]; apply Evolves.core) | dsimp only

theorem State.doeDiscover_evolves {s0 : State} {a1 : State} {a2} {a3} (h : Evolves s0 a1) : Evolves s0 (State.doeDiscover a1 a2 a3) := by
  unfold State.doeDiscover
  repeat' first | with_reducible assumption | with_reducible apply State.emit_evolves | split | (simp only [Evolves.mk_iff]; apply Evolves.core) | dsimp only

theorem State.evidenceArrives_evolves {s0 : State} {a1 : State} {a2} {a3} {a4} (h : Evolves s0 a1) : Evolves s0 (State.evidenceArrives a1 a2 a3 a4) := by
  unfold State.evidenceArrives
  repeat' first | with_reducible assumption | with_reducible apply State.emit_evolves | split | (simp only [Evolves.mk_iff]; apply Evolves.core) | (intro _) | dsimp only

theorem State.evidenceServed_evolves {s0 : State} {a1 : State} (h : Evolves s0 a1) : Evolves s0 (State.evidenceServed a1) := by
  unfold State.evidenceServed
  repeat' first | with_reducible assumption | with_reducible apply State.reply_evolves | with_reducible apply State.draw_evolves | with_reducible apply State.modHead_evolves | split | (simp only [Evolves.mk_iff]; apply Evolves.core) | (intro _) | (refine Evolves.snd_of (by assumption) ?_) | dsimp only

theorem State.certAsked_evolves {s0 : State} {a1 : State} {a2} {a3} {a4} (h : Evolves s0 a1) : Evolves s0 (State.certAsked a1 a2 a3 a4) := by
  unfold State.certAsked
  repeat' first | with_reducible assumption | with_reducible apply State.emit_evolves | split | dsimp only

theorem State.spdmError_evolves {s0 : State} {a1 : State} {a2} {a3} {a4} (h : Evolves s0 a1) : Evolves s0 (State.spdmError a1 a2 a3 a4) := by
  unfold State.spdmError
  repeat' first | with_reducible assumption | with_reducible apply State.emit_evolves | dsimp only

theorem State.dropSession_evolves {s0 : State} {a1 : State} {a2} {a3} (h : Evolves s0 a1) : Evolves s0 (State.dropSession a1 a2 a3) := by
  unfold State.dropSession
  repeat' first | with_reducible assumption | with_reducible apply State.modHead_evolves | (simp only [Evolves.mk_iff]; apply Evolves.core) | (intro _) | dsimp only

theorem State.spdmVersion_evolves {s0 : State} {a1 : State} {a2} (h : Evolves s0 a1) : Evolves s0 (State.spdmVersion a1 a2) := by
  unfold State.spdmVersion
  repeat' first | with_reducible assumption | with_reducible apply State.emit_evolves | with_reducible apply State.dropSession_evolves | split | dsimp only

theorem State.spdmCaps_evolves {s0 : State} {a1 : State} {a2} (h : Evolves s0 a1) : Evolves s0 (State.spdmCaps a1 a2) := by
  unfold State.spdmCaps
  repeat' first | with_reducible assumption | with_reducible apply State.emit_evolves | with_reducible apply State.modHead_evolves | with_reducible apply State.spdmError_evolves | split | (simp only [Evolves.mk_iff]; apply Evolves.core) | (intro _) | dsimp only

theorem State.spdmAlgs_evolves {s0 : State} {a1 : State} {a2} {a3} (h : Evolves s0 a1) : Evolves s0 (State.spdmAlgs a1 a2 a3) := by
  unfold State.spdmAlgs
  repeat' first | with_reducible assumption | with_reducible apply State.emit_evolves | with_reducible apply State.modHead_evolves | with_reducible apply State.spdmError_evolves | split | (simp only [Evolves.mk_iff]; apply Evolves.core) | (intro _) | dsimp only

theorem State.spdmPsk_evolves {s0 : State} {a1 : State} {a2} {a3} {a4} (h : Evolves s0 a1) : Evolves s0 (State.spdmPsk a1 a2 a3 a4) := by
  unfold State.spdmPsk
  repeat' first | with_reducible assumption | with_reducible apply State.spdmError_evolves | with_reducible apply State.draw_evolves | with_reducible apply State.emit_evolves | with_reducible apply State.modHead_evolves | split | (simp only [Evolves.mk_iff]; apply Evolves.core) | (intro _) | (refine Evolves.snd_of (by assumption) ?_) | dsimp only

theorem State.spdmFinish_evolves {s0 : State} {a1 : State} {a2} {a3} (h : Evolves s0 a1) : Evolves s0 (State.spdmFinish a1 a2 a3) := by
  unfold State.spdmFinish
  repeat' first | with_reducible assumption | with_reducible apply State.spdmError_evolves | with_reducible apply State.emit_evolves | with_reducible apply State.modHead_evolves | with_reducible apply State.dropSession_evolves | split | (simp only [Evolves.mk_iff]; apply Evolves.core) | (intro _) | dsimp only

theorem State.sessioned_evolves {s0 : State} {a1 : State} {a2} {a3 : State → State} (hf : ∀ t, Evolves s0 t → Evolves s0 (a3 t)) (h : Evolves s0 a1) : Evolves s0 (State.sessioned a1 a2 a3) := by
  unfold State.sessioned
  repeat' first | with_reducible assumption | apply hf | with_reducible apply State.spdmError_evolves | split | (intro _) | dsimp only

theorem State.spdmKeyUpdate_evolves {s0 : State} {a1 : State} {a2} {a3} (h : Evolves s0 a1) : Evolves s0 (State.spdmKeyUpdate a1 a2 a3) := by
  unfold State.spdmKeyUpdate
  repeat' first | with_reducible assumption | with_reducible apply State.sessioned_evolves | with_reducible apply State.spdmError_evolves | with_reducible apply State.emit_evolves | with_reducible apply State.modHead_evolves | split | (simp only [Evolves.mk_iff]; apply Evolves.core) | (intro _) | dsimp only

theorem State.spdmEnd_evolves {s0 : State} {a1 : State} {a2} (h : Evolves s0 a1) : Evolves s0 (State.spdmEnd a1 a2) := by
  unfold State.spdmEnd
  repeat' first | with_reducible assumption | with_reducible apply State.sessioned_evolves | with_reducible apply State.emit_evolves | with_reducible apply State.dropSession_evolves | (intro _) | dsimp only

theorem State.setIde_evolves {s0 : State} {a1 : State} {a2} {a3} {a4} (h : Evolves s0 a1) : Evolves s0 (State.setIde a1 a2 a3 a4) := by
  unfold State.setIde
  repeat' first | with_reducible assumption | with_reducible apply State.modHead_evolves | split | (simp only [Evolves.mk_iff]; apply Evolves.core) | (intro _) | dsimp only

theorem State.ideKm_evolves {s0 : State} {a1 : State} {a2} {a3} {a4} (h : Evolves s0 a1) : Evolves s0 (State.ideKm a1 a2 a3 a4) := by
  unfold State.ideKm
  repeat' first | with_reducible assumption | with_reducible apply State.emit_evolves | dsimp only

theorem State.ideQuery_evolves {s0 : State} {a1 : State} {a2} (h : Evolves s0 a1) : Evolves s0 (State.ideQuery a1 a2) := by
  unfold State.ideQuery
  repeat' first | with_reducible assumption | with_reducible apply State.sessioned_evolves | with_reducible apply State.ideKm_evolves | (intro _) | dsimp only

theorem State.ideProg_evolves {s0 : State} {a1 : State} {a2} {a3} {a4} {a5} (h : Evolves s0 a1) : Evolves s0 (State.ideProg a1 a2 a3 a4 a5) := by
  unfold State.ideProg
  repeat' first | with_reducible assumption | with_reducible apply State.sessioned_evolves | with_reducible apply State.ideKm_evolves | with_reducible apply State.modHead_evolves | with_reducible apply State.setIde_evolves | split | (simp only [Evolves.mk_iff]; apply Evolves.core) | (intro _) | dsimp only

theorem State.ideGo_evolves {s0 : State} {a1 : State} {a2} {a3} {a4} (h : Evolves s0 a1) : Evolves s0 (State.ideGo a1 a2 a3 a4) := by
  unfold State.ideGo
  repeat' first | with_reducible assumption | with_reducible apply State.sessioned_evolves | with_reducible apply State.spdmError_evolves | with_reducible apply State.ideKm_evolves | with_reducible apply State.modHead_evolves | with_reducible apply State.setIde_evolves | split | (simp only [Evolves.mk_iff]; apply Evolves.core) | (intro _) | dsimp only

theorem State.ideStop_evolves {s0 : State} {a1 : State} {a2} {a3} {a4} (h : Evolves s0 a1) : Evolves s0 (State.ideStop a1 a2 a3 a4) := by
  unfold State.ideStop
  repeat' first | with_reducible assumption | with_reducible apply State.sessioned_evolves | with_reducible apply State.spdmError_evolves | with_reducible apply State.modHead_evolves | with_reducible apply State.setIde_evolves | with_reducible apply State.ideKm_evolves | split | (simp only [Evolves.mk_iff]; apply Evolves.core) | (intro _) | dsimp only

theorem State.ideFails_evolves {s0 : State} {a1 : State} {a2} {a3} (h : Evolves s0 a1) : Evolves s0 (State.ideFails a1 a2 a3) := by
  unfold State.ideFails
  repeat' first | with_reducible assumption | with_reducible apply State.emit_evolves | with_reducible apply State.modHead_evolves | with_reducible apply State.setIde_evolves | split | (simp only [Evolves.mk_iff]; apply Evolves.core) | (intro _) | dsimp only

theorem State.ctxKey_evolves {s0 : State} {a1 : State} {a2} {a3} {a4} {a5} (h : Evolves s0 a1) : Evolves s0 (State.ctxKey a1 a2 a3 a4 a5) := by
  unfold State.ctxKey
  repeat' first | with_reducible assumption | with_reducible apply State.sessioned_evolves | with_reducible apply State.spdmError_evolves | with_reducible apply State.emit_evolves | split | (simp only [Evolves.mk_iff]; apply Evolves.core) | (intro _) | dsimp only

end Sys2Proof.Machine
end

