-- ==== Sys2Proof/Laws/State.lean ====
section
/-! SUPPORT. What each named update of the state leaves in each of its fields. -/

namespace Sys2Proof.Machine.State

variable {s : State}

@[simp] theorem emit_pending {o : Out} : (s.emit o).pending = s.pending := rfl
@[simp] theorem emit_out {o : Out} : (s.emit o).out = o :: s.out := rfl
@[simp] theorem emit_fresh {o : Out} : (s.emit o).fresh = s.fresh := rfl
@[simp] theorem emit_time {o : Out} : (s.emit o).time = s.time := rfl
@[simp] theorem emit_mem {o : Out} : (s.emit o).mem = s.mem := rfl
@[simp] theorem emit_poison {o : Out} : (s.emit o).poison = s.poison := rfl
@[simp] theorem emit_lost {o : Out} : (s.emit o).lost = s.lost := rfl
@[simp] theorem emit_lineBuf {o : Out} : (s.emit o).lineBuf = s.lineBuf := rfl
@[simp] theorem emit_med {o : Out} : (s.emit o).med = s.med := rfl
@[simp] theorem emit_exts {o : Out} : (s.emit o).exts = s.exts := rfl
@[simp] theorem emit_comps {o : Out} : (s.emit o).comps = s.comps := rfl
@[simp] theorem emit_flags {o : Out} : (s.emit o).flags = s.flags := rfl
@[simp] theorem emit_dir {o : Out} : (s.emit o).dir = s.dir := rfl
@[simp] theorem emit_dirOrder {o : Out} : (s.emit o).dirOrder = s.dirOrder := rfl
@[simp] theorem emit_dirFix {o : Out} : (s.emit o).dirFix = s.dirFix := rfl
@[simp] theorem emit_trans {o : Out} : (s.emit o).trans = s.trans := rfl
@[simp] theorem emit_waitQ {o : Out} : (s.emit o).waitQ = s.waitQ := rfl
@[simp] theorem emit_toBuf {o : Out} : (s.emit o).toBuf = s.toBuf := rfl
@[simp] theorem emit_fromBuf {o : Out} : (s.emit o).fromBuf = s.fromBuf := rfl
@[simp] theorem emit_bufs {o : Out} : (s.emit o).bufs = s.bufs := rfl
@[simp] theorem emit_uio {o : Out} : (s.emit o).uio = s.uio := rfl
@[simp] theorem emit_hostDown {o : Out} : (s.emit o).hostDown = s.hostDown := rfl
@[simp] theorem emit_lostWr {o : Out} : (s.emit o).lostWr = s.lostWr := rfl
@[simp] theorem emit_lostRd {o : Out} : (s.emit o).lostRd = s.lostRd := rfl
@[simp] theorem emit_lostDrop {o : Out} : (s.emit o).lostDrop = s.lostDrop := rfl
@[simp] theorem emit_remotes {o : Out} : (s.emit o).remotes = s.remotes := rfl
@[simp] theorem emit_nextId {o : Out} : (s.emit o).nextId = s.nextId := rfl
@[simp] theorem emit_owed {o : Out} : (s.emit o).owed = s.owed := rfl
@[simp] theorem emit_mirReads {o : Out} : (s.emit o).mirReads = s.mirReads := rfl
@[simp] theorem emit_mirCopy {o : Out} : (s.emit o).mirCopy = s.mirCopy := rfl
@[simp] theorem emit_calHeld {o : Out} : (s.emit o).calHeld = s.calHeld := rfl
@[simp] theorem emit_conflicts {o : Out} : (s.emit o).conflicts = s.conflicts := rfl
@[simp] theorem emit_timedOut {o : Out} : (s.emit o).timedOut = s.timedOut := rfl
@[simp] theorem emit_remFault {o : Out} : (s.emit o).remFault = s.remFault := rfl
@[simp] theorem emit_rings {o : Out} : (s.emit o).rings = s.rings := rfl
@[simp] theorem emit_fetchLast {o : Out} : (s.emit o).fetchLast = s.fetchLast := rfl
@[simp] theorem emit_cmds {o : Out} : (s.emit o).cmds = s.cmds := rfl
@[simp] theorem emit_nextCid {o : Out} : (s.emit o).nextCid = s.nextCid := rfl
@[simp] theorem emit_events {o : Out} : (s.emit o).events = s.events := rfl
@[simp] theorem emit_msix {o : Out} : (s.emit o).msix = s.msix := rfl
@[simp] theorem emit_eng {o : Out} : (s.emit o).eng = s.eng := rfl
@[simp] theorem emit_courses {o : Out} : (s.emit o).courses = s.courses := rfl
@[simp] theorem emit_heads {o : Out} : (s.emit o).heads = s.heads := rfl
@[simp] theorem emit_regs {o : Out} : (s.emit o).regs = s.regs := rfl
@[simp] theorem emit_obs {o : Out} : (s.emit o).obs = s.obs := rfl
@[simp] theorem emit_power {o : Out} : (s.emit o).power = s.power := rfl
@[simp] theorem emit_sec {o : Out} : (s.emit o).sec = s.sec := rfl

@[simp] theorem putLine_pending {n : Nat} {d : Line} : (s.putLine n d).pending = s.pending := rfl
@[simp] theorem putLine_out {n : Nat} {d : Line} : (s.putLine n d).out = s.out := rfl
@[simp] theorem putLine_fresh {n : Nat} {d : Line} : (s.putLine n d).fresh = s.fresh := rfl
@[simp] theorem putLine_time {n : Nat} {d : Line} : (s.putLine n d).time = s.time := rfl
@[simp] theorem putLine_mem {n : Nat} {d : Line} : (s.putLine n d).mem = writeMem s.mem (64 * n) (lineBytes d) := rfl
@[simp] theorem putLine_poison {n : Nat} {d : Line} : (s.putLine n d).poison = s.poison := rfl
@[simp] theorem putLine_lost {n : Nat} {d : Line} : (s.putLine n d).lost = s.lost := rfl
@[simp] theorem putLine_lineBuf {n : Nat} {d : Line} : (s.putLine n d).lineBuf = s.lineBuf := rfl
@[simp] theorem putLine_med {n : Nat} {d : Line} : (s.putLine n d).med = s.med := rfl
@[simp] theorem putLine_exts {n : Nat} {d : Line} : (s.putLine n d).exts = s.exts := rfl
@[simp] theorem putLine_comps {n : Nat} {d : Line} : (s.putLine n d).comps = s.comps := rfl
@[simp] theorem putLine_flags {n : Nat} {d : Line} : (s.putLine n d).flags = s.flags := rfl
@[simp] theorem putLine_dir {n : Nat} {d : Line} : (s.putLine n d).dir = s.dir := rfl
@[simp] theorem putLine_dirOrder {n : Nat} {d : Line} : (s.putLine n d).dirOrder = s.dirOrder := rfl
@[simp] theorem putLine_dirFix {n : Nat} {d : Line} : (s.putLine n d).dirFix = s.dirFix := rfl
@[simp] theorem putLine_trans {n : Nat} {d : Line} : (s.putLine n d).trans = s.trans := rfl
@[simp] theorem putLine_waitQ {n : Nat} {d : Line} : (s.putLine n d).waitQ = s.waitQ := rfl
@[simp] theorem putLine_toBuf {n : Nat} {d : Line} : (s.putLine n d).toBuf = s.toBuf := rfl
@[simp] theorem putLine_fromBuf {n : Nat} {d : Line} : (s.putLine n d).fromBuf = s.fromBuf := rfl
@[simp] theorem putLine_bufs {n : Nat} {d : Line} : (s.putLine n d).bufs = s.bufs := rfl
@[simp] theorem putLine_uio {n : Nat} {d : Line} : (s.putLine n d).uio = s.uio := rfl
@[simp] theorem putLine_hostDown {n : Nat} {d : Line} : (s.putLine n d).hostDown = s.hostDown := rfl
@[simp] theorem putLine_lostWr {n : Nat} {d : Line} : (s.putLine n d).lostWr = s.lostWr := rfl
@[simp] theorem putLine_lostRd {n : Nat} {d : Line} : (s.putLine n d).lostRd = s.lostRd := rfl
@[simp] theorem putLine_lostDrop {n : Nat} {d : Line} : (s.putLine n d).lostDrop = s.lostDrop := rfl
@[simp] theorem putLine_remotes {n : Nat} {d : Line} : (s.putLine n d).remotes = s.remotes := rfl
@[simp] theorem putLine_nextId {n : Nat} {d : Line} : (s.putLine n d).nextId = s.nextId := rfl
@[simp] theorem putLine_owed {n : Nat} {d : Line} : (s.putLine n d).owed = s.owed := rfl
@[simp] theorem putLine_mirReads {n : Nat} {d : Line} : (s.putLine n d).mirReads = s.mirReads := rfl
@[simp] theorem putLine_mirCopy {n : Nat} {d : Line} : (s.putLine n d).mirCopy = s.mirCopy := rfl
@[simp] theorem putLine_calHeld {n : Nat} {d : Line} : (s.putLine n d).calHeld = s.calHeld := rfl
@[simp] theorem putLine_conflicts {n : Nat} {d : Line} : (s.putLine n d).conflicts = s.conflicts := rfl
@[simp] theorem putLine_timedOut {n : Nat} {d : Line} : (s.putLine n d).timedOut = s.timedOut := rfl
@[simp] theorem putLine_remFault {n : Nat} {d : Line} : (s.putLine n d).remFault = s.remFault := rfl
@[simp] theorem putLine_rings {n : Nat} {d : Line} : (s.putLine n d).rings = s.rings := rfl
@[simp] theorem putLine_fetchLast {n : Nat} {d : Line} : (s.putLine n d).fetchLast = s.fetchLast := rfl
@[simp] theorem putLine_cmds {n : Nat} {d : Line} : (s.putLine n d).cmds = s.cmds := rfl
@[simp] theorem putLine_nextCid {n : Nat} {d : Line} : (s.putLine n d).nextCid = s.nextCid := rfl
@[simp] theorem putLine_events {n : Nat} {d : Line} : (s.putLine n d).events = s.events := rfl
@[simp] theorem putLine_msix {n : Nat} {d : Line} : (s.putLine n d).msix = s.msix := rfl
@[simp] theorem putLine_eng {n : Nat} {d : Line} : (s.putLine n d).eng = s.eng := rfl
@[simp] theorem putLine_courses {n : Nat} {d : Line} : (s.putLine n d).courses = s.courses := rfl
@[simp] theorem putLine_heads {n : Nat} {d : Line} : (s.putLine n d).heads = s.heads := rfl
@[simp] theorem putLine_regs {n : Nat} {d : Line} : (s.putLine n d).regs = s.regs := rfl
@[simp] theorem putLine_obs {n : Nat} {d : Line} : (s.putLine n d).obs = s.obs := rfl
@[simp] theorem putLine_power {n : Nat} {d : Line} : (s.putLine n d).power = s.power := rfl
@[simp] theorem putLine_sec {n : Nat} {d : Line} : (s.putLine n d).sec = s.sec := rfl

@[simp] theorem bump_pending {w n : Nat} : (s.bump w n).pending = s.pending := rfl
@[simp] theorem bump_out {w n : Nat} : (s.bump w n).out = s.out := rfl
@[simp] theorem bump_fresh {w n : Nat} : (s.bump w n).fresh = s.fresh := rfl
@[simp] theorem bump_time {w n : Nat} : (s.bump w n).time = s.time := rfl
@[simp] theorem bump_mem {w n : Nat} : (s.bump w n).mem = s.mem := rfl
@[simp] theorem bump_poison {w n : Nat} : (s.bump w n).poison = s.poison := rfl
@[simp] theorem bump_lost {w n : Nat} : (s.bump w n).lost = s.lost := rfl
@[simp] theorem bump_lineBuf {w n : Nat} : (s.bump w n).lineBuf = s.lineBuf := rfl
@[simp] theorem bump_med {w n : Nat} : (s.bump w n).med = s.med := rfl
@[simp] theorem bump_exts {w n : Nat} : (s.bump w n).exts = s.exts := rfl
@[simp] theorem bump_comps {w n : Nat} : (s.bump w n).comps = s.comps := rfl
@[simp] theorem bump_flags {w n : Nat} : (s.bump w n).flags = s.flags := rfl
@[simp] theorem bump_dir {w n : Nat} : (s.bump w n).dir = s.dir := rfl
@[simp] theorem bump_dirOrder {w n : Nat} : (s.bump w n).dirOrder = s.dirOrder := rfl
@[simp] theorem bump_dirFix {w n : Nat} : (s.bump w n).dirFix = s.dirFix := rfl
@[simp] theorem bump_trans {w n : Nat} : (s.bump w n).trans = s.trans := rfl
@[simp] theorem bump_waitQ {w n : Nat} : (s.bump w n).waitQ = s.waitQ := rfl
@[simp] theorem bump_toBuf {w n : Nat} : (s.bump w n).toBuf = s.toBuf := rfl
@[simp] theorem bump_fromBuf {w n : Nat} : (s.bump w n).fromBuf = s.fromBuf := rfl
@[simp] theorem bump_bufs {w n : Nat} : (s.bump w n).bufs = s.bufs := rfl
@[simp] theorem bump_uio {w n : Nat} : (s.bump w n).uio = s.uio := rfl
@[simp] theorem bump_hostDown {w n : Nat} : (s.bump w n).hostDown = s.hostDown := rfl
@[simp] theorem bump_lostWr {w n : Nat} : (s.bump w n).lostWr = s.lostWr := rfl
@[simp] theorem bump_lostRd {w n : Nat} : (s.bump w n).lostRd = s.lostRd := rfl
@[simp] theorem bump_lostDrop {w n : Nat} : (s.bump w n).lostDrop = s.lostDrop := rfl
@[simp] theorem bump_remotes {w n : Nat} : (s.bump w n).remotes = s.remotes := rfl
@[simp] theorem bump_nextId {w n : Nat} : (s.bump w n).nextId = s.nextId := rfl
@[simp] theorem bump_owed {w n : Nat} : (s.bump w n).owed = s.owed := rfl
@[simp] theorem bump_mirReads {w n : Nat} : (s.bump w n).mirReads = s.mirReads := rfl
@[simp] theorem bump_mirCopy {w n : Nat} : (s.bump w n).mirCopy = s.mirCopy := rfl
@[simp] theorem bump_calHeld {w n : Nat} : (s.bump w n).calHeld = s.calHeld := rfl
@[simp] theorem bump_conflicts {w n : Nat} : (s.bump w n).conflicts = s.conflicts := rfl
@[simp] theorem bump_timedOut {w n : Nat} : (s.bump w n).timedOut = s.timedOut := rfl
@[simp] theorem bump_remFault {w n : Nat} : (s.bump w n).remFault = s.remFault := rfl
@[simp] theorem bump_rings {w n : Nat} : (s.bump w n).rings = s.rings := rfl
@[simp] theorem bump_fetchLast {w n : Nat} : (s.bump w n).fetchLast = s.fetchLast := rfl
@[simp] theorem bump_cmds {w n : Nat} : (s.bump w n).cmds = s.cmds := rfl
@[simp] theorem bump_nextCid {w n : Nat} : (s.bump w n).nextCid = s.nextCid := rfl
@[simp] theorem bump_events {w n : Nat} : (s.bump w n).events = s.events := rfl
@[simp] theorem bump_msix {w n : Nat} : (s.bump w n).msix = s.msix := rfl
@[simp] theorem bump_eng {w n : Nat} : (s.bump w n).eng = s.eng := rfl
@[simp] theorem bump_courses {w n : Nat} : (s.bump w n).courses = s.courses := rfl
@[simp] theorem bump_heads {w n : Nat} : (s.bump w n).heads = s.heads := rfl
@[simp] theorem bump_regs {w n : Nat} : (s.bump w n).regs = s.regs := rfl
@[simp] theorem bump_obs {w n : Nat} : (s.bump w n).obs = { s.obs with counters := s.obs.counters.set w (s.obs.counters.getD w 0 + n) } := rfl
@[simp] theorem bump_power {w n : Nat} : (s.bump w n).power = s.power := rfl
@[simp] theorem bump_sec {w n : Nat} : (s.bump w n).sec = s.sec := rfl

@[simp] theorem charge_pending {k n : Nat} : (s.charge k n).pending = s.pending := rfl
@[simp] theorem charge_out {k n : Nat} : (s.charge k n).out = s.out := rfl
@[simp] theorem charge_fresh {k n : Nat} : (s.charge k n).fresh = s.fresh := rfl
@[simp] theorem charge_time {k n : Nat} : (s.charge k n).time = s.time := rfl
@[simp] theorem charge_mem {k n : Nat} : (s.charge k n).mem = s.mem := rfl
@[simp] theorem charge_poison {k n : Nat} : (s.charge k n).poison = s.poison := rfl
@[simp] theorem charge_lost {k n : Nat} : (s.charge k n).lost = s.lost := rfl
@[simp] theorem charge_lineBuf {k n : Nat} : (s.charge k n).lineBuf = s.lineBuf := rfl
@[simp] theorem charge_med {k n : Nat} : (s.charge k n).med = s.med := rfl
@[simp] theorem charge_exts {k n : Nat} : (s.charge k n).exts = s.exts := rfl
@[simp] theorem charge_comps {k n : Nat} : (s.charge k n).comps = s.comps := rfl
@[simp] theorem charge_flags {k n : Nat} : (s.charge k n).flags = s.flags := rfl
@[simp] theorem charge_dir {k n : Nat} : (s.charge k n).dir = s.dir := rfl
@[simp] theorem charge_dirOrder {k n : Nat} : (s.charge k n).dirOrder = s.dirOrder := rfl
@[simp] theorem charge_dirFix {k n : Nat} : (s.charge k n).dirFix = s.dirFix := rfl
@[simp] theorem charge_trans {k n : Nat} : (s.charge k n).trans = s.trans := rfl
@[simp] theorem charge_waitQ {k n : Nat} : (s.charge k n).waitQ = s.waitQ := rfl
@[simp] theorem charge_toBuf {k n : Nat} : (s.charge k n).toBuf = s.toBuf := rfl
@[simp] theorem charge_fromBuf {k n : Nat} : (s.charge k n).fromBuf = s.fromBuf := rfl
@[simp] theorem charge_bufs {k n : Nat} : (s.charge k n).bufs = s.bufs := rfl
@[simp] theorem charge_uio {k n : Nat} : (s.charge k n).uio = s.uio := rfl
@[simp] theorem charge_hostDown {k n : Nat} : (s.charge k n).hostDown = s.hostDown := rfl
@[simp] theorem charge_lostWr {k n : Nat} : (s.charge k n).lostWr = s.lostWr := rfl
@[simp] theorem charge_lostRd {k n : Nat} : (s.charge k n).lostRd = s.lostRd := rfl
@[simp] theorem charge_lostDrop {k n : Nat} : (s.charge k n).lostDrop = s.lostDrop := rfl
@[simp] theorem charge_remotes {k n : Nat} : (s.charge k n).remotes = s.remotes := rfl
@[simp] theorem charge_nextId {k n : Nat} : (s.charge k n).nextId = s.nextId := rfl
@[simp] theorem charge_owed {k n : Nat} : (s.charge k n).owed = s.owed := rfl
@[simp] theorem charge_mirReads {k n : Nat} : (s.charge k n).mirReads = s.mirReads := rfl
@[simp] theorem charge_mirCopy {k n : Nat} : (s.charge k n).mirCopy = s.mirCopy := rfl
@[simp] theorem charge_calHeld {k n : Nat} : (s.charge k n).calHeld = s.calHeld := rfl
@[simp] theorem charge_conflicts {k n : Nat} : (s.charge k n).conflicts = s.conflicts := rfl
@[simp] theorem charge_timedOut {k n : Nat} : (s.charge k n).timedOut = s.timedOut := rfl
@[simp] theorem charge_remFault {k n : Nat} : (s.charge k n).remFault = s.remFault := rfl
@[simp] theorem charge_rings {k n : Nat} : (s.charge k n).rings = s.rings := rfl
@[simp] theorem charge_fetchLast {k n : Nat} : (s.charge k n).fetchLast = s.fetchLast := rfl
@[simp] theorem charge_cmds {k n : Nat} : (s.charge k n).cmds = s.cmds := rfl
@[simp] theorem charge_nextCid {k n : Nat} : (s.charge k n).nextCid = s.nextCid := rfl
@[simp] theorem charge_events {k n : Nat} : (s.charge k n).events = s.events := rfl
@[simp] theorem charge_msix {k n : Nat} : (s.charge k n).msix = s.msix := rfl
@[simp] theorem charge_eng {k n : Nat} : (s.charge k n).eng = s.eng := rfl
@[simp] theorem charge_courses {k n : Nat} : (s.charge k n).courses = s.courses := rfl
@[simp] theorem charge_heads {k n : Nat} : (s.charge k n).heads = s.heads := rfl
@[simp] theorem charge_regs {k n : Nat} : (s.charge k n).regs = s.regs := rfl
@[simp] theorem charge_obs {k n : Nat} : (s.charge k n).obs = s.obs := rfl
@[simp] theorem charge_power {k n : Nat} : (s.charge k n).power = { s.power with reqs := s.power.reqs.set k (s.power.reqs.getD k 0 + n) } := rfl
@[simp] theorem charge_sec {k n : Nat} : (s.charge k n).sec = s.sec := rfl

@[simp] theorem modComp_pending {c : Nat} {f : Comp → Comp} : (s.modComp c f).pending = s.pending := rfl
@[simp] theorem modComp_out {c : Nat} {f : Comp → Comp} : (s.modComp c f).out = s.out := rfl
@[simp] theorem modComp_fresh {c : Nat} {f : Comp → Comp} : (s.modComp c f).fresh = s.fresh := rfl
@[simp] theorem modComp_time {c : Nat} {f : Comp → Comp} : (s.modComp c f).time = s.time := rfl
@[simp] theorem modComp_mem {c : Nat} {f : Comp → Comp} : (s.modComp c f).mem = s.mem := rfl
@[simp] theorem modComp_poison {c : Nat} {f : Comp → Comp} : (s.modComp c f).poison = s.poison := rfl
@[simp] theorem modComp_lost {c : Nat} {f : Comp → Comp} : (s.modComp c f).lost = s.lost := rfl
@[simp] theorem modComp_lineBuf {c : Nat} {f : Comp → Comp} : (s.modComp c f).lineBuf = s.lineBuf := rfl
@[simp] theorem modComp_med {c : Nat} {f : Comp → Comp} : (s.modComp c f).med = s.med := rfl
@[simp] theorem modComp_exts {c : Nat} {f : Comp → Comp} : (s.modComp c f).exts = s.exts := rfl
@[simp] theorem modComp_comps {c : Nat} {f : Comp → Comp} : (s.modComp c f).comps = s.comps.modify c f := rfl
@[simp] theorem modComp_flags {c : Nat} {f : Comp → Comp} : (s.modComp c f).flags = s.flags := rfl
@[simp] theorem modComp_dir {c : Nat} {f : Comp → Comp} : (s.modComp c f).dir = s.dir := rfl
@[simp] theorem modComp_dirOrder {c : Nat} {f : Comp → Comp} : (s.modComp c f).dirOrder = s.dirOrder := rfl
@[simp] theorem modComp_dirFix {c : Nat} {f : Comp → Comp} : (s.modComp c f).dirFix = s.dirFix := rfl
@[simp] theorem modComp_trans {c : Nat} {f : Comp → Comp} : (s.modComp c f).trans = s.trans := rfl
@[simp] theorem modComp_waitQ {c : Nat} {f : Comp → Comp} : (s.modComp c f).waitQ = s.waitQ := rfl
@[simp] theorem modComp_toBuf {c : Nat} {f : Comp → Comp} : (s.modComp c f).toBuf = s.toBuf := rfl
@[simp] theorem modComp_fromBuf {c : Nat} {f : Comp → Comp} : (s.modComp c f).fromBuf = s.fromBuf := rfl
@[simp] theorem modComp_bufs {c : Nat} {f : Comp → Comp} : (s.modComp c f).bufs = s.bufs := rfl
@[simp] theorem modComp_uio {c : Nat} {f : Comp → Comp} : (s.modComp c f).uio = s.uio := rfl
@[simp] theorem modComp_hostDown {c : Nat} {f : Comp → Comp} : (s.modComp c f).hostDown = s.hostDown := rfl
@[simp] theorem modComp_lostWr {c : Nat} {f : Comp → Comp} : (s.modComp c f).lostWr = s.lostWr := rfl
@[simp] theorem modComp_lostRd {c : Nat} {f : Comp → Comp} : (s.modComp c f).lostRd = s.lostRd := rfl
@[simp] theorem modComp_lostDrop {c : Nat} {f : Comp → Comp} : (s.modComp c f).lostDrop = s.lostDrop := rfl
@[simp] theorem modComp_remotes {c : Nat} {f : Comp → Comp} : (s.modComp c f).remotes = s.remotes := rfl
@[simp] theorem modComp_nextId {c : Nat} {f : Comp → Comp} : (s.modComp c f).nextId = s.nextId := rfl
@[simp] theorem modComp_owed {c : Nat} {f : Comp → Comp} : (s.modComp c f).owed = s.owed := rfl
@[simp] theorem modComp_mirReads {c : Nat} {f : Comp → Comp} : (s.modComp c f).mirReads = s.mirReads := rfl
@[simp] theorem modComp_mirCopy {c : Nat} {f : Comp → Comp} : (s.modComp c f).mirCopy = s.mirCopy := rfl
@[simp] theorem modComp_calHeld {c : Nat} {f : Comp → Comp} : (s.modComp c f).calHeld = s.calHeld := rfl
@[simp] theorem modComp_conflicts {c : Nat} {f : Comp → Comp} : (s.modComp c f).conflicts = s.conflicts := rfl
@[simp] theorem modComp_timedOut {c : Nat} {f : Comp → Comp} : (s.modComp c f).timedOut = s.timedOut := rfl
@[simp] theorem modComp_remFault {c : Nat} {f : Comp → Comp} : (s.modComp c f).remFault = s.remFault := rfl
@[simp] theorem modComp_rings {c : Nat} {f : Comp → Comp} : (s.modComp c f).rings = s.rings := rfl
@[simp] theorem modComp_fetchLast {c : Nat} {f : Comp → Comp} : (s.modComp c f).fetchLast = s.fetchLast := rfl
@[simp] theorem modComp_cmds {c : Nat} {f : Comp → Comp} : (s.modComp c f).cmds = s.cmds := rfl
@[simp] theorem modComp_nextCid {c : Nat} {f : Comp → Comp} : (s.modComp c f).nextCid = s.nextCid := rfl
@[simp] theorem modComp_events {c : Nat} {f : Comp → Comp} : (s.modComp c f).events = s.events := rfl
@[simp] theorem modComp_msix {c : Nat} {f : Comp → Comp} : (s.modComp c f).msix = s.msix := rfl
@[simp] theorem modComp_eng {c : Nat} {f : Comp → Comp} : (s.modComp c f).eng = s.eng := rfl
@[simp] theorem modComp_courses {c : Nat} {f : Comp → Comp} : (s.modComp c f).courses = s.courses := rfl
@[simp] theorem modComp_heads {c : Nat} {f : Comp → Comp} : (s.modComp c f).heads = s.heads := rfl
@[simp] theorem modComp_regs {c : Nat} {f : Comp → Comp} : (s.modComp c f).regs = s.regs := rfl
@[simp] theorem modComp_obs {c : Nat} {f : Comp → Comp} : (s.modComp c f).obs = s.obs := rfl
@[simp] theorem modComp_power {c : Nat} {f : Comp → Comp} : (s.modComp c f).power = s.power := rfl
@[simp] theorem modComp_sec {c : Nat} {f : Comp → Comp} : (s.modComp c f).sec = s.sec := rfl

@[simp] theorem modExt_pending {i : Nat} {f : Extent → Extent} : (s.modExt i f).pending = s.pending := rfl
@[simp] theorem modExt_out {i : Nat} {f : Extent → Extent} : (s.modExt i f).out = s.out := rfl
@[simp] theorem modExt_fresh {i : Nat} {f : Extent → Extent} : (s.modExt i f).fresh = s.fresh := rfl
@[simp] theorem modExt_time {i : Nat} {f : Extent → Extent} : (s.modExt i f).time = s.time := rfl
@[simp] theorem modExt_mem {i : Nat} {f : Extent → Extent} : (s.modExt i f).mem = s.mem := rfl
@[simp] theorem modExt_poison {i : Nat} {f : Extent → Extent} : (s.modExt i f).poison = s.poison := rfl
@[simp] theorem modExt_lost {i : Nat} {f : Extent → Extent} : (s.modExt i f).lost = s.lost := rfl
@[simp] theorem modExt_lineBuf {i : Nat} {f : Extent → Extent} : (s.modExt i f).lineBuf = s.lineBuf := rfl
@[simp] theorem modExt_med {i : Nat} {f : Extent → Extent} : (s.modExt i f).med = s.med := rfl
@[simp] theorem modExt_exts {i : Nat} {f : Extent → Extent} : (s.modExt i f).exts = s.exts.modify i f := rfl
@[simp] theorem modExt_comps {i : Nat} {f : Extent → Extent} : (s.modExt i f).comps = s.comps := rfl
@[simp] theorem modExt_flags {i : Nat} {f : Extent → Extent} : (s.modExt i f).flags = s.flags := rfl
@[simp] theorem modExt_dir {i : Nat} {f : Extent → Extent} : (s.modExt i f).dir = s.dir := rfl
@[simp] theorem modExt_dirOrder {i : Nat} {f : Extent → Extent} : (s.modExt i f).dirOrder = s.dirOrder := rfl
@[simp] theorem modExt_dirFix {i : Nat} {f : Extent → Extent} : (s.modExt i f).dirFix = s.dirFix := rfl
@[simp] theorem modExt_trans {i : Nat} {f : Extent → Extent} : (s.modExt i f).trans = s.trans := rfl
@[simp] theorem modExt_waitQ {i : Nat} {f : Extent → Extent} : (s.modExt i f).waitQ = s.waitQ := rfl
@[simp] theorem modExt_toBuf {i : Nat} {f : Extent → Extent} : (s.modExt i f).toBuf = s.toBuf := rfl
@[simp] theorem modExt_fromBuf {i : Nat} {f : Extent → Extent} : (s.modExt i f).fromBuf = s.fromBuf := rfl
@[simp] theorem modExt_bufs {i : Nat} {f : Extent → Extent} : (s.modExt i f).bufs = s.bufs := rfl
@[simp] theorem modExt_uio {i : Nat} {f : Extent → Extent} : (s.modExt i f).uio = s.uio := rfl
@[simp] theorem modExt_hostDown {i : Nat} {f : Extent → Extent} : (s.modExt i f).hostDown = s.hostDown := rfl
@[simp] theorem modExt_lostWr {i : Nat} {f : Extent → Extent} : (s.modExt i f).lostWr = s.lostWr := rfl
@[simp] theorem modExt_lostRd {i : Nat} {f : Extent → Extent} : (s.modExt i f).lostRd = s.lostRd := rfl
@[simp] theorem modExt_lostDrop {i : Nat} {f : Extent → Extent} : (s.modExt i f).lostDrop = s.lostDrop := rfl
@[simp] theorem modExt_remotes {i : Nat} {f : Extent → Extent} : (s.modExt i f).remotes = s.remotes := rfl
@[simp] theorem modExt_nextId {i : Nat} {f : Extent → Extent} : (s.modExt i f).nextId = s.nextId := rfl
@[simp] theorem modExt_owed {i : Nat} {f : Extent → Extent} : (s.modExt i f).owed = s.owed := rfl
@[simp] theorem modExt_mirReads {i : Nat} {f : Extent → Extent} : (s.modExt i f).mirReads = s.mirReads := rfl
@[simp] theorem modExt_mirCopy {i : Nat} {f : Extent → Extent} : (s.modExt i f).mirCopy = s.mirCopy := rfl
@[simp] theorem modExt_calHeld {i : Nat} {f : Extent → Extent} : (s.modExt i f).calHeld = s.calHeld := rfl
@[simp] theorem modExt_conflicts {i : Nat} {f : Extent → Extent} : (s.modExt i f).conflicts = s.conflicts := rfl
@[simp] theorem modExt_timedOut {i : Nat} {f : Extent → Extent} : (s.modExt i f).timedOut = s.timedOut := rfl
@[simp] theorem modExt_remFault {i : Nat} {f : Extent → Extent} : (s.modExt i f).remFault = s.remFault := rfl
@[simp] theorem modExt_rings {i : Nat} {f : Extent → Extent} : (s.modExt i f).rings = s.rings := rfl
@[simp] theorem modExt_fetchLast {i : Nat} {f : Extent → Extent} : (s.modExt i f).fetchLast = s.fetchLast := rfl
@[simp] theorem modExt_cmds {i : Nat} {f : Extent → Extent} : (s.modExt i f).cmds = s.cmds := rfl
@[simp] theorem modExt_nextCid {i : Nat} {f : Extent → Extent} : (s.modExt i f).nextCid = s.nextCid := rfl
@[simp] theorem modExt_events {i : Nat} {f : Extent → Extent} : (s.modExt i f).events = s.events := rfl
@[simp] theorem modExt_msix {i : Nat} {f : Extent → Extent} : (s.modExt i f).msix = s.msix := rfl
@[simp] theorem modExt_eng {i : Nat} {f : Extent → Extent} : (s.modExt i f).eng = s.eng := rfl
@[simp] theorem modExt_courses {i : Nat} {f : Extent → Extent} : (s.modExt i f).courses = s.courses := rfl
@[simp] theorem modExt_heads {i : Nat} {f : Extent → Extent} : (s.modExt i f).heads = s.heads := rfl
@[simp] theorem modExt_regs {i : Nat} {f : Extent → Extent} : (s.modExt i f).regs = s.regs := rfl
@[simp] theorem modExt_obs {i : Nat} {f : Extent → Extent} : (s.modExt i f).obs = s.obs := rfl
@[simp] theorem modExt_power {i : Nat} {f : Extent → Extent} : (s.modExt i f).power = s.power := rfl
@[simp] theorem modExt_sec {i : Nat} {f : Extent → Extent} : (s.modExt i f).sec = s.sec := rfl

@[simp] theorem modRing_pending {i : Nat} {f : Ring → Ring} : (s.modRing i f).pending = s.pending := rfl
@[simp] theorem modRing_out {i : Nat} {f : Ring → Ring} : (s.modRing i f).out = s.out := rfl
@[simp] theorem modRing_fresh {i : Nat} {f : Ring → Ring} : (s.modRing i f).fresh = s.fresh := rfl
@[simp] theorem modRing_time {i : Nat} {f : Ring → Ring} : (s.modRing i f).time = s.time := rfl
@[simp] theorem modRing_mem {i : Nat} {f : Ring → Ring} : (s.modRing i f).mem = s.mem := rfl
@[simp] theorem modRing_poison {i : Nat} {f : Ring → Ring} : (s.modRing i f).poison = s.poison := rfl
@[simp] theorem modRing_lost {i : Nat} {f : Ring → Ring} : (s.modRing i f).lost = s.lost := rfl
@[simp] theorem modRing_lineBuf {i : Nat} {f : Ring → Ring} : (s.modRing i f).lineBuf = s.lineBuf := rfl
@[simp] theorem modRing_med {i : Nat} {f : Ring → Ring} : (s.modRing i f).med = s.med := rfl
@[simp] theorem modRing_exts {i : Nat} {f : Ring → Ring} : (s.modRing i f).exts = s.exts := rfl
@[simp] theorem modRing_comps {i : Nat} {f : Ring → Ring} : (s.modRing i f).comps = s.comps := rfl
@[simp] theorem modRing_flags {i : Nat} {f : Ring → Ring} : (s.modRing i f).flags = s.flags := rfl
@[simp] theorem modRing_dir {i : Nat} {f : Ring → Ring} : (s.modRing i f).dir = s.dir := rfl
@[simp] theorem modRing_dirOrder {i : Nat} {f : Ring → Ring} : (s.modRing i f).dirOrder = s.dirOrder := rfl
@[simp] theorem modRing_dirFix {i : Nat} {f : Ring → Ring} : (s.modRing i f).dirFix = s.dirFix := rfl
@[simp] theorem modRing_trans {i : Nat} {f : Ring → Ring} : (s.modRing i f).trans = s.trans := rfl
@[simp] theorem modRing_waitQ {i : Nat} {f : Ring → Ring} : (s.modRing i f).waitQ = s.waitQ := rfl
@[simp] theorem modRing_toBuf {i : Nat} {f : Ring → Ring} : (s.modRing i f).toBuf = s.toBuf := rfl
@[simp] theorem modRing_fromBuf {i : Nat} {f : Ring → Ring} : (s.modRing i f).fromBuf = s.fromBuf := rfl
@[simp] theorem modRing_bufs {i : Nat} {f : Ring → Ring} : (s.modRing i f).bufs = s.bufs := rfl
@[simp] theorem modRing_uio {i : Nat} {f : Ring → Ring} : (s.modRing i f).uio = s.uio := rfl
@[simp] theorem modRing_hostDown {i : Nat} {f : Ring → Ring} : (s.modRing i f).hostDown = s.hostDown := rfl
@[simp] theorem modRing_lostWr {i : Nat} {f : Ring → Ring} : (s.modRing i f).lostWr = s.lostWr := rfl
@[simp] theorem modRing_lostRd {i : Nat} {f : Ring → Ring} : (s.modRing i f).lostRd = s.lostRd := rfl
@[simp] theorem modRing_lostDrop {i : Nat} {f : Ring → Ring} : (s.modRing i f).lostDrop = s.lostDrop := rfl
@[simp] theorem modRing_remotes {i : Nat} {f : Ring → Ring} : (s.modRing i f).remotes = s.remotes := rfl
@[simp] theorem modRing_nextId {i : Nat} {f : Ring → Ring} : (s.modRing i f).nextId = s.nextId := rfl
@[simp] theorem modRing_owed {i : Nat} {f : Ring → Ring} : (s.modRing i f).owed = s.owed := rfl
@[simp] theorem modRing_mirReads {i : Nat} {f : Ring → Ring} : (s.modRing i f).mirReads = s.mirReads := rfl
@[simp] theorem modRing_mirCopy {i : Nat} {f : Ring → Ring} : (s.modRing i f).mirCopy = s.mirCopy := rfl
@[simp] theorem modRing_calHeld {i : Nat} {f : Ring → Ring} : (s.modRing i f).calHeld = s.calHeld := rfl
@[simp] theorem modRing_conflicts {i : Nat} {f : Ring → Ring} : (s.modRing i f).conflicts = s.conflicts := rfl
@[simp] theorem modRing_timedOut {i : Nat} {f : Ring → Ring} : (s.modRing i f).timedOut = s.timedOut := rfl
@[simp] theorem modRing_remFault {i : Nat} {f : Ring → Ring} : (s.modRing i f).remFault = s.remFault := rfl
@[simp] theorem modRing_rings {i : Nat} {f : Ring → Ring} : (s.modRing i f).rings = s.rings.set i (f (s.ringAt i)) := rfl
@[simp] theorem modRing_fetchLast {i : Nat} {f : Ring → Ring} : (s.modRing i f).fetchLast = s.fetchLast := rfl
@[simp] theorem modRing_cmds {i : Nat} {f : Ring → Ring} : (s.modRing i f).cmds = s.cmds := rfl
@[simp] theorem modRing_nextCid {i : Nat} {f : Ring → Ring} : (s.modRing i f).nextCid = s.nextCid := rfl
@[simp] theorem modRing_events {i : Nat} {f : Ring → Ring} : (s.modRing i f).events = s.events := rfl
@[simp] theorem modRing_msix {i : Nat} {f : Ring → Ring} : (s.modRing i f).msix = s.msix := rfl
@[simp] theorem modRing_eng {i : Nat} {f : Ring → Ring} : (s.modRing i f).eng = s.eng := rfl
@[simp] theorem modRing_courses {i : Nat} {f : Ring → Ring} : (s.modRing i f).courses = s.courses := rfl
@[simp] theorem modRing_heads {i : Nat} {f : Ring → Ring} : (s.modRing i f).heads = s.heads := rfl
@[simp] theorem modRing_regs {i : Nat} {f : Ring → Ring} : (s.modRing i f).regs = s.regs := rfl
@[simp] theorem modRing_obs {i : Nat} {f : Ring → Ring} : (s.modRing i f).obs = s.obs := rfl
@[simp] theorem modRing_power {i : Nat} {f : Ring → Ring} : (s.modRing i f).power = s.power := rfl
@[simp] theorem modRing_sec {i : Nat} {f : Ring → Ring} : (s.modRing i f).sec = s.sec := rfl

@[simp] theorem modCmd_pending {c : Nat} {f : Cmd → Cmd} : (s.modCmd c f).pending = s.pending := rfl
@[simp] theorem modCmd_out {c : Nat} {f : Cmd → Cmd} : (s.modCmd c f).out = s.out := rfl
@[simp] theorem modCmd_fresh {c : Nat} {f : Cmd → Cmd} : (s.modCmd c f).fresh = s.fresh := rfl
@[simp] theorem modCmd_time {c : Nat} {f : Cmd → Cmd} : (s.modCmd c f).time = s.time := rfl
@[simp] theorem modCmd_mem {c : Nat} {f : Cmd → Cmd} : (s.modCmd c f).mem = s.mem := rfl
@[simp] theorem modCmd_poison {c : Nat} {f : Cmd → Cmd} : (s.modCmd c f).poison = s.poison := rfl
@[simp] theorem modCmd_lost {c : Nat} {f : Cmd → Cmd} : (s.modCmd c f).lost = s.lost := rfl
@[simp] theorem modCmd_lineBuf {c : Nat} {f : Cmd → Cmd} : (s.modCmd c f).lineBuf = s.lineBuf := rfl
@[simp] theorem modCmd_med {c : Nat} {f : Cmd → Cmd} : (s.modCmd c f).med = s.med := rfl
@[simp] theorem modCmd_exts {c : Nat} {f : Cmd → Cmd} : (s.modCmd c f).exts = s.exts := rfl
@[simp] theorem modCmd_comps {c : Nat} {f : Cmd → Cmd} : (s.modCmd c f).comps = s.comps := rfl
@[simp] theorem modCmd_flags {c : Nat} {f : Cmd → Cmd} : (s.modCmd c f).flags = s.flags := rfl
@[simp] theorem modCmd_dir {c : Nat} {f : Cmd → Cmd} : (s.modCmd c f).dir = s.dir := rfl
@[simp] theorem modCmd_dirOrder {c : Nat} {f : Cmd → Cmd} : (s.modCmd c f).dirOrder = s.dirOrder := rfl
@[simp] theorem modCmd_dirFix {c : Nat} {f : Cmd → Cmd} : (s.modCmd c f).dirFix = s.dirFix := rfl
@[simp] theorem modCmd_trans {c : Nat} {f : Cmd → Cmd} : (s.modCmd c f).trans = s.trans := rfl
@[simp] theorem modCmd_waitQ {c : Nat} {f : Cmd → Cmd} : (s.modCmd c f).waitQ = s.waitQ := rfl
@[simp] theorem modCmd_toBuf {c : Nat} {f : Cmd → Cmd} : (s.modCmd c f).toBuf = s.toBuf := rfl
@[simp] theorem modCmd_fromBuf {c : Nat} {f : Cmd → Cmd} : (s.modCmd c f).fromBuf = s.fromBuf := rfl
@[simp] theorem modCmd_bufs {c : Nat} {f : Cmd → Cmd} : (s.modCmd c f).bufs = s.bufs := rfl
@[simp] theorem modCmd_uio {c : Nat} {f : Cmd → Cmd} : (s.modCmd c f).uio = s.uio := rfl
@[simp] theorem modCmd_hostDown {c : Nat} {f : Cmd → Cmd} : (s.modCmd c f).hostDown = s.hostDown := rfl
@[simp] theorem modCmd_lostWr {c : Nat} {f : Cmd → Cmd} : (s.modCmd c f).lostWr = s.lostWr := rfl
@[simp] theorem modCmd_lostRd {c : Nat} {f : Cmd → Cmd} : (s.modCmd c f).lostRd = s.lostRd := rfl
@[simp] theorem modCmd_lostDrop {c : Nat} {f : Cmd → Cmd} : (s.modCmd c f).lostDrop = s.lostDrop := rfl
@[simp] theorem modCmd_remotes {c : Nat} {f : Cmd → Cmd} : (s.modCmd c f).remotes = s.remotes := rfl
@[simp] theorem modCmd_nextId {c : Nat} {f : Cmd → Cmd} : (s.modCmd c f).nextId = s.nextId := rfl
@[simp] theorem modCmd_owed {c : Nat} {f : Cmd → Cmd} : (s.modCmd c f).owed = s.owed := rfl
@[simp] theorem modCmd_mirReads {c : Nat} {f : Cmd → Cmd} : (s.modCmd c f).mirReads = s.mirReads := rfl
@[simp] theorem modCmd_mirCopy {c : Nat} {f : Cmd → Cmd} : (s.modCmd c f).mirCopy = s.mirCopy := rfl
@[simp] theorem modCmd_calHeld {c : Nat} {f : Cmd → Cmd} : (s.modCmd c f).calHeld = s.calHeld := rfl
@[simp] theorem modCmd_conflicts {c : Nat} {f : Cmd → Cmd} : (s.modCmd c f).conflicts = s.conflicts := rfl
@[simp] theorem modCmd_timedOut {c : Nat} {f : Cmd → Cmd} : (s.modCmd c f).timedOut = s.timedOut := rfl
@[simp] theorem modCmd_remFault {c : Nat} {f : Cmd → Cmd} : (s.modCmd c f).remFault = s.remFault := rfl
@[simp] theorem modCmd_rings {c : Nat} {f : Cmd → Cmd} : (s.modCmd c f).rings = s.rings := rfl
@[simp] theorem modCmd_fetchLast {c : Nat} {f : Cmd → Cmd} : (s.modCmd c f).fetchLast = s.fetchLast := rfl
@[simp] theorem modCmd_cmds {c : Nat} {f : Cmd → Cmd} : (s.modCmd c f).cmds = s.cmds.modify c f := rfl
@[simp] theorem modCmd_nextCid {c : Nat} {f : Cmd → Cmd} : (s.modCmd c f).nextCid = s.nextCid := rfl
@[simp] theorem modCmd_events {c : Nat} {f : Cmd → Cmd} : (s.modCmd c f).events = s.events := rfl
@[simp] theorem modCmd_msix {c : Nat} {f : Cmd → Cmd} : (s.modCmd c f).msix = s.msix := rfl
@[simp] theorem modCmd_eng {c : Nat} {f : Cmd → Cmd} : (s.modCmd c f).eng = s.eng := rfl
@[simp] theorem modCmd_courses {c : Nat} {f : Cmd → Cmd} : (s.modCmd c f).courses = s.courses := rfl
@[simp] theorem modCmd_heads {c : Nat} {f : Cmd → Cmd} : (s.modCmd c f).heads = s.heads := rfl
@[simp] theorem modCmd_regs {c : Nat} {f : Cmd → Cmd} : (s.modCmd c f).regs = s.regs := rfl
@[simp] theorem modCmd_obs {c : Nat} {f : Cmd → Cmd} : (s.modCmd c f).obs = s.obs := rfl
@[simp] theorem modCmd_power {c : Nat} {f : Cmd → Cmd} : (s.modCmd c f).power = s.power := rfl
@[simp] theorem modCmd_sec {c : Nat} {f : Cmd → Cmd} : (s.modCmd c f).sec = s.sec := rfl

@[simp] theorem modHead_pending {h : Nat} {f : Head → Head} : (s.modHead h f).pending = s.pending := rfl
@[simp] theorem modHead_out {h : Nat} {f : Head → Head} : (s.modHead h f).out = s.out := rfl
@[simp] theorem modHead_fresh {h : Nat} {f : Head → Head} : (s.modHead h f).fresh = s.fresh := rfl
@[simp] theorem modHead_time {h : Nat} {f : Head → Head} : (s.modHead h f).time = s.time := rfl
@[simp] theorem modHead_mem {h : Nat} {f : Head → Head} : (s.modHead h f).mem = s.mem := rfl
@[simp] theorem modHead_poison {h : Nat} {f : Head → Head} : (s.modHead h f).poison = s.poison := rfl
@[simp] theorem modHead_lost {h : Nat} {f : Head → Head} : (s.modHead h f).lost = s.lost := rfl
@[simp] theorem modHead_lineBuf {h : Nat} {f : Head → Head} : (s.modHead h f).lineBuf = s.lineBuf := rfl
@[simp] theorem modHead_med {h : Nat} {f : Head → Head} : (s.modHead h f).med = s.med := rfl
@[simp] theorem modHead_exts {h : Nat} {f : Head → Head} : (s.modHead h f).exts = s.exts := rfl
@[simp] theorem modHead_comps {h : Nat} {f : Head → Head} : (s.modHead h f).comps = s.comps := rfl
@[simp] theorem modHead_flags {h : Nat} {f : Head → Head} : (s.modHead h f).flags = s.flags := rfl
@[simp] theorem modHead_dir {h : Nat} {f : Head → Head} : (s.modHead h f).dir = s.dir := rfl
@[simp] theorem modHead_dirOrder {h : Nat} {f : Head → Head} : (s.modHead h f).dirOrder = s.dirOrder := rfl
@[simp] theorem modHead_dirFix {h : Nat} {f : Head → Head} : (s.modHead h f).dirFix = s.dirFix := rfl
@[simp] theorem modHead_trans {h : Nat} {f : Head → Head} : (s.modHead h f).trans = s.trans := rfl
@[simp] theorem modHead_waitQ {h : Nat} {f : Head → Head} : (s.modHead h f).waitQ = s.waitQ := rfl
@[simp] theorem modHead_toBuf {h : Nat} {f : Head → Head} : (s.modHead h f).toBuf = s.toBuf := rfl
@[simp] theorem modHead_fromBuf {h : Nat} {f : Head → Head} : (s.modHead h f).fromBuf = s.fromBuf := rfl
@[simp] theorem modHead_bufs {h : Nat} {f : Head → Head} : (s.modHead h f).bufs = s.bufs := rfl
@[simp] theorem modHead_uio {h : Nat} {f : Head → Head} : (s.modHead h f).uio = s.uio := rfl
@[simp] theorem modHead_hostDown {h : Nat} {f : Head → Head} : (s.modHead h f).hostDown = s.hostDown := rfl
@[simp] theorem modHead_lostWr {h : Nat} {f : Head → Head} : (s.modHead h f).lostWr = s.lostWr := rfl
@[simp] theorem modHead_lostRd {h : Nat} {f : Head → Head} : (s.modHead h f).lostRd = s.lostRd := rfl
@[simp] theorem modHead_lostDrop {h : Nat} {f : Head → Head} : (s.modHead h f).lostDrop = s.lostDrop := rfl
@[simp] theorem modHead_remotes {h : Nat} {f : Head → Head} : (s.modHead h f).remotes = s.remotes := rfl
@[simp] theorem modHead_nextId {h : Nat} {f : Head → Head} : (s.modHead h f).nextId = s.nextId := rfl
@[simp] theorem modHead_owed {h : Nat} {f : Head → Head} : (s.modHead h f).owed = s.owed := rfl
@[simp] theorem modHead_mirReads {h : Nat} {f : Head → Head} : (s.modHead h f).mirReads = s.mirReads := rfl
@[simp] theorem modHead_mirCopy {h : Nat} {f : Head → Head} : (s.modHead h f).mirCopy = s.mirCopy := rfl
@[simp] theorem modHead_calHeld {h : Nat} {f : Head → Head} : (s.modHead h f).calHeld = s.calHeld := rfl
@[simp] theorem modHead_conflicts {h : Nat} {f : Head → Head} : (s.modHead h f).conflicts = s.conflicts := rfl
@[simp] theorem modHead_timedOut {h : Nat} {f : Head → Head} : (s.modHead h f).timedOut = s.timedOut := rfl
@[simp] theorem modHead_remFault {h : Nat} {f : Head → Head} : (s.modHead h f).remFault = s.remFault := rfl
@[simp] theorem modHead_rings {h : Nat} {f : Head → Head} : (s.modHead h f).rings = s.rings := rfl
@[simp] theorem modHead_fetchLast {h : Nat} {f : Head → Head} : (s.modHead h f).fetchLast = s.fetchLast := rfl
@[simp] theorem modHead_cmds {h : Nat} {f : Head → Head} : (s.modHead h f).cmds = s.cmds := rfl
@[simp] theorem modHead_nextCid {h : Nat} {f : Head → Head} : (s.modHead h f).nextCid = s.nextCid := rfl
@[simp] theorem modHead_events {h : Nat} {f : Head → Head} : (s.modHead h f).events = s.events := rfl
@[simp] theorem modHead_msix {h : Nat} {f : Head → Head} : (s.modHead h f).msix = s.msix := rfl
@[simp] theorem modHead_eng {h : Nat} {f : Head → Head} : (s.modHead h f).eng = s.eng := rfl
@[simp] theorem modHead_courses {h : Nat} {f : Head → Head} : (s.modHead h f).courses = s.courses := rfl
@[simp] theorem modHead_heads {h : Nat} {f : Head → Head} : (s.modHead h f).heads = s.heads.set h (f (s.headAt h)) := rfl
@[simp] theorem modHead_regs {h : Nat} {f : Head → Head} : (s.modHead h f).regs = s.regs := rfl
@[simp] theorem modHead_obs {h : Nat} {f : Head → Head} : (s.modHead h f).obs = s.obs := rfl
@[simp] theorem modHead_power {h : Nat} {f : Head → Head} : (s.modHead h f).power = s.power := rfl
@[simp] theorem modHead_sec {h : Nat} {f : Head → Head} : (s.modHead h f).sec = s.sec := rfl

@[simp] theorem modCourse_pending {c : Nat} {f : CourseSt → CourseSt} : (s.modCourse c f).pending = s.pending := rfl
@[simp] theorem modCourse_out {c : Nat} {f : CourseSt → CourseSt} : (s.modCourse c f).out = s.out := rfl
@[simp] theorem modCourse_fresh {c : Nat} {f : CourseSt → CourseSt} : (s.modCourse c f).fresh = s.fresh := rfl
@[simp] theorem modCourse_time {c : Nat} {f : CourseSt → CourseSt} : (s.modCourse c f).time = s.time := rfl
@[simp] theorem modCourse_mem {c : Nat} {f : CourseSt → CourseSt} : (s.modCourse c f).mem = s.mem := rfl
@[simp] theorem modCourse_poison {c : Nat} {f : CourseSt → CourseSt} : (s.modCourse c f).poison = s.poison := rfl
@[simp] theorem modCourse_lost {c : Nat} {f : CourseSt → CourseSt} : (s.modCourse c f).lost = s.lost := rfl
@[simp] theorem modCourse_lineBuf {c : Nat} {f : CourseSt → CourseSt} : (s.modCourse c f).lineBuf = s.lineBuf := rfl
@[simp] theorem modCourse_med {c : Nat} {f : CourseSt → CourseSt} : (s.modCourse c f).med = s.med := rfl
@[simp] theorem modCourse_exts {c : Nat} {f : CourseSt → CourseSt} : (s.modCourse c f).exts = s.exts := rfl
@[simp] theorem modCourse_comps {c : Nat} {f : CourseSt → CourseSt} : (s.modCourse c f).comps = s.comps := rfl
@[simp] theorem modCourse_flags {c : Nat} {f : CourseSt → CourseSt} : (s.modCourse c f).flags = s.flags := rfl
@[simp] theorem modCourse_dir {c : Nat} {f : CourseSt → CourseSt} : (s.modCourse c f).dir = s.dir := rfl
@[simp] theorem modCourse_dirOrder {c : Nat} {f : CourseSt → CourseSt} : (s.modCourse c f).dirOrder = s.dirOrder := rfl
@[simp] theorem modCourse_dirFix {c : Nat} {f : CourseSt → CourseSt} : (s.modCourse c f).dirFix = s.dirFix := rfl
@[simp] theorem modCourse_trans {c : Nat} {f : CourseSt → CourseSt} : (s.modCourse c f).trans = s.trans := rfl
@[simp] theorem modCourse_waitQ {c : Nat} {f : CourseSt → CourseSt} : (s.modCourse c f).waitQ = s.waitQ := rfl
@[simp] theorem modCourse_toBuf {c : Nat} {f : CourseSt → CourseSt} : (s.modCourse c f).toBuf = s.toBuf := rfl
@[simp] theorem modCourse_fromBuf {c : Nat} {f : CourseSt → CourseSt} : (s.modCourse c f).fromBuf = s.fromBuf := rfl
@[simp] theorem modCourse_bufs {c : Nat} {f : CourseSt → CourseSt} : (s.modCourse c f).bufs = s.bufs := rfl
@[simp] theorem modCourse_uio {c : Nat} {f : CourseSt → CourseSt} : (s.modCourse c f).uio = s.uio := rfl
@[simp] theorem modCourse_hostDown {c : Nat} {f : CourseSt → CourseSt} : (s.modCourse c f).hostDown = s.hostDown := rfl
@[simp] theorem modCourse_lostWr {c : Nat} {f : CourseSt → CourseSt} : (s.modCourse c f).lostWr = s.lostWr := rfl
@[simp] theorem modCourse_lostRd {c : Nat} {f : CourseSt → CourseSt} : (s.modCourse c f).lostRd = s.lostRd := rfl
@[simp] theorem modCourse_lostDrop {c : Nat} {f : CourseSt → CourseSt} : (s.modCourse c f).lostDrop = s.lostDrop := rfl
@[simp] theorem modCourse_remotes {c : Nat} {f : CourseSt → CourseSt} : (s.modCourse c f).remotes = s.remotes := rfl
@[simp] theorem modCourse_nextId {c : Nat} {f : CourseSt → CourseSt} : (s.modCourse c f).nextId = s.nextId := rfl
@[simp] theorem modCourse_owed {c : Nat} {f : CourseSt → CourseSt} : (s.modCourse c f).owed = s.owed := rfl
@[simp] theorem modCourse_mirReads {c : Nat} {f : CourseSt → CourseSt} : (s.modCourse c f).mirReads = s.mirReads := rfl
@[simp] theorem modCourse_mirCopy {c : Nat} {f : CourseSt → CourseSt} : (s.modCourse c f).mirCopy = s.mirCopy := rfl
@[simp] theorem modCourse_calHeld {c : Nat} {f : CourseSt → CourseSt} : (s.modCourse c f).calHeld = s.calHeld := rfl
@[simp] theorem modCourse_conflicts {c : Nat} {f : CourseSt → CourseSt} : (s.modCourse c f).conflicts = s.conflicts := rfl
@[simp] theorem modCourse_timedOut {c : Nat} {f : CourseSt → CourseSt} : (s.modCourse c f).timedOut = s.timedOut := rfl
@[simp] theorem modCourse_remFault {c : Nat} {f : CourseSt → CourseSt} : (s.modCourse c f).remFault = s.remFault := rfl
@[simp] theorem modCourse_rings {c : Nat} {f : CourseSt → CourseSt} : (s.modCourse c f).rings = s.rings := rfl
@[simp] theorem modCourse_fetchLast {c : Nat} {f : CourseSt → CourseSt} : (s.modCourse c f).fetchLast = s.fetchLast := rfl
@[simp] theorem modCourse_cmds {c : Nat} {f : CourseSt → CourseSt} : (s.modCourse c f).cmds = s.cmds := rfl
@[simp] theorem modCourse_nextCid {c : Nat} {f : CourseSt → CourseSt} : (s.modCourse c f).nextCid = s.nextCid := rfl
@[simp] theorem modCourse_events {c : Nat} {f : CourseSt → CourseSt} : (s.modCourse c f).events = s.events := rfl
@[simp] theorem modCourse_msix {c : Nat} {f : CourseSt → CourseSt} : (s.modCourse c f).msix = s.msix := rfl
@[simp] theorem modCourse_eng {c : Nat} {f : CourseSt → CourseSt} : (s.modCourse c f).eng = s.eng := rfl
@[simp] theorem modCourse_courses {c : Nat} {f : CourseSt → CourseSt} : (s.modCourse c f).courses = s.courses.set c (f (s.courseAt c)) := rfl
@[simp] theorem modCourse_heads {c : Nat} {f : CourseSt → CourseSt} : (s.modCourse c f).heads = s.heads := rfl
@[simp] theorem modCourse_regs {c : Nat} {f : CourseSt → CourseSt} : (s.modCourse c f).regs = s.regs := rfl
@[simp] theorem modCourse_obs {c : Nat} {f : CourseSt → CourseSt} : (s.modCourse c f).obs = s.obs := rfl
@[simp] theorem modCourse_power {c : Nat} {f : CourseSt → CourseSt} : (s.modCourse c f).power = s.power := rfl
@[simp] theorem modCourse_sec {c : Nat} {f : CourseSt → CourseSt} : (s.modCourse c f).sec = s.sec := rfl

@[simp] theorem modGrp_pending {g : Nat} {f : Grp → Grp} : (s.modGrp g f).pending = s.pending := rfl
@[simp] theorem modGrp_out {g : Nat} {f : Grp → Grp} : (s.modGrp g f).out = s.out := rfl
@[simp] theorem modGrp_fresh {g : Nat} {f : Grp → Grp} : (s.modGrp g f).fresh = s.fresh := rfl
@[simp] theorem modGrp_time {g : Nat} {f : Grp → Grp} : (s.modGrp g f).time = s.time := rfl
@[simp] theorem modGrp_mem {g : Nat} {f : Grp → Grp} : (s.modGrp g f).mem = s.mem := rfl
@[simp] theorem modGrp_poison {g : Nat} {f : Grp → Grp} : (s.modGrp g f).poison = s.poison := rfl
@[simp] theorem modGrp_lost {g : Nat} {f : Grp → Grp} : (s.modGrp g f).lost = s.lost := rfl
@[simp] theorem modGrp_lineBuf {g : Nat} {f : Grp → Grp} : (s.modGrp g f).lineBuf = s.lineBuf := rfl
@[simp] theorem modGrp_med {g : Nat} {f : Grp → Grp} : (s.modGrp g f).med = s.med := rfl
@[simp] theorem modGrp_exts {g : Nat} {f : Grp → Grp} : (s.modGrp g f).exts = s.exts := rfl
@[simp] theorem modGrp_comps {g : Nat} {f : Grp → Grp} : (s.modGrp g f).comps = s.comps := rfl
@[simp] theorem modGrp_flags {g : Nat} {f : Grp → Grp} : (s.modGrp g f).flags = s.flags := rfl
@[simp] theorem modGrp_dir {g : Nat} {f : Grp → Grp} : (s.modGrp g f).dir = s.dir := rfl
@[simp] theorem modGrp_dirOrder {g : Nat} {f : Grp → Grp} : (s.modGrp g f).dirOrder = s.dirOrder := rfl
@[simp] theorem modGrp_dirFix {g : Nat} {f : Grp → Grp} : (s.modGrp g f).dirFix = s.dirFix := rfl
@[simp] theorem modGrp_trans {g : Nat} {f : Grp → Grp} : (s.modGrp g f).trans = s.trans := rfl
@[simp] theorem modGrp_waitQ {g : Nat} {f : Grp → Grp} : (s.modGrp g f).waitQ = s.waitQ := rfl
@[simp] theorem modGrp_toBuf {g : Nat} {f : Grp → Grp} : (s.modGrp g f).toBuf = s.toBuf := rfl
@[simp] theorem modGrp_fromBuf {g : Nat} {f : Grp → Grp} : (s.modGrp g f).fromBuf = s.fromBuf := rfl
@[simp] theorem modGrp_bufs {g : Nat} {f : Grp → Grp} : (s.modGrp g f).bufs = s.bufs := rfl
@[simp] theorem modGrp_uio {g : Nat} {f : Grp → Grp} : (s.modGrp g f).uio = s.uio := rfl
@[simp] theorem modGrp_hostDown {g : Nat} {f : Grp → Grp} : (s.modGrp g f).hostDown = s.hostDown := rfl
@[simp] theorem modGrp_lostWr {g : Nat} {f : Grp → Grp} : (s.modGrp g f).lostWr = s.lostWr := rfl
@[simp] theorem modGrp_lostRd {g : Nat} {f : Grp → Grp} : (s.modGrp g f).lostRd = s.lostRd := rfl
@[simp] theorem modGrp_lostDrop {g : Nat} {f : Grp → Grp} : (s.modGrp g f).lostDrop = s.lostDrop := rfl
@[simp] theorem modGrp_remotes {g : Nat} {f : Grp → Grp} : (s.modGrp g f).remotes = s.remotes := rfl
@[simp] theorem modGrp_nextId {g : Nat} {f : Grp → Grp} : (s.modGrp g f).nextId = s.nextId := rfl
@[simp] theorem modGrp_owed {g : Nat} {f : Grp → Grp} : (s.modGrp g f).owed = s.owed := rfl
@[simp] theorem modGrp_mirReads {g : Nat} {f : Grp → Grp} : (s.modGrp g f).mirReads = s.mirReads := rfl
@[simp] theorem modGrp_mirCopy {g : Nat} {f : Grp → Grp} : (s.modGrp g f).mirCopy = s.mirCopy := rfl
@[simp] theorem modGrp_calHeld {g : Nat} {f : Grp → Grp} : (s.modGrp g f).calHeld = s.calHeld := rfl
@[simp] theorem modGrp_conflicts {g : Nat} {f : Grp → Grp} : (s.modGrp g f).conflicts = s.conflicts := rfl
@[simp] theorem modGrp_timedOut {g : Nat} {f : Grp → Grp} : (s.modGrp g f).timedOut = s.timedOut := rfl
@[simp] theorem modGrp_remFault {g : Nat} {f : Grp → Grp} : (s.modGrp g f).remFault = s.remFault := rfl
@[simp] theorem modGrp_rings {g : Nat} {f : Grp → Grp} : (s.modGrp g f).rings = s.rings := rfl
@[simp] theorem modGrp_fetchLast {g : Nat} {f : Grp → Grp} : (s.modGrp g f).fetchLast = s.fetchLast := rfl
@[simp] theorem modGrp_cmds {g : Nat} {f : Grp → Grp} : (s.modGrp g f).cmds = s.cmds := rfl
@[simp] theorem modGrp_nextCid {g : Nat} {f : Grp → Grp} : (s.modGrp g f).nextCid = s.nextCid := rfl
@[simp] theorem modGrp_events {g : Nat} {f : Grp → Grp} : (s.modGrp g f).events = s.events := rfl
@[simp] theorem modGrp_msix {g : Nat} {f : Grp → Grp} : (s.modGrp g f).msix = s.msix := rfl
@[simp] theorem modGrp_eng {g : Nat} {f : Grp → Grp} : (s.modGrp g f).eng = { s.eng with grps := s.eng.grps.set g (f (s.grpAt g)) } := rfl
@[simp] theorem modGrp_courses {g : Nat} {f : Grp → Grp} : (s.modGrp g f).courses = s.courses := rfl
@[simp] theorem modGrp_heads {g : Nat} {f : Grp → Grp} : (s.modGrp g f).heads = s.heads := rfl
@[simp] theorem modGrp_regs {g : Nat} {f : Grp → Grp} : (s.modGrp g f).regs = s.regs := rfl
@[simp] theorem modGrp_obs {g : Nat} {f : Grp → Grp} : (s.modGrp g f).obs = s.obs := rfl
@[simp] theorem modGrp_power {g : Nat} {f : Grp → Grp} : (s.modGrp g f).power = s.power := rfl
@[simp] theorem modGrp_sec {g : Nat} {f : Grp → Grp} : (s.modGrp g f).sec = s.sec := rfl

@[simp] theorem setPeer_pending {p : Nat} {x : PeerSt} : (s.setPeer p x).pending = s.pending := rfl
@[simp] theorem setPeer_out {p : Nat} {x : PeerSt} : (s.setPeer p x).out = s.out := rfl
@[simp] theorem setPeer_fresh {p : Nat} {x : PeerSt} : (s.setPeer p x).fresh = s.fresh := rfl
@[simp] theorem setPeer_time {p : Nat} {x : PeerSt} : (s.setPeer p x).time = s.time := rfl
@[simp] theorem setPeer_mem {p : Nat} {x : PeerSt} : (s.setPeer p x).mem = s.mem := rfl
@[simp] theorem setPeer_poison {p : Nat} {x : PeerSt} : (s.setPeer p x).poison = s.poison := rfl
@[simp] theorem setPeer_lost {p : Nat} {x : PeerSt} : (s.setPeer p x).lost = s.lost := rfl
@[simp] theorem setPeer_lineBuf {p : Nat} {x : PeerSt} : (s.setPeer p x).lineBuf = s.lineBuf := rfl
@[simp] theorem setPeer_med {p : Nat} {x : PeerSt} : (s.setPeer p x).med = s.med := rfl
@[simp] theorem setPeer_exts {p : Nat} {x : PeerSt} : (s.setPeer p x).exts = s.exts := rfl
@[simp] theorem setPeer_comps {p : Nat} {x : PeerSt} : (s.setPeer p x).comps = s.comps := rfl
@[simp] theorem setPeer_flags {p : Nat} {x : PeerSt} : (s.setPeer p x).flags = s.flags := rfl
@[simp] theorem setPeer_dir {p : Nat} {x : PeerSt} : (s.setPeer p x).dir = s.dir := rfl
@[simp] theorem setPeer_dirOrder {p : Nat} {x : PeerSt} : (s.setPeer p x).dirOrder = s.dirOrder := rfl
@[simp] theorem setPeer_dirFix {p : Nat} {x : PeerSt} : (s.setPeer p x).dirFix = s.dirFix := rfl
@[simp] theorem setPeer_trans {p : Nat} {x : PeerSt} : (s.setPeer p x).trans = s.trans := rfl
@[simp] theorem setPeer_waitQ {p : Nat} {x : PeerSt} : (s.setPeer p x).waitQ = s.waitQ := rfl
@[simp] theorem setPeer_toBuf {p : Nat} {x : PeerSt} : (s.setPeer p x).toBuf = s.toBuf := rfl
@[simp] theorem setPeer_fromBuf {p : Nat} {x : PeerSt} : (s.setPeer p x).fromBuf = s.fromBuf := rfl
@[simp] theorem setPeer_bufs {p : Nat} {x : PeerSt} : (s.setPeer p x).bufs = s.bufs := rfl
@[simp] theorem setPeer_uio {p : Nat} {x : PeerSt} : (s.setPeer p x).uio = s.uio := rfl
@[simp] theorem setPeer_hostDown {p : Nat} {x : PeerSt} : (s.setPeer p x).hostDown = s.hostDown := rfl
@[simp] theorem setPeer_lostWr {p : Nat} {x : PeerSt} : (s.setPeer p x).lostWr = s.lostWr := rfl
@[simp] theorem setPeer_lostRd {p : Nat} {x : PeerSt} : (s.setPeer p x).lostRd = s.lostRd := rfl
@[simp] theorem setPeer_lostDrop {p : Nat} {x : PeerSt} : (s.setPeer p x).lostDrop = s.lostDrop := rfl
@[simp] theorem setPeer_remotes {p : Nat} {x : PeerSt} : (s.setPeer p x).remotes = s.remotes := rfl
@[simp] theorem setPeer_nextId {p : Nat} {x : PeerSt} : (s.setPeer p x).nextId = s.nextId := rfl
@[simp] theorem setPeer_owed {p : Nat} {x : PeerSt} : (s.setPeer p x).owed = s.owed := rfl
@[simp] theorem setPeer_mirReads {p : Nat} {x : PeerSt} : (s.setPeer p x).mirReads = s.mirReads := rfl
@[simp] theorem setPeer_mirCopy {p : Nat} {x : PeerSt} : (s.setPeer p x).mirCopy = s.mirCopy := rfl
@[simp] theorem setPeer_calHeld {p : Nat} {x : PeerSt} : (s.setPeer p x).calHeld = s.calHeld := rfl
@[simp] theorem setPeer_conflicts {p : Nat} {x : PeerSt} : (s.setPeer p x).conflicts = s.conflicts := rfl
@[simp] theorem setPeer_timedOut {p : Nat} {x : PeerSt} : (s.setPeer p x).timedOut = s.timedOut := rfl
@[simp] theorem setPeer_remFault {p : Nat} {x : PeerSt} : (s.setPeer p x).remFault = s.remFault := rfl
@[simp] theorem setPeer_rings {p : Nat} {x : PeerSt} : (s.setPeer p x).rings = s.rings := rfl
@[simp] theorem setPeer_fetchLast {p : Nat} {x : PeerSt} : (s.setPeer p x).fetchLast = s.fetchLast := rfl
@[simp] theorem setPeer_cmds {p : Nat} {x : PeerSt} : (s.setPeer p x).cmds = s.cmds := rfl
@[simp] theorem setPeer_nextCid {p : Nat} {x : PeerSt} : (s.setPeer p x).nextCid = s.nextCid := rfl
@[simp] theorem setPeer_events {p : Nat} {x : PeerSt} : (s.setPeer p x).events = s.events := rfl
@[simp] theorem setPeer_msix {p : Nat} {x : PeerSt} : (s.setPeer p x).msix = s.msix := rfl
@[simp] theorem setPeer_eng {p : Nat} {x : PeerSt} : (s.setPeer p x).eng = { s.eng with peers := s.eng.peers.set p x } := rfl
@[simp] theorem setPeer_courses {p : Nat} {x : PeerSt} : (s.setPeer p x).courses = s.courses := rfl
@[simp] theorem setPeer_heads {p : Nat} {x : PeerSt} : (s.setPeer p x).heads = s.heads := rfl
@[simp] theorem setPeer_regs {p : Nat} {x : PeerSt} : (s.setPeer p x).regs = s.regs := rfl
@[simp] theorem setPeer_obs {p : Nat} {x : PeerSt} : (s.setPeer p x).obs = s.obs := rfl
@[simp] theorem setPeer_power {p : Nat} {x : PeerSt} : (s.setPeer p x).power = s.power := rfl
@[simp] theorem setPeer_sec {p : Nat} {x : PeerSt} : (s.setPeer p x).sec = s.sec := rfl

@[simp] theorem setFlagSrc_pending {p : Nat} {x : FlagSource} : (s.setFlagSrc p x).pending = s.pending := rfl
@[simp] theorem setFlagSrc_out {p : Nat} {x : FlagSource} : (s.setFlagSrc p x).out = s.out := rfl
@[simp] theorem setFlagSrc_fresh {p : Nat} {x : FlagSource} : (s.setFlagSrc p x).fresh = s.fresh := rfl
@[simp] theorem setFlagSrc_time {p : Nat} {x : FlagSource} : (s.setFlagSrc p x).time = s.time := rfl
@[simp] theorem setFlagSrc_mem {p : Nat} {x : FlagSource} : (s.setFlagSrc p x).mem = s.mem := rfl
@[simp] theorem setFlagSrc_poison {p : Nat} {x : FlagSource} : (s.setFlagSrc p x).poison = s.poison := rfl
@[simp] theorem setFlagSrc_lost {p : Nat} {x : FlagSource} : (s.setFlagSrc p x).lost = s.lost := rfl
@[simp] theorem setFlagSrc_lineBuf {p : Nat} {x : FlagSource} : (s.setFlagSrc p x).lineBuf = s.lineBuf := rfl
@[simp] theorem setFlagSrc_med {p : Nat} {x : FlagSource} : (s.setFlagSrc p x).med = s.med := rfl
@[simp] theorem setFlagSrc_exts {p : Nat} {x : FlagSource} : (s.setFlagSrc p x).exts = s.exts := rfl
@[simp] theorem setFlagSrc_comps {p : Nat} {x : FlagSource} : (s.setFlagSrc p x).comps = s.comps := rfl
@[simp] theorem setFlagSrc_flags {p : Nat} {x : FlagSource} : (s.setFlagSrc p x).flags = s.flags.set p x := rfl
@[simp] theorem setFlagSrc_dir {p : Nat} {x : FlagSource} : (s.setFlagSrc p x).dir = s.dir := rfl
@[simp] theorem setFlagSrc_dirOrder {p : Nat} {x : FlagSource} : (s.setFlagSrc p x).dirOrder = s.dirOrder := rfl
@[simp] theorem setFlagSrc_dirFix {p : Nat} {x : FlagSource} : (s.setFlagSrc p x).dirFix = s.dirFix := rfl
@[simp] theorem setFlagSrc_trans {p : Nat} {x : FlagSource} : (s.setFlagSrc p x).trans = s.trans := rfl
@[simp] theorem setFlagSrc_waitQ {p : Nat} {x : FlagSource} : (s.setFlagSrc p x).waitQ = s.waitQ := rfl
@[simp] theorem setFlagSrc_toBuf {p : Nat} {x : FlagSource} : (s.setFlagSrc p x).toBuf = s.toBuf := rfl
@[simp] theorem setFlagSrc_fromBuf {p : Nat} {x : FlagSource} : (s.setFlagSrc p x).fromBuf = s.fromBuf := rfl
@[simp] theorem setFlagSrc_bufs {p : Nat} {x : FlagSource} : (s.setFlagSrc p x).bufs = s.bufs := rfl
@[simp] theorem setFlagSrc_uio {p : Nat} {x : FlagSource} : (s.setFlagSrc p x).uio = s.uio := rfl
@[simp] theorem setFlagSrc_hostDown {p : Nat} {x : FlagSource} : (s.setFlagSrc p x).hostDown = s.hostDown := rfl
@[simp] theorem setFlagSrc_lostWr {p : Nat} {x : FlagSource} : (s.setFlagSrc p x).lostWr = s.lostWr := rfl
@[simp] theorem setFlagSrc_lostRd {p : Nat} {x : FlagSource} : (s.setFlagSrc p x).lostRd = s.lostRd := rfl
@[simp] theorem setFlagSrc_lostDrop {p : Nat} {x : FlagSource} : (s.setFlagSrc p x).lostDrop = s.lostDrop := rfl
@[simp] theorem setFlagSrc_remotes {p : Nat} {x : FlagSource} : (s.setFlagSrc p x).remotes = s.remotes := rfl
@[simp] theorem setFlagSrc_nextId {p : Nat} {x : FlagSource} : (s.setFlagSrc p x).nextId = s.nextId := rfl
@[simp] theorem setFlagSrc_owed {p : Nat} {x : FlagSource} : (s.setFlagSrc p x).owed = s.owed := rfl
@[simp] theorem setFlagSrc_mirReads {p : Nat} {x : FlagSource} : (s.setFlagSrc p x).mirReads = s.mirReads := rfl
@[simp] theorem setFlagSrc_mirCopy {p : Nat} {x : FlagSource} : (s.setFlagSrc p x).mirCopy = s.mirCopy := rfl
@[simp] theorem setFlagSrc_calHeld {p : Nat} {x : FlagSource} : (s.setFlagSrc p x).calHeld = s.calHeld := rfl
@[simp] theorem setFlagSrc_conflicts {p : Nat} {x : FlagSource} : (s.setFlagSrc p x).conflicts = s.conflicts := rfl
@[simp] theorem setFlagSrc_timedOut {p : Nat} {x : FlagSource} : (s.setFlagSrc p x).timedOut = s.timedOut := rfl
@[simp] theorem setFlagSrc_remFault {p : Nat} {x : FlagSource} : (s.setFlagSrc p x).remFault = s.remFault := rfl
@[simp] theorem setFlagSrc_rings {p : Nat} {x : FlagSource} : (s.setFlagSrc p x).rings = s.rings := rfl
@[simp] theorem setFlagSrc_fetchLast {p : Nat} {x : FlagSource} : (s.setFlagSrc p x).fetchLast = s.fetchLast := rfl
@[simp] theorem setFlagSrc_cmds {p : Nat} {x : FlagSource} : (s.setFlagSrc p x).cmds = s.cmds := rfl
@[simp] theorem setFlagSrc_nextCid {p : Nat} {x : FlagSource} : (s.setFlagSrc p x).nextCid = s.nextCid := rfl
@[simp] theorem setFlagSrc_events {p : Nat} {x : FlagSource} : (s.setFlagSrc p x).events = s.events := rfl
@[simp] theorem setFlagSrc_msix {p : Nat} {x : FlagSource} : (s.setFlagSrc p x).msix = s.msix := rfl
@[simp] theorem setFlagSrc_eng {p : Nat} {x : FlagSource} : (s.setFlagSrc p x).eng = s.eng := rfl
@[simp] theorem setFlagSrc_courses {p : Nat} {x : FlagSource} : (s.setFlagSrc p x).courses = s.courses := rfl
@[simp] theorem setFlagSrc_heads {p : Nat} {x : FlagSource} : (s.setFlagSrc p x).heads = s.heads := rfl
@[simp] theorem setFlagSrc_regs {p : Nat} {x : FlagSource} : (s.setFlagSrc p x).regs = s.regs := rfl
@[simp] theorem setFlagSrc_obs {p : Nat} {x : FlagSource} : (s.setFlagSrc p x).obs = s.obs := rfl
@[simp] theorem setFlagSrc_power {p : Nat} {x : FlagSource} : (s.setFlagSrc p x).power = s.power := rfl
@[simp] theorem setFlagSrc_sec {p : Nat} {x : FlagSource} : (s.setFlagSrc p x).sec = s.sec := rfl

@[simp] theorem modChan_pending {c : Nat} {f : Chan → Chan} : (s.modChan c f).pending = s.pending := rfl
@[simp] theorem modChan_out {c : Nat} {f : Chan → Chan} : (s.modChan c f).out = s.out := rfl
@[simp] theorem modChan_fresh {c : Nat} {f : Chan → Chan} : (s.modChan c f).fresh = s.fresh := rfl
@[simp] theorem modChan_time {c : Nat} {f : Chan → Chan} : (s.modChan c f).time = s.time := rfl
@[simp] theorem modChan_mem {c : Nat} {f : Chan → Chan} : (s.modChan c f).mem = s.mem := rfl
@[simp] theorem modChan_poison {c : Nat} {f : Chan → Chan} : (s.modChan c f).poison = s.poison := rfl
@[simp] theorem modChan_lost {c : Nat} {f : Chan → Chan} : (s.modChan c f).lost = s.lost := rfl
@[simp] theorem modChan_lineBuf {c : Nat} {f : Chan → Chan} : (s.modChan c f).lineBuf = s.lineBuf := rfl
@[simp] theorem modChan_med {c : Nat} {f : Chan → Chan} : (s.modChan c f).med = { s.med with chans := s.med.chans.set c (f (s.chanAt c)) } := rfl
@[simp] theorem modChan_exts {c : Nat} {f : Chan → Chan} : (s.modChan c f).exts = s.exts := rfl
@[simp] theorem modChan_comps {c : Nat} {f : Chan → Chan} : (s.modChan c f).comps = s.comps := rfl
@[simp] theorem modChan_flags {c : Nat} {f : Chan → Chan} : (s.modChan c f).flags = s.flags := rfl
@[simp] theorem modChan_dir {c : Nat} {f : Chan → Chan} : (s.modChan c f).dir = s.dir := rfl
@[simp] theorem modChan_dirOrder {c : Nat} {f : Chan → Chan} : (s.modChan c f).dirOrder = s.dirOrder := rfl
@[simp] theorem modChan_dirFix {c : Nat} {f : Chan → Chan} : (s.modChan c f).dirFix = s.dirFix := rfl
@[simp] theorem modChan_trans {c : Nat} {f : Chan → Chan} : (s.modChan c f).trans = s.trans := rfl
@[simp] theorem modChan_waitQ {c : Nat} {f : Chan → Chan} : (s.modChan c f).waitQ = s.waitQ := rfl
@[simp] theorem modChan_toBuf {c : Nat} {f : Chan → Chan} : (s.modChan c f).toBuf = s.toBuf := rfl
@[simp] theorem modChan_fromBuf {c : Nat} {f : Chan → Chan} : (s.modChan c f).fromBuf = s.fromBuf := rfl
@[simp] theorem modChan_bufs {c : Nat} {f : Chan → Chan} : (s.modChan c f).bufs = s.bufs := rfl
@[simp] theorem modChan_uio {c : Nat} {f : Chan → Chan} : (s.modChan c f).uio = s.uio := rfl
@[simp] theorem modChan_hostDown {c : Nat} {f : Chan → Chan} : (s.modChan c f).hostDown = s.hostDown := rfl
@[simp] theorem modChan_lostWr {c : Nat} {f : Chan → Chan} : (s.modChan c f).lostWr = s.lostWr := rfl
@[simp] theorem modChan_lostRd {c : Nat} {f : Chan → Chan} : (s.modChan c f).lostRd = s.lostRd := rfl
@[simp] theorem modChan_lostDrop {c : Nat} {f : Chan → Chan} : (s.modChan c f).lostDrop = s.lostDrop := rfl
@[simp] theorem modChan_remotes {c : Nat} {f : Chan → Chan} : (s.modChan c f).remotes = s.remotes := rfl
@[simp] theorem modChan_nextId {c : Nat} {f : Chan → Chan} : (s.modChan c f).nextId = s.nextId := rfl
@[simp] theorem modChan_owed {c : Nat} {f : Chan → Chan} : (s.modChan c f).owed = s.owed := rfl
@[simp] theorem modChan_mirReads {c : Nat} {f : Chan → Chan} : (s.modChan c f).mirReads = s.mirReads := rfl
@[simp] theorem modChan_mirCopy {c : Nat} {f : Chan → Chan} : (s.modChan c f).mirCopy = s.mirCopy := rfl
@[simp] theorem modChan_calHeld {c : Nat} {f : Chan → Chan} : (s.modChan c f).calHeld = s.calHeld := rfl
@[simp] theorem modChan_conflicts {c : Nat} {f : Chan → Chan} : (s.modChan c f).conflicts = s.conflicts := rfl
@[simp] theorem modChan_timedOut {c : Nat} {f : Chan → Chan} : (s.modChan c f).timedOut = s.timedOut := rfl
@[simp] theorem modChan_remFault {c : Nat} {f : Chan → Chan} : (s.modChan c f).remFault = s.remFault := rfl
@[simp] theorem modChan_rings {c : Nat} {f : Chan → Chan} : (s.modChan c f).rings = s.rings := rfl
@[simp] theorem modChan_fetchLast {c : Nat} {f : Chan → Chan} : (s.modChan c f).fetchLast = s.fetchLast := rfl
@[simp] theorem modChan_cmds {c : Nat} {f : Chan → Chan} : (s.modChan c f).cmds = s.cmds := rfl
@[simp] theorem modChan_nextCid {c : Nat} {f : Chan → Chan} : (s.modChan c f).nextCid = s.nextCid := rfl
@[simp] theorem modChan_events {c : Nat} {f : Chan → Chan} : (s.modChan c f).events = s.events := rfl
@[simp] theorem modChan_msix {c : Nat} {f : Chan → Chan} : (s.modChan c f).msix = s.msix := rfl
@[simp] theorem modChan_eng {c : Nat} {f : Chan → Chan} : (s.modChan c f).eng = s.eng := rfl
@[simp] theorem modChan_courses {c : Nat} {f : Chan → Chan} : (s.modChan c f).courses = s.courses := rfl
@[simp] theorem modChan_heads {c : Nat} {f : Chan → Chan} : (s.modChan c f).heads = s.heads := rfl
@[simp] theorem modChan_regs {c : Nat} {f : Chan → Chan} : (s.modChan c f).regs = s.regs := rfl
@[simp] theorem modChan_obs {c : Nat} {f : Chan → Chan} : (s.modChan c f).obs = s.obs := rfl
@[simp] theorem modChan_power {c : Nat} {f : Chan → Chan} : (s.modChan c f).power = s.power := rfl
@[simp] theorem modChan_sec {c : Nat} {f : Chan → Chan} : (s.modChan c f).sec = s.sec := rfl

@[simp] theorem stage_pending {o v : Nat} : (s.stage o v).pending = s.pending := rfl
@[simp] theorem stage_out {o v : Nat} : (s.stage o v).out = s.out := rfl
@[simp] theorem stage_fresh {o v : Nat} : (s.stage o v).fresh = s.fresh := rfl
@[simp] theorem stage_time {o v : Nat} : (s.stage o v).time = s.time := rfl
@[simp] theorem stage_mem {o v : Nat} : (s.stage o v).mem = s.mem := rfl
@[simp] theorem stage_poison {o v : Nat} : (s.stage o v).poison = s.poison := rfl
@[simp] theorem stage_lost {o v : Nat} : (s.stage o v).lost = s.lost := rfl
@[simp] theorem stage_lineBuf {o v : Nat} : (s.stage o v).lineBuf = s.lineBuf := rfl
@[simp] theorem stage_med {o v : Nat} : (s.stage o v).med = s.med := rfl
@[simp] theorem stage_exts {o v : Nat} : (s.stage o v).exts = s.exts := rfl
@[simp] theorem stage_comps {o v : Nat} : (s.stage o v).comps = s.comps := rfl
@[simp] theorem stage_flags {o v : Nat} : (s.stage o v).flags = s.flags := rfl
@[simp] theorem stage_dir {o v : Nat} : (s.stage o v).dir = s.dir := rfl
@[simp] theorem stage_dirOrder {o v : Nat} : (s.stage o v).dirOrder = s.dirOrder := rfl
@[simp] theorem stage_dirFix {o v : Nat} : (s.stage o v).dirFix = s.dirFix := rfl
@[simp] theorem stage_trans {o v : Nat} : (s.stage o v).trans = s.trans := rfl
@[simp] theorem stage_waitQ {o v : Nat} : (s.stage o v).waitQ = s.waitQ := rfl
@[simp] theorem stage_toBuf {o v : Nat} : (s.stage o v).toBuf = s.toBuf := rfl
@[simp] theorem stage_fromBuf {o v : Nat} : (s.stage o v).fromBuf = s.fromBuf := rfl
@[simp] theorem stage_bufs {o v : Nat} : (s.stage o v).bufs = s.bufs := rfl
@[simp] theorem stage_uio {o v : Nat} : (s.stage o v).uio = s.uio := rfl
@[simp] theorem stage_hostDown {o v : Nat} : (s.stage o v).hostDown = s.hostDown := rfl
@[simp] theorem stage_lostWr {o v : Nat} : (s.stage o v).lostWr = s.lostWr := rfl
@[simp] theorem stage_lostRd {o v : Nat} : (s.stage o v).lostRd = s.lostRd := rfl
@[simp] theorem stage_lostDrop {o v : Nat} : (s.stage o v).lostDrop = s.lostDrop := rfl
@[simp] theorem stage_remotes {o v : Nat} : (s.stage o v).remotes = s.remotes := rfl
@[simp] theorem stage_nextId {o v : Nat} : (s.stage o v).nextId = s.nextId := rfl
@[simp] theorem stage_owed {o v : Nat} : (s.stage o v).owed = s.owed := rfl
@[simp] theorem stage_mirReads {o v : Nat} : (s.stage o v).mirReads = s.mirReads := rfl
@[simp] theorem stage_mirCopy {o v : Nat} : (s.stage o v).mirCopy = s.mirCopy := rfl
@[simp] theorem stage_calHeld {o v : Nat} : (s.stage o v).calHeld = s.calHeld := rfl
@[simp] theorem stage_conflicts {o v : Nat} : (s.stage o v).conflicts = s.conflicts := rfl
@[simp] theorem stage_timedOut {o v : Nat} : (s.stage o v).timedOut = s.timedOut := rfl
@[simp] theorem stage_remFault {o v : Nat} : (s.stage o v).remFault = s.remFault := rfl
@[simp] theorem stage_rings {o v : Nat} : (s.stage o v).rings = s.rings := rfl
@[simp] theorem stage_fetchLast {o v : Nat} : (s.stage o v).fetchLast = s.fetchLast := rfl
@[simp] theorem stage_cmds {o v : Nat} : (s.stage o v).cmds = s.cmds := rfl
@[simp] theorem stage_nextCid {o v : Nat} : (s.stage o v).nextCid = s.nextCid := rfl
@[simp] theorem stage_events {o v : Nat} : (s.stage o v).events = s.events := rfl
@[simp] theorem stage_msix {o v : Nat} : (s.stage o v).msix = s.msix := rfl
@[simp] theorem stage_eng {o v : Nat} : (s.stage o v).eng = s.eng := rfl
@[simp] theorem stage_courses {o v : Nat} : (s.stage o v).courses = s.courses := rfl
@[simp] theorem stage_heads {o v : Nat} : (s.stage o v).heads = s.heads := rfl
@[simp] theorem stage_regs {o v : Nat} : (s.stage o v).regs = { s.regs with staged := s.regs.staged.set o (BitVec.ofNat 64 v) } := rfl
@[simp] theorem stage_obs {o v : Nat} : (s.stage o v).obs = s.obs := rfl
@[simp] theorem stage_power {o v : Nat} : (s.stage o v).power = s.power := rfl
@[simp] theorem stage_sec {o v : Nat} : (s.stage o v).sec = s.sec := rfl

@[simp] theorem landSetup_pending {h : Nat} : (s.landSetup h).pending = s.pending := rfl
@[simp] theorem landSetup_out {h : Nat} : (s.landSetup h).out = s.out := rfl
@[simp] theorem landSetup_fresh {h : Nat} : (s.landSetup h).fresh = s.fresh := rfl
@[simp] theorem landSetup_time {h : Nat} : (s.landSetup h).time = s.time := rfl
@[simp] theorem landSetup_mem {h : Nat} : (s.landSetup h).mem = s.mem := rfl
@[simp] theorem landSetup_poison {h : Nat} : (s.landSetup h).poison = s.poison := rfl
@[simp] theorem landSetup_lost {h : Nat} : (s.landSetup h).lost = s.lost := rfl
@[simp] theorem landSetup_lineBuf {h : Nat} : (s.landSetup h).lineBuf = s.lineBuf := rfl
@[simp] theorem landSetup_med {h : Nat} : (s.landSetup h).med = s.med := rfl
@[simp] theorem landSetup_exts {h : Nat} : (s.landSetup h).exts = s.exts := rfl
@[simp] theorem landSetup_comps {h : Nat} : (s.landSetup h).comps = s.comps := rfl
@[simp] theorem landSetup_flags {h : Nat} : (s.landSetup h).flags = s.flags := rfl
@[simp] theorem landSetup_dir {h : Nat} : (s.landSetup h).dir = s.dir := rfl
@[simp] theorem landSetup_dirOrder {h : Nat} : (s.landSetup h).dirOrder = s.dirOrder := rfl
@[simp] theorem landSetup_dirFix {h : Nat} : (s.landSetup h).dirFix = s.dirFix := rfl
@[simp] theorem landSetup_trans {h : Nat} : (s.landSetup h).trans = s.trans := rfl
@[simp] theorem landSetup_waitQ {h : Nat} : (s.landSetup h).waitQ = s.waitQ := rfl
@[simp] theorem landSetup_toBuf {h : Nat} : (s.landSetup h).toBuf = s.toBuf := rfl
@[simp] theorem landSetup_fromBuf {h : Nat} : (s.landSetup h).fromBuf = s.fromBuf := rfl
@[simp] theorem landSetup_bufs {h : Nat} : (s.landSetup h).bufs = s.bufs := rfl
@[simp] theorem landSetup_uio {h : Nat} : (s.landSetup h).uio = s.uio := rfl
@[simp] theorem landSetup_hostDown {h : Nat} : (s.landSetup h).hostDown = s.hostDown := rfl
@[simp] theorem landSetup_lostWr {h : Nat} : (s.landSetup h).lostWr = s.lostWr := rfl
@[simp] theorem landSetup_lostRd {h : Nat} : (s.landSetup h).lostRd = s.lostRd := rfl
@[simp] theorem landSetup_lostDrop {h : Nat} : (s.landSetup h).lostDrop = s.lostDrop := rfl
@[simp] theorem landSetup_remotes {h : Nat} : (s.landSetup h).remotes = s.remotes := rfl
@[simp] theorem landSetup_nextId {h : Nat} : (s.landSetup h).nextId = s.nextId := rfl
@[simp] theorem landSetup_owed {h : Nat} : (s.landSetup h).owed = s.owed := rfl
@[simp] theorem landSetup_mirReads {h : Nat} : (s.landSetup h).mirReads = s.mirReads := rfl
@[simp] theorem landSetup_mirCopy {h : Nat} : (s.landSetup h).mirCopy = s.mirCopy := rfl
@[simp] theorem landSetup_calHeld {h : Nat} : (s.landSetup h).calHeld = s.calHeld := rfl
@[simp] theorem landSetup_conflicts {h : Nat} : (s.landSetup h).conflicts = s.conflicts := rfl
@[simp] theorem landSetup_timedOut {h : Nat} : (s.landSetup h).timedOut = s.timedOut := rfl
@[simp] theorem landSetup_remFault {h : Nat} : (s.landSetup h).remFault = s.remFault := rfl
@[simp] theorem landSetup_rings {h : Nat} : (s.landSetup h).rings = s.rings := rfl
@[simp] theorem landSetup_fetchLast {h : Nat} : (s.landSetup h).fetchLast = s.fetchLast := rfl
@[simp] theorem landSetup_cmds {h : Nat} : (s.landSetup h).cmds = s.cmds := rfl
@[simp] theorem landSetup_nextCid {h : Nat} : (s.landSetup h).nextCid = s.nextCid := rfl
@[simp] theorem landSetup_events {h : Nat} : (s.landSetup h).events = s.events := rfl
@[simp] theorem landSetup_msix {h : Nat} : (s.landSetup h).msix = s.msix := rfl
@[simp] theorem landSetup_eng {h : Nat} : (s.landSetup h).eng = s.eng := rfl
@[simp] theorem landSetup_courses {h : Nat} : (s.landSetup h).courses = s.courses := rfl
@[simp] theorem landSetup_heads {h : Nat} : (s.landSetup h).heads = s.heads := rfl
@[simp] theorem landSetup_regs {h : Nat} : (s.landSetup h).regs = { s.regs with setupSrc := s.regs.setupSrc ||| 2 ^ h } := rfl
@[simp] theorem landSetup_obs {h : Nat} : (s.landSetup h).obs = s.obs := rfl
@[simp] theorem landSetup_power {h : Nat} : (s.landSetup h).power = s.power := rfl
@[simp] theorem landSetup_sec {h : Nat} : (s.landSetup h).sec = s.sec := rfl

@[simp] theorem draw_pending : s.draw.2.pending = s.pending := rfl
@[simp] theorem draw_out : s.draw.2.out = s.out := rfl
@[simp] theorem draw_fresh : s.draw.2.fresh = s.fresh + 1 := rfl
@[simp] theorem draw_time : s.draw.2.time = s.time := rfl
@[simp] theorem draw_mem : s.draw.2.mem = s.mem := rfl
@[simp] theorem draw_poison : s.draw.2.poison = s.poison := rfl
@[simp] theorem draw_lost : s.draw.2.lost = s.lost := rfl
@[simp] theorem draw_lineBuf : s.draw.2.lineBuf = s.lineBuf := rfl
@[simp] theorem draw_med : s.draw.2.med = s.med := rfl
@[simp] theorem draw_exts : s.draw.2.exts = s.exts := rfl
@[simp] theorem draw_comps : s.draw.2.comps = s.comps := rfl
@[simp] theorem draw_flags : s.draw.2.flags = s.flags := rfl
@[simp] theorem draw_dir : s.draw.2.dir = s.dir := rfl
@[simp] theorem draw_dirOrder : s.draw.2.dirOrder = s.dirOrder := rfl
@[simp] theorem draw_dirFix : s.draw.2.dirFix = s.dirFix := rfl
@[simp] theorem draw_trans : s.draw.2.trans = s.trans := rfl
@[simp] theorem draw_waitQ : s.draw.2.waitQ = s.waitQ := rfl
@[simp] theorem draw_toBuf : s.draw.2.toBuf = s.toBuf := rfl
@[simp] theorem draw_fromBuf : s.draw.2.fromBuf = s.fromBuf := rfl
@[simp] theorem draw_bufs : s.draw.2.bufs = s.bufs := rfl
@[simp] theorem draw_uio : s.draw.2.uio = s.uio := rfl
@[simp] theorem draw_hostDown : s.draw.2.hostDown = s.hostDown := rfl
@[simp] theorem draw_lostWr : s.draw.2.lostWr = s.lostWr := rfl
@[simp] theorem draw_lostRd : s.draw.2.lostRd = s.lostRd := rfl
@[simp] theorem draw_lostDrop : s.draw.2.lostDrop = s.lostDrop := rfl
@[simp] theorem draw_remotes : s.draw.2.remotes = s.remotes := rfl
@[simp] theorem draw_nextId : s.draw.2.nextId = s.nextId := rfl
@[simp] theorem draw_owed : s.draw.2.owed = s.owed := rfl
@[simp] theorem draw_mirReads : s.draw.2.mirReads = s.mirReads := rfl
@[simp] theorem draw_mirCopy : s.draw.2.mirCopy = s.mirCopy := rfl
@[simp] theorem draw_calHeld : s.draw.2.calHeld = s.calHeld := rfl
@[simp] theorem draw_conflicts : s.draw.2.conflicts = s.conflicts := rfl
@[simp] theorem draw_timedOut : s.draw.2.timedOut = s.timedOut := rfl
@[simp] theorem draw_remFault : s.draw.2.remFault = s.remFault := rfl
@[simp] theorem draw_rings : s.draw.2.rings = s.rings := rfl
@[simp] theorem draw_fetchLast : s.draw.2.fetchLast = s.fetchLast := rfl
@[simp] theorem draw_cmds : s.draw.2.cmds = s.cmds := rfl
@[simp] theorem draw_nextCid : s.draw.2.nextCid = s.nextCid := rfl
@[simp] theorem draw_events : s.draw.2.events = s.events := rfl
@[simp] theorem draw_msix : s.draw.2.msix = s.msix := rfl
@[simp] theorem draw_eng : s.draw.2.eng = s.eng := rfl
@[simp] theorem draw_courses : s.draw.2.courses = s.courses := rfl
@[simp] theorem draw_heads : s.draw.2.heads = s.heads := rfl
@[simp] theorem draw_regs : s.draw.2.regs = s.regs := rfl
@[simp] theorem draw_obs : s.draw.2.obs = s.obs := rfl
@[simp] theorem draw_power : s.draw.2.power = s.power := rfl
@[simp] theorem draw_sec : s.draw.2.sec = s.sec := rfl

end Sys2Proof.Machine.State
end

