-- ==== Sys2Proof/Laws/Store.lean ====
section
/-! SUPPORT. What putting a line into the store leaves, byte by byte, and what the steps around it leave alone. -/

namespace Sys2Proof.Machine

theorem lineBytes_getElem {d : Line} {k : Nat} (h : k < (lineBytes d).length) : (lineBytes d)[k] % 256 = lineByte d k := by
  have e : 8 * k + 7 + 1 - 8 * k = 8 := by omega
  simp [lineBytes, bytesOf, lineByte, fld, byteAt, e]

theorem byte_putLine {s : State} {ln : Nat} {d : Line} {k : Nat} (h : k < 64) :
    (s.putLine ln d).byte (64 * ln + k) = lineByte d k := by
  unfold State.byte
  rw [State.putLine_mem, readMem_writeMem_same (by rw [lineBytes_length]; exact h), lineBytes_getElem]

theorem putLine_outside {s : State} {ln : Nat} {d : Line} : SameMemoryOutside s (s.putLine ln d) (64 * ln) 64 := by
  intro x hx
  unfold State.byte
  rw [State.putLine_mem, readMem_writeMem_other (by rw [lineBytes_length]; exact hx)]

theorem SameMemory.of_mem {s t : State} (h : t.mem = s.mem) : SameMemory s t := fun a => by unfold State.byte; rw [h]

end Sys2Proof.Machine
end

