-- ==== Sys2Proof/WellFormed.lean ====
section
/-! DEFINITION. Which commands are well formed: every operand lies in the range its field, die, bank or port has in the
manual. Meanings do not rest on these checks; a command that fails one cannot be sent. -/

namespace Sys2Proof

open Machine

namespace WellFormed

/-- A head number (R8). -/
def head (h : Nat) : Bool := decide (h < 12)

/-- A tag of a request on a head, 16 bits. -/
def tag (t : Nat) : Bool := decide (t < 65536)

/-- A SPID, 12 bits; 4,080 and above name Course buffers (R12). -/
def spid (p : Nat) : Bool := decide (p < 4080)

/-- A DPA with its flag-alias bit 47 (R21, R34). -/
def dpa (a : Nat) : Bool := decide (a < 2 ^ 48)

/-- A line number, DPA[42:6]. -/
def line (l : Nat) : Bool := decide (l < 2 ^ 37)

/-- A Course die. -/
def course (c : Nat) : Bool := decide (c < 16)

/-- A Keystone. -/
def keystone (k : Nat) : Bool := decide (k < 4)

/-- A die number (R8). -/
def die (d : Nat) : Bool := decide (d < 40)

/-- A channel. -/
def channel (c : Nat) : Bool := decide (c < 32)

/-- A Footing. -/
def footing (f : Nat) : Bool := decide (f < 8)

/-- An extent ID (R39). -/
def extent (e : Nat) : Bool := decide (e < 16384)

/-- A composition ID (R54). -/
def composition (c : Nat) : Bool := decide (c < 256)

/-- A ring pair (R153). -/
def ring (r : Nat) : Bool := decide (r < 4096)

/-- A source number (R2). -/
def source (n : Nat) : Bool := decide (n < 1428)

/-- A 2 MiB region of the DPA space. -/
def region (r : Nat) : Bool := decide (r < 4194304)

/-- An 8-bit code. -/
def code (c : Nat) : Bool := decide (c < 256)

/-- A 64-bit word or address. -/
def word (v : Nat) : Bool := decide (v < 2 ^ 64)

/-- A byte offset in BAR0 (R452). -/
def bar0 (o : Nat) : Bool := decide (o < 2 ^ 24)

/-- Which of the two IDE streams, or key sets (R438). -/
def stream (n : Nat) : Bool := decide (n < 2)

/-- What the DRAM returns, named for distinct lines. -/
def media (m : List (Nat × Media)) : Bool := m.all (fun x => line x.1)

/-- What the codes of directory entries find, named for distinct lines. -/
def dirs (m : List (Nat × DirErr)) : Bool := m.all (fun x => line x.1)

/-- A run of work items. -/
def run (r : RunEnv) : Bool := source r.src && media r.media

end WellFormed

open WellFormed in
/-- Whether a command is well formed. -/
def Instr.wellFormed : Instr → Bool
  | .memRd h t p a _ _ => head h && tag t && spid p && dpa a
  | .memSpecRd h p a => head h && spid p && dpa a
  | .memWr h t p a _ _ _ _ => head h && tag t && spid p && dpa a
  | .memWrPtl h t p a _ _ _ _ => head h && tag t && spid p && dpa a
  | .memInv h t p a _ _ => head h && tag t && spid p && dpa a
  | .unsupportedMemRequest h t o => head h && tag t && code o
  | .uioMemoryRead h t p a _ m d => head h && tag t && spid p && dpa a && media m && dirs d
  | .uioMemoryWrite h t p a _ _ _ m d => head h && tag t && spid p && dpa a && media m && dirs d
  | .globalPersistentFlush h p => head h && code p
  | .releaseDynamicCapacity h t p e => head h && tag t && spid p && extent e
  | .flaggedStore h t p a _ _ _ => head h && tag t && spid p && dpa a
  | .flagApply p _ => decide (p < 4096)
  | .flagWaitExpiry p q => decide (p < 4096) && decide (q < 65536)
  | .ctlFlagReset h _ => head h
  | .biResponse h p l _ => head h && spid p && line l
  | .biConflict h p l => head h && spid p && line l
  | .transactionAdmit k => keystone k
  | .courseReadMiss d l _ => course d && line l
  | .courseOwn d l _ => course d && line l
  | .upgrade d l => course d && line l
  | .writeback d l => course d && line l
  | .bufferAnswer d k => course d && keystone k
  | .fwd d k => course d && keystone k
  | .recallShare d k => course d && keystone k
  | .recallInv d k => course d && keystone k
  | .presence d k => course d && keystone k
  | .dirAudit k l _ => keystone k && line l
  | .biTimeout p l => spid p && line l
  | .headDownGrace h => head h
  | .hostDownDeclare h _ => head h
  | .hostReadmit h _ => head h
  | .cohProbe h _ => head h
  | .cohLineAccept h _ => head h
  | .extentCreate => true
  | .extentRevoke => true
  | .setAcl => true
  | .extentDrained e => extent e
  | .releaseScrub e bad => extent e && bad.all region
  | .parityShareZeroed e => extent e
  | .tileAbandonTimeout _ => true
  | .bondPeriodBoundary => true
  | .directoryQuotaRecall c k => composition c && keystone k
  | .compositionCreate => true
  | .compositionDelete => true
  | .compositionUpdate => true
  | .remoteCompletion _ _ _ => true
  | .remoteTimeout _ => true
  | .mirrorProbe e => extent e
  | .mirrorResync e k _ => extent e && keystone k
  | .mirResync h _ => head h
  | .mirDegrade h _ => head h
  | .eccRepairWriteback l => line l
  | .channelFailed c _ => channel c
  | .regionRebuild r _ => region r
  | .regionRetired r => region r
  | .medRetire h _ => head h
  | .medRescueRelease h _ => head h
  | .refresh c b t => channel c && b.all (fun n => decide (n < 4)) && code t
  | .rfm c b => channel c && decide (b < 4096)
  | .actLimit c b _ => channel c && decide (b < 4096)
  | .patrolScrub f m => footing f && media m
  | .scrubCoverage f => footing f
  | .calibration c => channel c
  | .calibrationForced c => channel c
  | .calibrationEnd c _ => channel c
  | .memoryTraining ds => ds.length == 32
  | .startUpScrub _ bad => bad.all region
  | .mortarLinkFailed a b => die a && die b
  | .ringFetch r m => ring r && media m
  | .dispatch r m => ring r && media m
  | .waitSatisfied _ => true
  | .waitLimitExpiry _ => true
  | .tileEnd _ u => source u
  | .commandComplete _ => true
  | .msixVectorControl h v _ => head h && decide (v < 2048)
  | .ringCreate => true
  | .ringDestroy => true
  | .rngCommit => true
  | .ringZeroed r => ring r
  | .ringGone r => ring r
  | .nop _ u => run u
  | .move _ u => run u
  | .fill _ u => run u
  | .check _ u => run u
  | .matmul _ u => run u
  | .matmulAcc _ u => run u
  | .ewise _ u => run u
  | .reduce _ u => run u
  | .normOp _ u => run u
  | .topk _ u => run u
  | .sample _ u => run u
  | .acquire _ u => run u
  | .release _ u => run u
  | .wait _ u => run u
  | .signalOp _ u => run u
  | .flagWrite _ u => run u
  | .dumpWatch _ u => run u
  | .dumpWatchLimit _ => true
  | .kvAppend _ u => run u
  | .attend _ u => run u
  | .coll _ u => run u
  | .gatherPool _ u => run u
  | .scatterAdd _ u => run u
  | .tablePublish _ u => run u
  | .tableRetire _ u => run u
  | .search _ u => run u
  | .insert _ u => run u
  | .deleteOp _ u => run u
  | .merge _ u => run u
  | .repair _ u => run u
  | .timeSet _ u => run u
  | .epochPublish i => decide (i < 1024)
  | .kvServiceRequest m => media m
  | .pageFault _ a => word a
  | .pageResident _ => true
  | .groupCreate m => media m
  | .groupDestroy => true
  | .groupAttach => true
  | .groupDetach => true
  | .groupClear => true
  | .groupAbort g c => decide (g < 256) && code c
  | .abortRecord => true
  | .indexCreate => true
  | .indexDestroy => true
  | .engineTrip d _ => course d
  | .engineResume d => course d
  | .thermalCollect rs => rs.length == 184
  | .thermtrip d _ => die d
  | .powerInterval _ => true
  | .pmbusRead _ => true
  | .railVoltageReached d n => course d && decide (n ≤ 16)
  | .droop d => course d
  | .droopHoldEnd d _ => course d
  | .vrAlert i => code i
  | .floorExit => true
  | .plumbSync => true
  | .syncMissing => true
  | .plumbLost => true
  | .ptmExchange t => match t with | some v => word v | none => true
  | .ptmRequest h => head h
  | .slotBoundary => true
  | .quietWindowOpen => true
  | .quietWindowClose => true
  | .laneSample l => l.all (fun x => head x.head && code x.width && code x.height)
  | .telemetry => true
  | .markAccept u => source u
  | .markPortRow => true
  | .obsTraceRearm h _ => head h
  | .pinSample h _ _ => head h
  | .logEntry d => die d
  | .alarmOccurrence d k => die d && code k
  | .obsAlarmAck h w _ => head h && decide (w < 4)
  | .obsL2Chal h => head h
  | .obsL2Unlock h _ => head h
  | .l2Unlock m => media m
  | .mctpObservationRead t _ _ => code t
  | .resetDeassert v _ => decide (v < 16)
  | .bootImageAccepted flash later ones bad => decide (flash.log2 < 2 ^ 28) && decide (later.log2 < 2 ^ 28) && (ones ++ bad).all (fun n => decide (n < 65536))
  | .mortarTrained f => match f with | some x => die x.1 && die x.2 | none => true
  | .controllerReset => true
  | .pwrokLoss => true
  | .perstAssert h => head h
  | .perstDeassert h => head h
  | .linkUp h w r => head h && decide (w ≤ 5) && decide (r ≤ 5)
  | .linkDown h => head h
  | .uathesOffer h v u f r => head h && tag v && decide (u < 16) && code f && decide (r < 16)
  | .uathesGo h => head h
  | .uathesL0 h => head h
  | .uathesFailed h _ => head h
  | .hedUathesCtl h p _ => head h && head p
  | .ideIntegrityFailure h n => head h && stream n
  | .doeDiscovery h i => head h && code i
  | .evidenceReq h _ _ => head h
  | .evidenceRsp => true
  | .certReq h _ _ => head h
  | .getVersion h => head h
  | .getCapabilities h _ => head h
  | .negotiateAlgorithms h _ => head h
  | .pskExchange h t _ => head h && word t
  | .pskFinish h _ => head h
  | .keyUpdate h o => head h && code o
  | .heartbeat h => head h
  | .endSession h => head h
  | .unsupportedSpdm h c => head h && code c
  | .query h => head h
  | .keyProg h n k v => head h && stream n && stream k && decide (v < 2 ^ 256)
  | .kSetGo h n k => head h && stream n && stream k
  | .kSetStop h n k => head h && stream n && stream k
  | .contextKeyRequest h o c v => head h && code o && decide (c < 4096) && decide (v < 2 ^ 256)
  | .secFloorCommit h _ => head h
  | .commitWrite h o _ => head h && bar0 o
  | .ctlCommit => true
  | .cohCommit => true
  | .medCommit => true
  | .engCommit => true
  | .timCommit => true
  | .pwrCommit => true
  | .obsCommit => true
  | .secCommit => true
  | .hedCommit => true
  | .selectorWrite h o _ => head h && bar0 o
  | .registerWrite h b _ z _ => head h && decide (b < 6) && (z == 1 || z == 2 || z == 4 || z == 8)
  | .memRdFwd h t p a => head h && tag t && spid p && dpa a
  | .memWrFwd h t p a => head h && tag t && spid p && dpa a
  | .busMasterEnable h _ => head h
  | .plumbClkPresent => true
  | .eventRingZeroed => true
  | .logRingZeroed _ => true
  | .vddAuxRemoval => true

end Sys2Proof
end

