-- ==== Sys2Proof/Tests/Slice0.lean ====
section
/-! SUPPORT. Tests: the manual's own examples and test vectors, one ill-formed command for each check of WellFormed, and, for each
statement of the obligations with hypotheses, a theorem that instantiates it at concrete states and operands and proves every one
of its hypotheses there, so that no statement is empty. -/

namespace Sys2Proof.Tests

set_option linter.all false
set_option Elab.async false

open Sys2Proof Sys2Proof.Machine

/-- A closed fact that the kernel evaluates. -/
theorem checked {p : Prop} (h : p := by decide +kernel) : p := h

/-! ### States the witnesses start from -/

/-- A software-coherent extent of two 2 MiB regions from 0, open to host 5 on head 0. -/
def soft : Extent := { state := .active, gen := 1, len := 2, acl := [⟨true, 0, 5⟩] }

/-- A directory extent of one region behind it. -/
def dirx : Extent := { state := .active, gen := 1, base := 2, len := 1, coh := 1, acl := [⟨true, 0, 5⟩] }

/-- A composition with a generous share of everything. -/
def comp0 : Comp := { hosts := [5], quota := [1024, 1024, 1024, 1000000, 1000, 1000, 64, 1024], shareNow := 1000000, budgetNow := 1000 }

/-- A head whose link is up. -/
def upHead : Head := { perst := false, up := true, width := 5, rate := 4, bme := true }

/-- A block that runs: memory trained and scrubbed, head 0 up, one composition, one extent of each coherence mode. -/
def live : State :=
  { time := { elapsed := 1000000000, counter := 4000000000 }
    med := { p := 2 ^ 33, front := 2 ^ 33 }
    exts := ⟨[(0, soft), (1, dirx)]⟩
    comps := ⟨[(0, comp0)]⟩
    heads := ⟨[(0, upHead)]⟩
    eng := { ctxs := ⟨[(0, { enable := true, segCount := 1, segBase := 16, hostMask := 1 })]⟩ }
    regs := { committed := ⟨[(offHed 0 + 0x100, 0xC000100000000000#64)]⟩ }
    sec := { running := true, loaded := true, mortar := true, fw := true, trained := true, active := true, scrubbed := true, boot := 1 } }

/-- The first line of the directory extent. -/
def dl : Nat := 65536

/-- Some data. -/
def data1 : Line := 0x1122334455667788#512

/-- A flag's line: EXPECT 0, SEQ 0, action WRITE, its CRC-8 of R72, and payload 7. -/
def flagLine (action : Nat) : Line :=
  let t := action * 2 ^ 48
  BitVec.ofNat 512 ((t + crc8 (bytesOf 7 t) * 2 ^ 56) * 2 ^ 448 + 7)

/-- That flag, held. -/
def held1 (action : Nat) : HeldFlag :=
  { seq := 0, expect := 0, action := action, payload := flagLine action, be := beAll, line := 1, head := 0, tag := 3, landedAt := 0, limit := 1000 }

/-- Head 0 routes every port. -/
def routed : RegSt := { committed := ⟨[(offHed 0 + 0x140, BitVec.ofNat 64 (2 ^ 31 + 4095 * 2 ^ 16))]⟩ }

/-- A transaction of `dl` that waits for host 5 and for the buffer of die 3. -/
def twoOut : Trans :=
  { req := { kind := .memRd, cls := .rdE, src := 7, line := dl }
    snoops := [{ spid := 5, op := .inv, head := 0, sentAt := some 0, limit := 4194304 }], recalls := [(3, .recallInv)] }

/-- A full write to `dl` that waits. -/
def waitWr : LineReq := { kind := .memWr, cls := .wr, src := 5, line := dl, data := data1, be := beAll, full := true }

/-- A schedule that permits patrol, calibration, audit, resynchronisation, lane samples and telemetry in every slot. -/
def anyTime : RegSt :=
  { committed := ⟨(List.range 6).flatMap (fun i =>
      [(offTimSched + 16 * i, 0xFFFFFFFFFFFFFFFF#64), (offTimSched + 16 * i + 8, BitVec.ofNat 64 (2 ^ 48 + 0xFFFF * 2 ^ 32 + i + 1))])⟩ }

/-- An entry of one holder. -/
def heldBy (st : DirState) (p : Nat) : DirEntry := { comp := 0, st := st, ptrs := [p], order := 0 }

/-- A message for `dl` at the front of the link to die 3, whose buffer holds some lines. -/
def asked (m : BufMsg) (rows : List (Nat × BufLine)) : State :=
  { live with toBuf := ⟨[(12, [{ msg := m, line := dl }])]⟩, bufs := ⟨[(3, ⟨rows⟩)]⟩ }

/-- A buffer that holds no copy of `dl` answers so. -/
def missed (m : BufMsg) : FromBuf := { msg := m, ans := .miss, line := dl, data := 0, poison := false }

/-- A frame of a domain. -/
def fr (d : Dom) (sel : Nat) (l : List (Nat × Nat)) : Frame := { dom := d, sel := sel, words := ⟨l.map (fun x => (x.1, BitVec.ofNat 64 x.2))⟩ }

/-- A state whose engine holds one frame. -/
def withFrame (s : State) (f : Frame) : State := { s with regs := { s.regs with queue := [f] } }

/-- CREATE of extent 2, one region at 3, software coherent, open to host 5 on head 0. -/
def extFrame : Frame := fr .adr 2 [(offAdrRange, 2 ^ 32 + 3), (offAdrAttr, 2 ^ 32 + 1), (offAdrAcl, 0x10005)]

/-- An active ring pair whose queues, doorbell and status lines lie in the software extent. -/
def ring0 : Ring :=
  { state := .active, version := 2, sqEntries := 16, sqBase := 1, cqEntries := 16, cqBase := 2, doorbell := 192, status := 193, verMask := 6 }

/-- CREATE of ring 3 with the queues of `ring0` two pages further on. -/
def ringFrame : Frame :=
  fr .rng 3 [(offRngSq, 2 ^ 32 * 16 + 3), (offRngCq, 2 ^ 32 * 16 + 4), (offRngLines, 320), (offRngLines + 8, 321), (offRngCtr, 0),
    (offRngAttr, 20 * 2 ^ 32 + 6 * 2 ^ 16 + 1)]

/-- A fetched command of ring 0. -/
def cmd0 : Cmd := { ring := 0, seq := 0, desc := 0, slots := 1 }

/-- The live block with ring 0 and some commands. -/
def withCmds (l : List (Nat × Cmd)) : State := { live with rings := ⟨[(0, ring0)]⟩, cmds := ⟨l⟩, nextCid := 9 }

/-- The live block whose ring 0 has been woken with a tail in its doorbell line. -/
def wokenAt (tail : Nat) : State :=
  { live with rings := ⟨[(0, { ring0 with woken := true })]⟩, mem := if tail = 0 then [] else [(64 * 192, BitVec.ofNat 8 tail)] }

/-- What the fetcher reads of the one descriptor that waits there. -/
def slot1 : (Nat × Nat) × State :=
  let s := ((wokenAt 1).ownRead [] (64 * 192) 8).2.modRing 0 (fun x => { x with woken := false, sqTail := 1, cqHead := 0 })
  State.readSlot { s with fetchLast := s.fetchLast.set ring0.owner 0 } (s.ringAt 0) 0 []

/-- A LOCAL segment of sixteen pages from address 0, at 1 MiB of the store. -/
def seg0 : Seg :=
  { kind := 1, vbase := 0, len := 16, tbase := 0x100000, port := 0, head := 0, wr := true, pin := true, rc := false, pg := 0 }

/-- A running command of ring 0 with one work item, over `seg0`. -/
def run1 (desc : Nat) : Cmd := { cmd0 with desc := desc, phase := .running, total := 1, segs := [seg0] }

/-- The live block with that command, number 0. -/
def running (desc : Nat) : State := withCmds [(0, run1 desc)]

/-- A plain tensor reference of format `fmt` at `addr`. -/
def tref (addr fmt : Nat) : Nat := addr + fmt * 2 ^ 56 + 64 * 2 ^ 64

/-- FILL of one row of three INT32 or BF16 elements at address 0. -/
def fillDesc (fmt : Nat) : Nat := 0x02 + tref 0 fmt * 2 ^ 256 + 1 * 2 ^ 384 + 3 * 2 ^ 416 + 0x40000000 * 2 ^ 448

/-- MOVE of one row of three elements from address 0 to address 64. -/
def moveDesc : Nat := 0x01 + tref 0 0 * 2 ^ 256 + tref 64 0 * 2 ^ 384 + 1 * 2 ^ 512 + 3 * 2 ^ 544

/-- MOVE with a conversion from BF16 to INT32. -/
def convDesc : Nat := 0x01 + tref 0 2 * 2 ^ 256 + tref 64 0 * 2 ^ 384 + 1 * 2 ^ 512 + 3 * 2 ^ 544

/-- EWISE function 0 of one row of three elements from address 0 to address 64. -/
def ewiseDesc : Nat := 0x18 + tref 0 0 * 2 ^ 256 + tref 64 0 * 2 ^ 512 + 1 * 2 ^ 640 + 3 * 2 ^ 672

/-- CHECK of nine bytes at address 0. -/
def checkDesc : Nat := 0x08 + 9 * 2 ^ 320

/-- A state with three bytes at 1 MiB. -/
def withBytes (s : State) : State := { s with mem := [(0x100000, 1#8), (0x100001, 2#8), (0x10000B, 3#8)] }

/-- A group with one member, this controller, and ring 7 attached. -/
def grp1 : Grp := { state := .active, gkey := 9, comp := 0, size := 1, rx := 0x10000, rxlen := 3, list := 5, rings := ⟨[(7, ())]⟩ }

/-- The live block with group 1. -/
def withGrp (x : Grp) : State := { withCmds [] with eng := { live.eng with grps := ⟨[(1, x)]⟩ } }

/-- CREATE of group 1: a list of one member at page 5, three receive pages. -/
def grpFrame : Frame := fr .grp 1 [(offGrp, 9 * 2 ^ 32 + 1), (offGrpLoc, 3 * 2 ^ 48 + 2 ^ 32 + 5)]

/-- An active index. -/
def idx1 : Idx := { state := 1, epoch := 2, reserved := 4, open_ := [(3, 0), (4, 8)] }

/-- CREATE of index 2, of class L, with one node of eight dimensions in BF16. -/
def idxFrame : Frame := fr .idx 2 [(offIdxGeom, 2 ^ 32 + 8 * 2 ^ 16 + 8 * 2 ^ 7 + 1), (offIdxAttr, 2 ^ 52 + 2 ^ 51 + 1)]

/-- A member list at page 5 of one entry: port 0, receive pages at 0. -/
def grpList : List Host.Cell := [(0x5002, 1#8)]

/-- A table descriptor at 1 MiB: version 5, two rows of sixteen elements from 512 KiB, `stride` bytes apart. -/
def withTblDesc (s : State) (stride : BitVec 8) : State :=
  { s with mem := [(0x100002, 8#8), (0x100008, 2#8), (0x100010, 16#8)] ++ (if stride = 0 then [] else [(0x100014, stride)]) ++ [(0x100018, 5#8)] }

/-- TABLE_PUBLISH of table 3 from the descriptor at address 0. -/
def publishDesc : Nat := 0x2A + 3 * (2 ^ 160 * 2 ^ 160)

/-- The state in which it runs. -/
def publishing (stride : BitVec 8) : State := withTblDesc (running publishDesc) stride

/-- A table version. -/
def ver5 (state bound : Nat) : TblVer := { ver := 5, state := state, base := 0x80000, rows := 2, width := 16, stride := 64, fmt := 0, ext := 0, gen := 1, bound := bound }

/-- TABLE_RETIRE of version 5 of table 3, bound `n` times. -/
def retiring (n : Nat) : State :=
  { running (0x2B + 5 * 2 ^ 256 + 3 * 2 ^ 288) with
    eng := { live.eng with tbls := ⟨[(3, { comp := 0, vers := [ver5 3 n] })]⟩, rowCache := ⟨[(0, { dpa := 0x80000, tbl := 3, ver := 5, comp := 0, freq := 1 })]⟩ } }

/-- DUMP_WATCH for two dumps within 5 µs. -/
def watchDesc : Nat := 0x48 + 2 * 2 ^ 448 + 5 * 2 ^ 480

/-- A watch of command 0 that has taken `n` dumps. -/
def watch1 (n since : Nat) : Watch := { cid := 0, armed := true, since := since, taken := n }

/-- The state in which it runs. -/
def watching (n since : Nat) : State := { running watchDesc with eng := { live.eng with watches := [watch1 n since] } }

/-- A HOST segment of sixteen pages from address 0, migrated in 64 KiB pages, at 1 MiB of host memory behind head 0. -/
def hostSeg : Seg := { seg0 with kind := 3, pin := false }

/-- A MOVE over it, with a tile in progress. -/
def tileCmd : Cmd := { run1 0x01 with segs := [hostSeg], busy := ⟨[(1248, ())]⟩ }

/-- That command, with a migration pool of some frames, and pages. -/
def migrating (pool : Nat) (pages : List (Nat × MigPage)) : State :=
  { withCmds [(0, tileCmd)] with
    comps := ⟨[(0, { comp0 with mig := { enable := true, word := pool * 2 ^ 32, ext := 0, gen := 1 } })]⟩, eng := { live.eng with pages := ⟨pages⟩ } }

/-- A page of it. -/
def page1 (st : PageState) (pieces : List (Nat × Unit)) : MigPage :=
  { comp := 0, head := 0, big := false, host := 0x100000, frame := 0, state := st, pieces := ⟨pieces⟩ }

/-- A read of 64 bytes at port 2 for command 0, sent 100 ns before. -/
def rem1 (p : Purpose) (limit : Nat) : Remote :=
  { head := 0, host := false, port := 2, write := false, addr := 0, len := 64, purpose := p, cid := some 0, issued := 999999900,
    sent := some 999999900, limit := limit }

/-- The live block with that request. -/
def remoting (r : Remote) : State := { running 0x10 with remotes := ⟨[(4, r)]⟩, nextId := 5 }

/-- The software extent, mirrored at port 2. -/
def mir1 (m : MirState) (dirty : List (Nat × Unit)) : Extent :=
  { soft with prot := 1, partner := 2, pbase := 8, mir := m, dirty := ⟨dirty⟩ }

/-- The live block with it, probes at 1 ms, a route to port 2 and a schedule that permits resynchronisation. -/
def mirroring (e : Extent) : State :=
  { live with
    exts := ⟨[(0, e)]⟩
    regs := { committed := ⟨[(offMedMirCfg, BitVec.ofNat 64 (2 ^ 16 + 1))] ++ [(offHed 0 + 0x140, BitVec.ofNat 64 (2 ^ 31 + 4095 * 2 ^ 16)), (offHed 0 + 0x100, 0xC000100000000000#64)] ++ anyTime.committed.rows⟩ } }

/-- The live block whose store and media are as given. -/
def withMed (m : MedSt) : State := { live with med := { m with p := 2 ^ 33, front := 2 ^ 33 } }

/-- The live block with a rescue pool of two regions from 100, a rebuild of region 0, and media as given. -/
def withPool (m : MedSt) : State :=
  { withMed m with regs := { committed := ⟨[(offMedRescue, BitVec.ofNat 64 (2 * 2 ^ 22 + 100))] ++ live.regs.committed.rows⟩ } }

/-- A DIMM population of one channel. -/
def dimm1 : Dimm :=
  { kind := .rdimm, stack := 1, capGiB := 64, x8 := false, density := 16, ranks := 2, dpc := 1
    spdRate := 4, trained := true, drfm := false, rfm := true, raaimt := 8 }

/-- The live block with a channel's state. -/
def withChan (ch : Nat) (c : Chan) : State :=
  withMed { dimm := some dimm1, chans := ⟨[(ch, c)]⟩
            banks := ⟨[(0, { raa := 9, rows := [] }), (1, { raa := 3, rows := [{ row := 7, count := 70000 }], row := some 7 })]⟩ }

/-- The block before its memory is trained. -/
def untrained : State := { live with sec := { live.sec with trained := false, active := false, scrubbed := false }, med := {} }

/-- The block in its start-up scrub, four regions from the end, with a byte and a mark there. -/
def scrubbing : State :=
  { live with
    sec := { live.sec with scrubbed := false }, med := { p := 8 * 2 ^ 21, front := 4 * 2 ^ 21 }
    mem := [(8388608, 1#8), (20000000, 3#8)], poison := ⟨[(131072, ())]⟩ }

/-- The answer of a read of host 5 that waits for a calibration of channel 3. -/
def heldRd : CalAnswer := { req := { kind := .memRd, cls := .unc, src := 5, line := 12, tag := 9 }, data := data1, poison := false }

/-- The block started as far as `x` says, with a byte in its store. -/
def started (x : SecSt) : State := { live with sec := x, mem := [(5, 1#8)] }

/-- A flash whose slot A has a header in order. -/
def flash1 (svn : Nat) : Nat := 0x465A5644 + 1 * 2 ^ 32 + svn * 2 ^ 48 + 64 * 2 ^ 64

/-- The live block with head 0 as given. -/
def withHead (x : Head) : State := { live with heads := ⟨[(0, x), (1, upHead)]⟩, power := { live.power with interval := 5 } }

/-- Head 0 in the state of a negotiation. -/
def negotiating (u : UathesSt) (go : Option Nat) : State :=
  { withHead { upHead with uathes := u, goAt := go, agreedAt := 990000000 } with
    regs := { committed := ⟨[(offSecPolicy, 1#64)] ++ live.regs.committed.rows⟩ } }

/-- The live block with Course die 3 as given, and a command with a tile on one of its engines. -/
def withCourse (x : CourseSt) : State :=
  { withCmds [(0, { run1 0x10 with busy := ⟨[(3, ())]⟩, begun := ⟨[(12, ())]⟩ }), (1, cmd0)] with courses := ⟨[(3, x)]⟩ }

/-- The live block under Plumb, its counter at `c`. -/
def timed (c : Nat) (t : TimeSt) : State :=
  { withCmds [(0, run1 (0x50 + 77 * 2 ^ 256))] with time := { t with elapsed := 1000000000, counter := c, plumbClk := true } }

/-- TIM_CFG with SRC 1, PLUMB_EN and an exchange every 100 ms. -/
def ptmRegs : RegSt := { committed := ⟨[(offTimCfg, 0x6400400101#64)] ++ live.regs.committed.rows⟩ }

/-- Ten bond periods. -/
def tenBonds : Nat := 10 * 2 ^ 26

/-- A TIME_SET that waits for the next accepted pulse. -/
def waitingSet1 : Cmd := run1 (0x50 + 77 * 2 ^ 256 + 2 ^ 160 * 2 ^ 160)

/-- The live block with a source's marks, buffers and MARK port, and STREAM mode. -/
def tracing (dest : Nat) (q : MarkSrc) (t : Trace) (p : MarkPort) : State :=
  { live with
    regs := { committed := ⟨[(offTraceCfg, BitVec.ofNat 64 (dest * 2 ^ 32 + 3))] ++ live.regs.committed.rows⟩ }
    obs := { srcs := ⟨[(7, q)]⟩, trace := [t, t, t, t], port := p } }

/-- A mark of source 7. -/
def mark1 : Mark := { time := 5, src := 7, kind := 1, comp := 0, sys := true, mseq := 0, payload := 9 }

/-- The live block with a ring of sixteen slots at page 4 for the log, the alarms and the events, and observation state. -/
def reporting (on : Bool) (o : ObsSt) : State :=
  let w := BitVec.ofNat 64 ((if on then 2 ^ 52 else 0) + 4 * 2 ^ 32 + 4)
  { live with mem := [(0x4003, 9#8)], obs := o, regs := { committed := ⟨[(offLogCfg, w), (offAlmCfg, w), (offRngEvtCfg, w)] ++ live.regs.committed.rows⟩ } }

/-- A log entry. -/
def entry1 : LogEntry := { time := 5, src := 7, kind := 1, sev := 2, body := 9 }

/-- An alarm occurrence. -/
def occ1 : AlarmAcc := { a := { last := 9, first := 8, detail := 7, count := 2 }, setsActive := some true }

/-- The live block with the SPDM state of head 0. -/
def speaking (x : Head) : State :=
  { live with
    heads := ⟨[(0, { x with perst := false, up := true, width := 5, rate := 4, bme := true })]⟩
    eng := { ctxs := ⟨[(0, { enable := true, segCount := 1, segBase := 16, hostMask := 1 })]⟩ } }

/-- The live block with Plinth's state. -/
def withPlinth (x : SecSt) : State :=
  { live with sec := { x with running := true, loaded := true, mortar := true, fw := true, trained := true, active := true, scrubbed := true } }

/-- A frame of a domain that stages nothing. -/
def bare (d : Dom) : Frame := fr d 0 []

/-! ### The manual's own examples and test vectors -/

/-- Chapter 2's example of R37 and R38: CH30, K2 and channel-local address 0x18D3_7A40. -/
theorem test_example_line_place :
    chanOf 0x00031A6F4B40 = 30 ∧ homeOf 0x00031A6F4B40 = 2 ∧ localAddr 0x00031A6F4B40 = 0x18D37A40 ∧ homeOf 0x80031A6F4B40 = 2 := by
  decide +kernel

/-- Chapter 4's example: CH22 of K2. -/
theorem test_example_line_hash : homeOf 0x000002001480 = 2 ∧ chanOf 0x000002001480 = 22 ∧ lineOf 0x000002001480 = 0x80052 := by
  decide +kernel

/-- Chapter 4's example: the words of its entry as it moves through E, M, O and O with a third sharer. -/
theorem test_example_entry_words :
    ([{ comp := 9, st := .e, ptrs := [4083], order := 0 }, { comp := 9, st := .m, ptrs := [4083], order := 0 },
      { comp := 9, st := .o, ptrs := [4083, 4089], order := 0 }, { comp := 9, st := .o, ptrs := [4083, 4089, 0x1A3], order := 0 }] :
      List DirEntry).map DirEntry.word =
      [0x0960000000000FF3, 0x0980000000000FF3, 0x09A1000000FF9FF3, 0x09A20001A3FF9FF3] := by
  decide +kernel

/-- Its first two rows as steps: C3's read miss is granted E, and its UPGRADE makes the line M. -/
def lineExample : State := { live with exts := ⟨[(1, { dirx with base := 16, comp := 9, acl := [] })]⟩, comps := ⟨[(9, comp0)]⟩ }

theorem test_example_read_miss :
    (match exec (.courseReadMiss 3 0x80052 {}) lineExample with
      | .next t => (t.dir.get? 0x80052).map DirEntry.word
      | _ => none) = some 0x0960000000000FF3 := by
  decide +kernel

/-- R72's example, and the trailer of chapter 6's. -/
theorem test_trailer_crc :
    crc8 [0x05, 0x00, 0x00, 0x00, 0x01, 0x00, 0x02] = 0xCF ∧ crc8 [0x07, 0x00, 0x00, 0x00, 0x10, 0x02, 0x02] = 0x95 := by
  decide +kernel

/-- R360, the four polynomials over "123456789". -/
theorem test_check_vectors :
    (List.range 4).map (fun p => checkValue p 0 0 0x393837363534333231 9) =
      [0xE3069283, 0xCBF43926, 0x995DC9BBDF1939FA, 0xAE8B14860A799888] := by
  decide +kernel

/-- R360, the folds of an address and a sequence number over no bytes. -/
theorem test_check_folds :
    (List.range 4).map (fun p => checkValue p 0x000000031A6F4B40 7 0 0) = [0x1A684B43, 0x1A684B43, 0x000000041A6F4B47, 0x000000041A6F4B47] ∧
      (List.range 4).map (fun p => checkValue p 0 0 0 0) = [0, 0, 0, 0] ∧ checkValue 3 0x000000031A6F4B40 8 0 0 = 0x0000000B1A6F4B48 := by
  decide +kernel

/-- Chapter 13's example: a segment at 0x7000_0000_0000, and CHECK of no bytes with SEQ 7 and POLY 3. -/
def checkExample : Cmd :=
  { cmd0 with
    desc := 0x208 + 0x70001A6F4B40 * 2 ^ 256 + 7 * 2 ^ 384 + 3 * 2 ^ 416, phase := .running, total := 1
    segs := [{ seg0 with vbase := 0x700000000000, len := 2 ^ 20, tbase := 0x300000000 }] }

theorem test_check_example :
    (match exec (.check 0 { src := 1376, items := 1, media := [] }) (withCmds [(0, checkExample)]) with
      | .next t => (t.cmds.get? 0).map (fun c => (c.r0, c.r1))
      | _ => none) = some (0x1A6F4B47, 0x00000004) := by
  decide +kernel

/-- Chapter 7's example: an MXFP8_E4M3 block of 3.7, −0.02 and 0.0005 has scale byte 0x79 and elements 0x77, 0xBA and 0x10. -/
theorem test_mx_example :
    (mxEncode 3 0 0 ([Val.of (37 / 10), Val.of (-1 / 50), Val.of (1 / 2000)] ++ List.replicate 29 (Val.of 0))).1 =
      0x79 * 2 ^ 256 + 0x10BA77 := by
  decide +kernel

/-- Chapter 9's example, on its four written elements: the smallest E of each width tried, the integers at width 7, and, with 96
elements kept, PLEN 13 and the header word. -/
def ashlarRefs : List Val := [.of (13 / 4), .of (-177 / 128), .of (11 / 16), .of (3 / 256)]

theorem test_ashlar_example :
    [4, 5, 6, 7].map (fun w => (scaledInts w 0 0 ashlarRefs).map (·.1)) = List.replicate 4 (some 129) ∧
      (scaledInts 7 0 0 ashlarRefs).map (·.2) = some [52, -22, 11, 0] ∧ epsilon 6 ashlarRefs = 13 / 256 ∧
      modeLen 1 4 1 7 96 = 13 ∧ blockLow 1 4 129 7 1 0 13 = 0x0D278141 := by
  decide +kernel

/-- Chapter 11's example: rows 42 and 9,000,000 of a table at 0x2000_0000 with a stride of 256. -/
theorem test_gather_example :
    homeOf (0x20000000 + 42 * 256) = 2 ∧ chanOf (0x20000000 + 42 * 256) = 10 ∧ homeOf (0x20000000 + 9000000 * 256) = 1 := by
  decide +kernel

/-- Chapter 12's example: records of 1,152 bytes, and the header of node 1,234,567. -/
def idxExample : Idx :=
  { words := ⟨[(offIdxGeom, BitVec.ofNat 64 (2000000000 * 2 ^ 32 + 768 * 2 ^ 16 + 64 * 2 ^ 7 + 48)),
               (offIdxAttr, BitVec.ofNat 64 (9 * 2 ^ 52 + 2 ^ 51)), (offIdxMem, 0x10000000000#64)]⟩ }

theorem test_index_example :
    idxExample.stride = 1152 ∧ idxExample.slotLine 1234567 * 64 = 0x010054C55F80 ∧ homeOf 0x010054C55F80 = 2 := by
  decide +kernel

/-- Chapter 14's example: the one-shot window opens at B + 1 ms and lasts 300 ms. -/
theorem test_quiet_window_example :
    1000 * 2 ^ 26 = 0x0000000FA0000000 ∧ windowOpen 0xFA03D0900 300000 (0xFA0000000 + 3999999) = false ∧
      windowOpen 0xFA03D0900 300000 (0xFA0000000 + 4000000) = true ∧ windowOpen 0xFA03D0900 300000 (0xFA0000000 + 1203999999) = true ∧
      windowOpen 0xFA03D0900 300000 (0xFA0000000 + 1204000000) = false := by
  decide +kernel

/-- Chapter 15's example: at 32.94 A a 1 ms limit of 30 A allows an average of 29.994 A and not one of 29.995 A. -/
def railAt (mA : Nat) : State :=
  { live with
    regs := { committed := ⟨[(offPwrRail, BitVec.ofNat 64 (300 * 2 ^ 32 + 360 * 2 ^ 16 + 400))]⟩ }
    power := { avg := ⟨[(2, mA * 2 ^ 32 / 100)]⟩ } }

theorem test_rail_window_example :
    (railAt 29994).railFits 0 (3294 * 2 ^ 32 / 10) = true ∧ (railAt 29995).railFits 0 (3294 * 2 ^ 32 / 10) = false := by
  decide +kernel

/-- Chapter 17's example: with 1,203 bits burned, bit 1,203 is next. -/
theorem test_boot_bit_example :
    bootBit ⟨(List.range 1203).map (fun i => (i, ()))⟩ [] = some 1203 ∧ 1203 * 2 ^ 24 = 0x4B3000000 := by
  decide +kernel

/-- Chapter 18's example, the frame of the mistyped commit: RANGE at 0x108 of H3's page, after 41 commits. -/
def dcrState : State :=
  { live with
    med := { p := 2 ^ 43, front := 2 ^ 43 }
    regs := { status := ⟨[(Dom.commitOff (.hed 3), { done := 41 })]⟩
              queue := [fr (.hed 3) 0 [(offHed 3 + 0x100, 0x80200000 * 2 ^ 32), (offHed 3 + 0x108, 0xC0200001 * 2 ^ 32 + 0x200000)]] } }

theorem test_commit_status_example :
    (match exec .hedCommit dcrState with | .next t => t.statusWord (.hed 3) | _ => 0) = 0x0000002A01080003 := by
  decide +kernel

/-- Chapter 19's example: H7_RX9_P is bit 178 of the mark of TILE 0, index 7, and CH21_B_DQS3_c bit 209 of TILE 1, index 21, PART 0. -/
theorem test_contact_example :
    (match exec (.pinSample 0 1 ((List.range 81).map (fun i => if i = 7 then 2 ^ 50 else if i = 54 then 2 ^ 81 else 0))) live with
      | .next t => (t.obs.srcs.getD 1244 {}).queue.filterMap (fun m =>
          if fld m.payload 119 16 = 0 then none else some (fld m.payload 143 120, Nat.log2 (fld m.payload 119 0) + 112))
      | _ => []) = [(0x000700, 178), (0x011500, 209)] := by
  decide +kernel

/-- R129: the line of data 5, poisoned, is a codeword of RS(40, 33): it vanishes at α^0 to α^6. -/
theorem test_ecc_codeword : eccIsCodeword (eccCodeword 5#512 true false) = true := by decide +kernel

/-- R129, R130: symbols 4 to 7 are device 1 of an x4 DIMM, whose errors are corrected; on an x8 DIMM four bad symbols are not. -/
theorem test_ecc_device :
    decodeError false (eccBurst false (List.replicate 4 0 ++ List.replicate 4 7 ++ List.replicate 32 0)) = .corrected 1 ∧
    decodeError true (eccBurst true (List.replicate 4 0 ++ List.replicate 4 7 ++ List.replicate 32 0)) = .uncorrectable (some 0) := by
  decide +kernel

/-! ### Operands out of range: each check of WellFormed refuses the first value past its range -/

theorem test_head_range : (Instr.memSpecRd 12 5 0).wellFormed = false ∧ (Instr.memSpecRd 11 5 0).wellFormed = true := by decide +kernel
theorem test_tag_range : (Instr.memInv 0 65536 5 0 .i .none).wellFormed = false ∧ (Instr.memInv 0 65535 5 0 .i .none).wellFormed = true := by decide +kernel
theorem test_spid_range : (Instr.memSpecRd 0 4080 0).wellFormed = false ∧ (Instr.memSpecRd 0 4079 0).wellFormed = true := by decide +kernel
theorem test_dpa_range : (Instr.memSpecRd 0 5 (2 ^ 48)).wellFormed = false ∧ (Instr.memSpecRd 0 5 (2 ^ 48 - 1)).wellFormed = true := by decide +kernel
theorem test_line_range : (Instr.upgrade 0 (2 ^ 37)).wellFormed = false ∧ (Instr.upgrade 0 (2 ^ 37 - 1)).wellFormed = true := by decide +kernel
theorem test_course_range : (Instr.upgrade 16 0).wellFormed = false ∧ (Instr.upgrade 15 0).wellFormed = true := by decide +kernel
theorem test_keystone_range : (Instr.fwd 0 4).wellFormed = false ∧ (Instr.fwd 0 3).wellFormed = true := by decide +kernel
theorem test_die_range : (Instr.mortarLinkFailed 40 0).wellFormed = false ∧ (Instr.mortarLinkFailed 39 0).wellFormed = true := by decide +kernel
theorem test_channel_range : (Instr.refresh 32 none 1).wellFormed = false ∧ (Instr.refresh 31 none 1).wellFormed = true := by decide +kernel
theorem test_footing_range : (Instr.patrolScrub 8 []).wellFormed = false ∧ (Instr.patrolScrub 7 []).wellFormed = true := by decide +kernel
theorem test_extent_range : (Instr.extentDrained 16384).wellFormed = false ∧ (Instr.extentDrained 16383).wellFormed = true := by decide +kernel
theorem test_composition_range : (Instr.directoryQuotaRecall 256 0).wellFormed = false ∧ (Instr.directoryQuotaRecall 255 0).wellFormed = true := by decide +kernel
theorem test_ring_range : (Instr.ringZeroed 4096).wellFormed = false ∧ (Instr.ringZeroed 4095).wellFormed = true := by decide +kernel
theorem test_source_range : (Instr.markAccept 1428).wellFormed = false ∧ (Instr.markAccept 1427).wellFormed = true := by decide +kernel
theorem test_region_range : (Instr.regionRetired 4194304).wellFormed = false ∧ (Instr.regionRetired 4194303).wellFormed = true := by decide +kernel
theorem test_code_range : (Instr.heartbeat 12).wellFormed = false ∧ (Instr.keyUpdate 0 256).wellFormed = false ∧ (Instr.keyUpdate 0 255).wellFormed = true := by decide +kernel
theorem test_word_range : (Instr.pageFault 0 (2 ^ 64)).wellFormed = false ∧ (Instr.pageFault 0 (2 ^ 64 - 1)).wellFormed = true := by decide +kernel
theorem test_bar0_range : (Instr.commitWrite 0 (2 ^ 24) 0).wellFormed = false ∧ (Instr.commitWrite 0 (2 ^ 24 - 1) 0).wellFormed = true := by decide +kernel
theorem test_stream_range : (Instr.kSetGo 0 2 0).wellFormed = false ∧ (Instr.kSetGo 0 1 1).wellFormed = true := by decide +kernel
theorem test_media_range : (Instr.ringFetch 0 [(2 ^ 37, .clean)]).wellFormed = false ∧ (Instr.ringFetch 0 [(2 ^ 37 - 1, .clean)]).wellFormed = true := by decide +kernel
theorem test_run_range : (Instr.nop 0 { src := 1428, items := 1, media := [] }).wellFormed = false ∧ (Instr.nop 0 { src := 1427, items := 1, media := [] }).wellFormed = true := by decide +kernel
theorem test_access_size_range : (Instr.registerWrite 0 0 0 3 0).wellFormed = false ∧ (Instr.registerWrite 0 5 0 8 0).wellFormed = true := by decide +kernel
theorem test_vector_range : (Instr.msixVectorControl 0 2048 true).wellFormed = false ∧ (Instr.msixVectorControl 0 2047 true).wellFormed = true := by decide +kernel
theorem test_level_range : (Instr.railVoltageReached 0 17).wellFormed = false ∧ (Instr.railVoltageReached 0 16).wellFormed = true := by decide +kernel
theorem test_bank_range : (Instr.rfm 0 4096).wellFormed = false ∧ (Instr.rfm 0 4095).wellFormed = true ∧ (Instr.refresh 0 (some 4) 1).wellFormed = false ∧ (Instr.refresh 0 (some 3) 1).wellFormed = true := by decide +kernel
theorem test_dir_range : (Instr.uioMemoryRead 0 1 5 0 4 [] [(2 ^ 37, .none)]).wellFormed = false ∧ (Instr.uioMemoryRead 0 1 5 0 4 [] [(2 ^ 37 - 1, .none)]).wellFormed = true := by decide +kernel
theorem test_ack_word_range : (Instr.obsAlarmAck 0 4 0).wellFormed = false ∧ (Instr.obsAlarmAck 0 3 0).wellFormed = true := by decide +kernel
theorem test_readings_range : (Instr.thermalCollect [1, 2]).wellFormed = false ∧ (Instr.thermalCollect (List.replicate 184 0)).wellFormed = true := by decide +kernel

/-! ### Witnesses

`AtWitness x` is what `x` proves. A theorem `meets_N` says that the statement N gives its conclusion at the states and operands
written there; each `checked` inside it proves one hypothesis of N at them. -/

/-- What a proof proves. -/
def AtWitness {p : Prop} (_ : p) : Prop := p

/-- It holds. -/
theorem reached {p : Prop} (x : p) : AtWitness x := x

theorem meets_StepRunsFrontCommand (h : Obligations.StepRunsFrontCommand) :
    AtWitness (h (.memSpecRd 0 5 0) [] { live with pending := [.memSpecRd 0 5 0] } rfl) :=
  reached _

theorem meets_EmptyQueueIsOneEdge (h : Obligations.EmptyQueueIsOneEdge) :
    AtWitness (h live rfl) :=
  reached _

theorem meets_StepKeepsMemoryForm (h : Obligations.StepKeepsMemoryForm) :
    AtWitness (h { live with mem := [(0, 1#8)], pending := [.memSpecRd 0 5 0] } { live with mem := [(0, 1#8)] } checked rfl) :=
  reached _

theorem meets_StepsTakeNothingBack (h : Obligations.StepsTakeNothingBack) :
    AtWitness (h.1 { live with pending := [.memSpecRd 0 5 0] } live rfl) ∧
    AtWitness (h.2.1 { live with pending := [.memSpecRd 0 5 0] } live rfl) ∧
    AtWitness (h.2.2 (.memSpecRd 0 5 0) [] { live with pending := [.memSpecRd 0 5 0] } live rfl rfl) :=
  ⟨reached _, reached _, reached _⟩

theorem meets_ReadsAnswerTheLine (h : Obligations.ReadsAnswerTheLine) :
    AtWitness (h.1 0 1 5 0x40 .s .clean .none live 0 soft checked checked checked checked checked checked (.inl checked)) ∧
    AtWitness (h.1 0 1 5 0x40 .s .buffered .none { live with poison := NSet.add Tab.empty 1 } 0 soft checked checked checked checked checked checked (.inr checked)) ∧
    AtWitness (h.2.1 0 1 5 0x40 64 [] live 0 soft checked checked checked checked checked checked checked checked) ∧
    AtWitness (h.2.1 0 1 5 0x7F 1 [] live 0 soft checked checked checked checked checked checked checked checked) ∧
    AtWitness (h.2.2.1 0 1 5 0x40 [] [] live checked) ∧
    AtWitness (h.2.2.2 0 1 5 0x1FFFC0 .none live 0 soft checked checked checked checked checked) :=
  ⟨reached _, reached _, reached _, reached _, reached _, reached _⟩

theorem meets_RefusedRequestsMoveNoByte (h : Obligations.RefusedRequestsMoveNoByte) :
    AtWitness (((h 0 1 6 0 live checked).1 checked).1 .s {}) ∧
    AtWitness (((h 0 1 6 0 live checked).1 checked).2.1 .s .none) ∧
    AtWitness (((h 0 1 6 0 live checked).1 checked).2.2) ∧
    AtWitness ((h 0 1 6 0 live checked).2.1 checked) ∧
    AtWitness (((h 0 1 6 0 live checked).2.2 checked checked).1 data1 true .i {}) ∧
    AtWitness (((h 0 1 6 0 live checked).2.2 checked checked).2 data1 beAll false {}) :=
  ⟨reached _, reached _, reached _, reached _, reached _, reached _⟩

theorem meets_RequestsWithoutEffectOnTheStore (h : Obligations.RequestsWithoutEffectOnTheStore) :
    AtWitness ((h 0 1 5 0 live).1) ∧
    AtWitness ((h 0 1 5 0 live).2.1 checked 0) ∧
    AtWitness ((h 0 1 5 0 live).2.2.1 checked checked) ∧
    AtWitness ((h 0 1 5 0 live).2.2.2.1 checked checked) ∧
    AtWitness ((h 0 1 5 0 live).2.2.2.2 checked 1) :=
  ⟨reached _, reached _, reached _, reached _, reached _⟩

theorem meets_FullWritesLand (h : Obligations.FullWritesLand) :
    AtWitness (h.1 0 1 5 0x40 data1 true .i .clean .none live 0 soft checked checked checked checked checked checked) ∧
    AtWitness (h.1 0 1 5 0x400000 data1 false .i .clean .none live 1 dirx checked checked checked checked checked checked) ∧
    AtWitness (h.2 0 1 5 0x3FFFC0 7 true [] live 0 soft checked checked checked checked checked checked checked) :=
  ⟨reached _, reached _, reached _⟩

theorem meets_PartialWritesReplaceEnabledBytes (h : Obligations.PartialWritesReplaceEnabledBytes) :
    AtWitness (h.1 0 1 5 0x40 data1 0xF0#64 .none live 0 soft checked checked checked checked checked checked checked checked checked) ∧
    AtWitness (h.2 0 1 5 0x48 8 0x33 [] live 0 soft checked checked checked checked checked checked checked checked checked checked checked) :=
  ⟨reached _, reached _⟩

theorem meets_FlaggedStoresAreHeld (h : Obligations.FlaggedStoresAreHeld) :
    AtWitness ((h 0 1 5 (2 ^ 47) (1#512 <<< 511) beAll .none live checked checked).1 checked) ∧
    AtWitness ((h 0 1 5 (2 ^ 47) (flagLine 0) beAll .none { live with flags := ⟨[(5, { held := [held1 0] })]⟩ } checked checked).2.1 checked checked (.inr checked)) ∧
    AtWitness ((h 0 1 5 (2 ^ 47) (flagLine 0) beAll .none { live with flags := ⟨[(5, { next := 1 })]⟩ } checked checked).2.1 checked checked (.inl checked)) ∧
    AtWitness ((h 0 1 5 (2 ^ 47) (flagLine 0) beAll .none live checked checked).2.2 checked checked checked checked checked checked) :=
  ⟨reached _, reached _, reached _, reached _⟩

theorem meets_FlagsApplyInTurn (h : Obligations.FlagsApplyInTurn) :
    AtWitness (h 5 .none { live with flags := ⟨[(5, { held := [held1 0] })]⟩ } (held1 0) 0 soft checked checked checked checked checked checked checked checked checked checked checked checked) ∧
    AtWitness (h 5 .none { live with flags := ⟨[(5, { held := [held1 1] })]⟩ } (held1 1) 0 soft checked checked checked checked checked checked checked checked checked checked checked checked) ∧
    AtWitness (h 5 .none { live with flags := ⟨[(5, { held := [held1 2] })]⟩ } (held1 2) 0 soft checked checked checked checked checked checked checked checked checked checked checked checked) ∧
    AtWitness (h 5 .none { live with flags := ⟨[(5, { held := [held1 3] })]⟩ } (held1 3) 0 soft checked checked checked checked checked checked checked checked checked checked checked checked) :=
  ⟨reached _, reached _, reached _, reached _⟩

theorem meets_DiscardedFlagsLeaveNoTrace (h : Obligations.DiscardedFlagsLeaveNoTrace) :
    AtWitness (h.1 5 0 { live with flags := ⟨[(5, { held := [held1 0] })]⟩ } (held1 0) checked checked) ∧
    AtWitness (h.2.1 0 5#32 live checked checked) ∧
    AtWitness (h.2.2 0 0x80000000#32 { live with flags := ⟨[(5, { held := [held1 0] }), (7, { next := 3 })]⟩ } checked checked) :=
  ⟨reached _, reached _, reached _⟩

theorem meets_UnheldLinesAreGranted (h : Obligations.UnheldLinesAreGranted) :
    AtWitness (((h live dl 1 dirx checked checked checked checked checked checked checked checked).1 0 1 5 0x400000 checked checked checked checked checked).1) ∧
    AtWitness (((h live dl 1 dirx checked checked checked checked checked checked checked checked).1 0 1 5 0x400000 checked checked checked checked checked).2.1) ∧
    AtWitness (((h live dl 1 dirx checked checked checked checked checked checked checked checked).1 0 1 5 0x400000 checked checked checked checked checked).2.2) ∧
    AtWitness (((h live dl 1 dirx checked checked checked checked checked checked checked checked).2 15 checked checked checked checked).1) ∧
    AtWitness (((h live dl 1 dirx checked checked checked checked checked checked checked checked).2 15 checked checked checked checked).2) :=
  ⟨reached _, reached _, reached _, reached _, reached _⟩

theorem meets_CopiesAreGivenUp (h : Obligations.CopiesAreGivenUp) :
    AtWitness (h.1 0 1 5 0x400000 .s { live with dir := ⟨[(dl, heldBy .e 5)]⟩ } (heldBy .e 5) checked checked checked checked checked checked checked checked) ∧
    AtWitness (h.1 0 1 5 0x400000 .i { live with dir := ⟨[(dl, { comp := 0, st := .s, ptrs := [5, 4083], order := 0 })]⟩ } { comp := 0, st := .s, ptrs := [5, 4083], order := 0 } checked checked checked checked checked checked checked checked) ∧
    AtWitness (h.2.1 3 dl { live with dir := ⟨[(dl, heldBy .e 4083)]⟩, bufs := ⟨[(3, ⟨[(dl, { data := data1, own := true })]⟩)]⟩ } (heldBy .e 4083) { data := data1, own := true } checked checked checked checked checked checked) ∧
    AtWitness (h.2.2 3 dl 1 dirx { live with dir := ⟨[(dl, heldBy .m 4083)]⟩, bufs := ⟨[(3, ⟨[(dl, { data := data1, own := true, dirty := true })]⟩)]⟩ } (heldBy .m 4083) { data := data1, own := true, dirty := true } checked checked checked checked (.inl checked) checked checked checked checked) :=
  ⟨reached _, reached _, reached _, reached _⟩

theorem meets_BuffersAnswerMessages (h : Obligations.BuffersAnswerMessages) :
    AtWitness (((h 3 dl .fwd [] (asked .fwd []) checked).1 checked).1 checked) ∧
    AtWitness (((h 3 dl .recallShare [] (asked .recallShare []) checked).1 checked).2.1 checked) ∧
    AtWitness (((h 3 dl .recallInv [] (asked .recallInv []) checked).1 checked).2.2.1 checked) ∧
    AtWitness (((h 3 dl .presence [] (asked .presence []) checked).1 checked).2.2.2 checked) ∧
    AtWitness (((h 3 dl .fwd [] (asked .fwd [(dl, { data := data1 })]) checked).2 { data := data1 } checked checked).1 checked) ∧
    AtWitness (((h 3 dl .recallShare [] (asked .recallShare [(dl, { data := data1, own := true })]) checked).2 { data := data1, own := true } checked checked).2.1 checked) ∧
    AtWitness (((h 3 dl .recallInv [] (asked .recallInv [(dl, { data := data1, dirty := true })]) checked).2 { data := data1, dirty := true } checked checked).2.2.1 checked) ∧
    AtWitness (((h 3 dl .presence [] (asked .presence [(dl, { data := data1 })]) checked).2 { data := data1 } checked checked).2.2.2 checked) :=
  ⟨reached _, reached _, reached _, reached _, reached _, reached _, reached _, reached _⟩

theorem meets_AnswersAdvanceTransactions (h : Obligations.AnswersAdvanceTransactions) :
    AtWitness (h.1 3 0 (missed .presence) [] { comp := 0, st := .s, ptrs := [5, 4083], order := 0 } { live with fromBuf := ⟨[(12, [missed .presence])]⟩, dir := ⟨[(dl, { comp := 0, st := .s, ptrs := [5, 4083], order := 0 })]⟩ } checked checked (by simp) checked checked checked checked) ∧
    AtWitness (h.2.1 3 0 (missed .recallInv) [] twoOut { live with fromBuf := ⟨[(12, [missed .recallInv])]⟩, trans := ⟨[(dl, twoOut)]⟩ } checked checked (by simp) checked checked checked checked (.inl checked)) ∧
    AtWitness (h.2.2.1 0 5 dl .i live checked checked) ∧
    AtWitness (h.2.2.2.1 0 5 dl .i twoOut { spid := 5, op := .inv, head := 0, sentAt := some 0, limit := 4194304 } { live with trans := ⟨[(dl, twoOut)]⟩ } checked checked checked checked (.inr checked) checked) ∧
    AtWitness (h.2.2.2.2.1 0 5 dl twoOut { live with trans := ⟨[(dl, twoOut)]⟩ } checked checked checked checked checked checked checked checked) ∧
    AtWitness (h.2.2.2.2.2 0 waitWr [] 1 dirx { live with waitQ := ⟨[(0, [waitWr])]⟩ } checked checked checked checked checked checked checked checked checked checked checked checked checked) :=
  ⟨reached _, reached _, reached _, reached _, reached _, reached _⟩

theorem meets_HostsGoDownAndTheDirectoryIsKept (h : Obligations.HostsGoDownAndTheDirectoryIsKept) :
    AtWitness ((h.1.1 5 dl twoOut { spid := 5, op := .inv, head := 0, sentAt := some 0, limit := 4194304 } 0 { live with trans := ⟨[(dl, twoOut)]⟩, time := { live.time with elapsed := 4194303 } } checked checked checked).1 checked) ∧
    AtWitness ((h.1.1 5 dl twoOut { spid := 5, op := .inv, head := 0, sentAt := some 0, limit := 4194304 } 0 { live with trans := ⟨[(dl, twoOut)]⟩ } checked checked checked).2 checked checked checked) ∧
    AtWitness ((h.1.2.1 0 { live with heads := ⟨[(0, { upHead with up := false, wasDown := true, downAt := 900000000, graceMs := 101 })]⟩ } checked checked).1 checked) ∧
    AtWitness ((h.1.2.1 0 { live with heads := ⟨[(0, { upHead with up := false, wasDown := true, downAt := 900000000 })]⟩, dir := ⟨[(dl, heldBy .e 5)]⟩, regs := routed } checked checked).2 checked checked checked) ∧
    AtWitness ((h.1.2.2.1 0 0x40000FF0#32 live checked checked).1 checked) ∧
    AtWitness ((h.1.2.2.1 0 0x40000005#32 { live with dir := ⟨[(dl, heldBy .e 5), (dl + 1, heldBy .s 9)]⟩ } checked checked).2 5 checked checked checked checked) ∧
    AtWitness (h.1.2.2.2 0 0x80000005#32 { live with hostDown := ⟨[(5, ())]⟩ } checked checked) ∧
    AtWitness (h.2.1 0 0x10000#64 live checked) ∧
    AtWitness (h.2.2.1 0 0x0002000000000001#64 { live with lost := ⟨[(1, ()), (2, ()), (3, ())]⟩ } checked) ∧
    AtWitness ((h.2.2.2 dl { comp := 0, st := .s, ptrs := [5, 4083], order := 0 } { live with dir := ⟨[(dl, { comp := 0, st := .s, ptrs := [5, 4083], order := 0 })]⟩, regs := anyTime } checked checked checked).1 .single checked) ∧
    AtWitness ((h.2.2.2 dl { comp := 0, st := .s, ptrs := [5, 4083], order := 0 } { live with dir := ⟨[(dl, { comp := 0, st := .s, ptrs := [5, 4083], order := 0 })]⟩, regs := anyTime } checked checked checked).2 checked) :=
  ⟨reached _, reached _, reached _, reached _, reached _, reached _, reached _, reached _, reached _, reached _, reached _⟩

theorem meets_ExtentCommitsDecide (h : Obligations.ExtentCommitsDecide) :
    AtWitness ((h (withFrame live extFrame) extFrame [] rfl checked).1 checked checked) ∧
    AtWitness ((h (withFrame live (fr .adr 2 [(offAdrAttr, 1)])) (fr .adr 2 [(offAdrAttr, 1)]) [] rfl checked).2.1 ⟨.zero, offAdrRange, true⟩ checked checked checked) ∧
    AtWitness ((h (withFrame live (fr .adr 0 [(offAdrAttr, 2)])) (fr .adr 0 [(offAdrAttr, 2)]) [] rfl checked).2.2.1 soft checked checked checked) ∧
    AtWitness ((h (withFrame live (fr .adr 0 [(offAdrAttr, 2 ^ 32 + 3), (offAdrAcl, 0x0005)])) (fr .adr 0 [(offAdrAttr, 2 ^ 32 + 3), (offAdrAcl, 0x0005)]) [] rfl checked).2.2.2 soft checked checked checked checked checked) :=
  ⟨reached _, reached _, reached _, reached _⟩

theorem meets_ReleasedExtentsBecomeFree (h : Obligations.ReleasedExtentsBecomeFree) :
    AtWitness (h.1 0 { soft with state := .draining, scrub := true } { live with exts := ⟨[(0, { soft with state := .draining, scrub := true })]⟩ } checked checked checked checked) ∧
    AtWitness (h.1 0 { soft with state := .draining, scrub := false } { live with exts := ⟨[(0, { soft with state := .draining, scrub := false })]⟩ } checked checked checked checked) ∧
    AtWitness (h.2.1 0 { soft with state := .scrubbing } { live with mem := [(5, 7#8), (2 ^ 22, 1#8)], exts := ⟨[(0, { soft with state := .scrubbing })]⟩ } checked checked checked checked checked) ∧
    AtWitness (h.2.2.1 0 8 1 { soft with state := .scrubbing, zeroed := true, share := some (8, 1) } { live with mem := [(2 ^ 24, 7#8), (2 ^ 25, 1#8)], exts := ⟨[(0, { soft with state := .scrubbing, zeroed := true, share := some (8, 1) })]⟩ } checked checked checked) ∧
    AtWitness (h.2.2.2 0 1 5 0 { soft with acl := [⟨true, 0, 5⟩, ⟨true, 0, 6⟩] } { live with exts := ⟨[(0, { soft with acl := [⟨true, 0, 5⟩, ⟨true, 0, 6⟩] })]⟩ } checked checked checked checked checked) :=
  ⟨reached _, reached _, reached _, reached _, reached _⟩

theorem meets_CompositionCommitsDecide (h : Obligations.CompositionCommitsDecide) :
    AtWitness ((h (withFrame live (fr .cmp 1 [(offCmpCtl, 1), (offCmpQuota + 24, 7)])) (fr .cmp 1 [(offCmpCtl, 1), (offCmpQuota + 24, 7)]) [] rfl checked).1 checked checked checked) ∧
    AtWitness ((h (withFrame live (fr .cmp 0 [(offCmpCtl, 1)])) (fr .cmp 0 [(offCmpCtl, 1)]) [] rfl checked).2.1 checked checked) ∧
    AtWitness ((h (withFrame { live with exts := Tab.empty, eng := {} } (fr .cmp 0 [(offCmpCtl, 2)])) (fr .cmp 0 [(offCmpCtl, 2)]) [] rfl checked).2.2.1 checked checked checked) ∧
    AtWitness ((h (withFrame live (fr .cmp 0 [(offCmpCtl, 2)])) (fr .cmp 0 [(offCmpCtl, 2)]) [] rfl checked).2.2.2.1 checked checked checked) ∧
    AtWitness ((h (withFrame live (fr .cmp 0 [(offCmpCtl, 2 ^ 16 + 3), (offCmpHosts, 5), (offCmpQuota, 1024), (offCmpQuota + 8, 7)])) (fr .cmp 0 [(offCmpCtl, 2 ^ 16 + 3), (offCmpHosts, 5), (offCmpQuota, 1024), (offCmpQuota + 8, 7)]) [] rfl checked).2.2.2.2 comp0 checked checked checked checked) :=
  ⟨reached _, reached _, reached _, reached _, reached _⟩

theorem meets_BoundariesRenewSharesAndCutsRecall (h : Obligations.BoundariesRenewSharesAndCutsRecall) :
    AtWitness ((h.1 live).1 checked) ∧
    AtWitness ((h.1 { live with time := { live.time with boundaryDue := true, boundaryAt := 77 } }).2 checked) ∧
    AtWitness ((h.2 0 0 live).1 checked) ∧
    AtWitness ((h.2 0 0 { live with comps := ⟨[(0, { comp0 with quota := [1024, 0] })]⟩, dir := ⟨[(dl, { comp := 0, st := .s, ptrs := [4083], order := 0 })]⟩ }).2 dl { comp := 0, st := .s, ptrs := [4083], order := 0 } checked checked checked checked checked checked checked checked) :=
  ⟨reached _, reached _, reached _, reached _⟩

theorem meets_RingCommitsDecide (h : Obligations.RingCommitsDecide) :
    AtWitness ((h (withFrame live ringFrame) ringFrame [] rfl checked).1 checked checked checked) ∧
    AtWitness ((h (withFrame live (fr .rng 3 [(offRngAttr, 1)])) (fr .rng 3 [(offRngAttr, 1)]) [] rfl checked).2.1 ⟨.zero, offRngSq, true⟩ checked checked checked) ∧
    AtWitness ((h (withFrame (withCmds [(0, cmd0), (1, { cmd0 with phase := .running }), (2, { cmd0 with ring := 1 })]) (fr .rng 0 [(offRngAttr, 2)])) (fr .rng 0 [(offRngAttr, 2)]) [] rfl checked).2.2.1 ring0 checked checked (.inl checked) checked checked) ∧
    AtWitness ((h (withFrame live (fr .rng 0 [(offRngEvtCfg, 2 ^ 52 + 8 * 2 ^ 32)])) (fr .rng 0 [(offRngEvtCfg, 2 ^ 52 + 8 * 2 ^ 32)]) [] rfl checked).2.2.2.1 checked checked checked) ∧
    AtWitness ((h (withFrame live (fr .rng 0 [(offRngAttr, 3)])) (fr .rng 0 [(offRngAttr, 3)]) [] rfl checked).2.2.2.2 checked) :=
  ⟨reached _, reached _, reached _, reached _, reached _⟩

theorem meets_RingsAndVectorsChangeState (h : Obligations.RingsAndVectorsChangeState) :
    AtWitness (h.1.1 0 { ring0 with state := .zeroing } { live with rings := ⟨[(0, { ring0 with state := .zeroing })]⟩, mem := [(0x2001, 7#8)] } checked checked) ∧
    AtWitness (h.1.2 0 { ring0 with state := .destroying } { live with rings := ⟨[(0, { ring0 with state := .destroying })]⟩ } checked checked checked) ∧
    AtWitness (h.2 0 3 false { live with msix := ⟨[(3, { pend := true })]⟩ } checked checked) ∧
    AtWitness (h.2 0 2047 true live checked checked) :=
  ⟨reached _, reached _, reached _, reached _⟩

theorem meets_RingFetchTakesDescriptors (h : Obligations.RingFetchTakesDescriptors) :
    AtWitness ((h 0 [] live).1 checked) ∧
    AtWitness (((h 0 [] (wokenAt 17)).2 { ring0 with woken := true } _ _ _ checked checked checked checked rfl rfl).1 checked) ∧
    AtWitness (((h 0 [] { wokenAt 0 with rings := ⟨[(0, { ring0 with woken := true, cqTail := 17 })]⟩ }).2 { ring0 with woken := true, cqTail := 17 } _ _ _ checked checked checked checked rfl rfl).2.1 checked checked) ∧
    AtWitness (((h 0 [] (wokenAt 0)).2 { ring0 with woken := true } _ _ _ checked checked checked checked rfl rfl).2.2.1 checked checked) ∧
    AtWitness (((h 0 [] (wokenAt 1)).2 { ring0 with woken := true } _ _ _ checked checked checked checked rfl rfl).2.2.2 slot1.1.1 slot1.2 checked checked checked checked checked checked checked) :=
  ⟨reached _, reached _, reached _, reached _, reached _⟩

theorem meets_DispatchExaminesInOrder (h : Obligations.DispatchExaminesInOrder) :
    AtWitness ((h 0 0 [] (withCmds [(0, { cmd0 with readFail := 5 })]) { cmd0 with readFail := 5 } [] checked checked checked).1 checked) ∧
    AtWitness ((h 0 0 [] (withCmds [(0, { cmd0 with desc := 0x77 })]) { cmd0 with desc := 0x77 } [] checked checked checked).2.1 (3, 0) checked checked checked checked) ∧
    AtWitness ((h 0 0 [] (withCmds [(0, { cmd0 with desc := 0x277 })]) { cmd0 with desc := 0x277 } [] checked checked checked).2.1 (12, 0) checked checked checked checked) ∧
    AtWitness ((h 0 0 [] { withCmds [(0, { cmd0 with desc := 0x200 })] with eng := {} } { cmd0 with desc := 0x200 } [] checked checked checked).2.2 checked checked checked checked (.inr checked) (.inl checked) checked checked checked checked checked checked) :=
  ⟨reached _, reached _, reached _, reached _⟩

theorem meets_WaitsEndAtTheThresholdOrTheLimit (h : Obligations.WaitsEndAtTheThresholdOrTheLimit) :
    AtWitness (((h 0 (withCmds [(0, { cmd0 with desc := 9 * 2 ^ 128, phase := .waiting, waitLine := 1 })]) { cmd0 with desc := 9 * 2 ^ 128, phase := .waiting, waitLine := 1 } checked checked).1 0 ((withCmds [(0, { cmd0 with desc := 9 * 2 ^ 128, phase := .waiting, waitLine := 1 })]).ownRead [] 64 8).2 checked (.inr checked) checked).1 checked) ∧
    AtWitness (((h 0 { withCmds [(0, { cmd0 with desc := 9 * 2 ^ 128, phase := .waiting, waitLine := 1, total := 1 })] with mem := [(64, 9#8)] } { cmd0 with desc := 9 * 2 ^ 128, phase := .waiting, waitLine := 1, total := 1 } checked checked).1 9 (({ withCmds [(0, { cmd0 with desc := 9 * 2 ^ 128, phase := .waiting, waitLine := 1, total := 1 })] with mem := [(64, 9#8)] } : State).ownRead [] 64 8).2 checked (.inr checked) checked).2 checked (.inl checked) checked checked checked) ∧
    AtWitness ((h 0 (withCmds [(0, { cmd0 with desc := 9 * 2 ^ 128, phase := .waiting, waitLine := 1, total := 1, met := some 0 })]) { cmd0 with desc := 9 * 2 ^ 128, phase := .waiting, waitLine := 1, total := 1, met := some 0 } checked checked).2.1 checked (.inl checked) checked checked checked) ∧
    AtWitness ((h 0 (withCmds [(0, { cmd0 with desc := 9 * 2 ^ 128, phase := .waiting, waitLine := 1, total := 1, met := some 5 })]) { cmd0 with desc := 9 * 2 ^ 128, phase := .waiting, waitLine := 1, total := 1, met := some 5 } checked checked).2.2.1 5 checked checked) ∧
    AtWitness ((h 0 (withCmds [(0, { cmd0 with desc := 9 * 2 ^ 128, phase := .waiting, waitLine := 1, total := 1, met := some 0 })]) { cmd0 with desc := 9 * 2 ^ 128, phase := .waiting, waitLine := 1, total := 1, met := some 0 } checked checked).2.2.2.1 checked) ∧
    AtWitness ((h 0 (withCmds [(0, { cmd0 with phase := .waiting, waitFrom := 1000000000 - 2 ^ 20 })]) { cmd0 with phase := .waiting, waitFrom := 1000000000 - 2 ^ 20 } checked checked).2.2.2.2.1 checked checked) ∧
    AtWitness ((h 0 (withCmds [(0, { cmd0 with phase := .waiting, waitFrom := 1000000001 - 2 ^ 20 })]) { cmd0 with phase := .waiting, waitFrom := 1000000001 - 2 ^ 20 } checked checked).2.2.2.2.2 checked) :=
  ⟨reached _, reached _, reached _, reached _, reached _, reached _, reached _⟩

theorem meets_TilesEndAndAreCharged (h : Obligations.TilesEndAndAreCharged) :
    AtWitness ((h 0 (withCmds [(0, { run1 0x10 with pos := 1, busy := ⟨[(3, ())]⟩, engFrom := ⟨[(3, 999999930)]⟩ })]) { run1 0x10 with pos := 1, busy := ⟨[(3, ())]⟩, engFrom := ⟨[(3, 999999930)]⟩ } checked checked).1 3 comp0 checked checked checked) ∧
    AtWitness ((h 0 (withCmds [(0, { run1 0x10 with total := 2, busy := ⟨[(3, ())]⟩ })]) { run1 0x10 with total := 2, busy := ⟨[(3, ())]⟩ } checked checked).1 3 comp0 checked checked checked) ∧
    AtWitness ((h 0 (withCmds [(0, { run1 0x01 with pos := 1, busy := ⟨[(1248, ())]⟩ })]) { run1 0x01 with pos := 1, busy := ⟨[(1248, ())]⟩ } checked checked).2.1 1248 checked checked) ∧
    AtWitness ((h 0 (withCmds [(0, { run1 0x10 with stopping := true, stopAt := 999960000 })]) { run1 0x10 with stopping := true, stopAt := 999960000 } checked checked).2.2 checked checked) :=
  ⟨reached _, reached _, reached _, reached _⟩

theorem meets_CompletionsWriteTheirRecord (h : Obligations.CompletionsWriteTheirRecord) :
    AtWitness (h 0 (withCmds [(0, { cmd0 with desc := 0x100000200, phase := .ended, r0 := 2 ^ 33 })]) { cmd0 with desc := 0x100000200, phase := .ended, r0 := 2 ^ 33 } ring0 checked checked checked checked checked checked) :=
  reached _

theorem meets_UnitsRunWorkItems (h : Obligations.UnitsRunWorkItems) :
    AtWitness (((h (unitOps[1]) (List.getElem_mem (by decide)) 0 { src := 1248, items := 1 } (running (fillDesc 0)) (run1 (fillDesc 0)) checked checked checked checked checked checked checked checked).2.2.2.2 checked checked (.inr checked) checked checked)) ∧
    AtWitness (((h (unitOps[0]) (List.getElem_mem (by decide)) 0 { src := 1248, items := 1 } (running (moveDesc)) (run1 (moveDesc)) checked checked checked checked checked checked checked checked).2.2.2.2 checked checked (.inr checked) checked checked)) ∧
    AtWitness (((h (unitOps[3]) (List.getElem_mem (by decide)) 0 { src := 1248, items := 1 } (running 0x10) (run1 0x10) checked checked checked checked checked checked checked checked).1 checked)) ∧
    AtWitness (((h (unitOps[3]) (List.getElem_mem (by decide)) 0 { src := 3, items := 1 } { running 0x10 with comps := ⟨[(0, { comp0 with shareNow := 0 })]⟩ } (run1 0x10) checked checked checked checked checked checked checked checked).2.1 checked checked)) ∧
    AtWitness (((h (unitOps[0]) (List.getElem_mem (by decide)) 0 { src := 1248, items := 1 } (running convDesc) (run1 convDesc) checked checked checked checked checked checked checked checked).2.2.1 checked)) ∧
    AtWitness (((h (unitOps[0]) (List.getElem_mem (by decide)) 0 { src := 1248, items := 1 } (withCmds [(0, run1 moveDesc), (1, { run1 moveDesc with busy := ⟨[(1248, ())]⟩ })]) (run1 moveDesc) checked checked checked checked checked checked checked checked).2.2.2.1 checked)) ∧
    AtWitness (((h (unitOps[2]) (List.getElem_mem (by decide)) 0 { src := 1376, items := 1 } (running checkDesc) (run1 checkDesc) checked checked checked checked checked checked checked checked).2.2.2.2 checked checked (.inr checked) checked checked)) :=
  ⟨reached _, reached _, reached _, reached _, reached _, reached _, reached _⟩

theorem meets_KeystonesRunTheirOpcodes (h : Obligations.KeystonesRunTheirOpcodes) :
    AtWitness ((h (keystoneOps[0]) (List.getElem_mem (by decide)) 0 1245 [] (running 0) (run1 0) checked checked checked checked checked checked).1 checked checked) ∧
    AtWitness ((h (keystoneOps[0]) (List.getElem_mem (by decide)) 0 1244 [] (running 0) (run1 0) checked checked checked checked checked checked).2.1 checked checked) ∧
    AtWitness ((h (keystoneOps[0]) (List.getElem_mem (by decide)) 0 1244 [] (running 0) (run1 0) checked checked checked checked checked checked).2.2 (.inl checked) checked checked checked checked checked) :=
  ⟨reached _, reached _, reached _⟩

theorem meets_AcquireDropsCopiesAndReleaseWaits (h : Obligations.AcquireDropsCopiesAndReleaseWaits) :
    AtWitness ((h 0 1244 [] { running (0x38 + 8 * 2 ^ 256) with eng := { live.eng with staged := ⟨[(3, ⟨[(1, { comp := 0, data := 0, poison := false })]⟩), (4, ⟨[(1, { comp := 0, data := 0, poison := false })]⟩)]⟩ } } (run1 (0x38 + 8 * 2 ^ 256)) checked checked checked checked checked checked checked checked checked checked).1 checked) ∧
    AtWitness ((h 1 1244 [] (withCmds [(0, run1 0x10), (1, run1 0x39)]) (run1 0x39) checked checked checked checked checked checked checked checked checked checked).2.1 checked (.inl checked)) ∧
    AtWitness ((h 0 1244 [] (running 0x39) (run1 0x39) checked checked checked checked checked checked checked checked checked checked).2.2 checked checked checked checked checked) :=
  ⟨reached _, reached _, reached _⟩

theorem meets_TileOpcodesWriteTheirRows (h : Obligations.TileOpcodesWriteTheirRows) :
    AtWitness ((h 0 1248 0 (withBytes (running (fillDesc 0))) (run1 (fillDesc 0)) checked checked checked checked checked checked checked checked checked (.inr checked) checked).1 seg0 0x100000 checked checked checked checked checked checked checked checked checked checked checked checked ⟨checked, ⟨0, soft, checked, checked, checked, checked⟩, checked, checked, checked, checked, checked, checked⟩) ∧
    AtWitness ((h 0 1248 0 (withBytes (running moveDesc)) (run1 moveDesc) checked checked checked checked checked checked checked checked checked (.inr checked) checked).2.1 seg0 seg0 0x100000 0x100040 checked checked checked checked checked checked checked checked checked checked checked checked ⟨checked, ⟨0, soft, checked, checked, checked, checked⟩, checked, checked, checked, checked, checked, checked⟩ ⟨checked, checked, checked⟩ checked checked checked checked checked ⟨checked, ⟨0, soft, checked, checked, checked, checked⟩, checked, checked, checked, checked, checked, checked⟩) ∧
    AtWitness ((h 0 74 0 (withBytes (running ewiseDesc)) (run1 ewiseDesc) checked checked checked checked checked checked checked checked checked (.inr checked) checked).2.2 seg0 seg0 0x100000 0x100040 checked checked checked checked checked checked checked checked checked checked checked checked checked checked checked checked ⟨checked, ⟨0, soft, checked, checked, checked, checked⟩, checked, checked, checked, checked, checked, checked⟩ ⟨checked, checked, checked⟩ checked checked checked checked checked checked ⟨checked, ⟨0, soft, checked, checked, checked, checked⟩, checked, checked, checked, checked, checked, checked⟩) :=
  ⟨reached _, reached _, reached _⟩

theorem meets_CheckFoldsItsRange (h : Obligations.CheckFoldsItsRange) :
    AtWitness (h 0 1376 (withBytes (running checkDesc)) (run1 checkDesc) seg0 0x100000 checked checked checked checked checked checked checked checked (.inr checked) checked checked checked checked checked checked ⟨checked, ⟨0, soft, checked, checked, checked, checked⟩, checked, checked, checked, checked, checked, checked⟩) :=
  reached _

theorem meets_GroupsAreCommittedAndAborted (h : Obligations.GroupsAreCommittedAndAborted) :
    AtWitness ((h.1 (withFrame { withCmds [] with mem := grpList } grpFrame) grpFrame [] [] rfl checked).1 0x10000 (((withFrame { withCmds [] with mem := grpList } grpFrame).taken []).ownRead [] 0x5000 16).2 0x10000 (memBase 0x10000) checked checked checked checked checked checked checked checked checked checked checked checked) ∧
    AtWitness ((h.1 (withFrame (withGrp grp1) (fr .grp 1 [(offGrp, 7)])) (fr .grp 1 [(offGrp, 7)]) [] [] rfl checked).2.1 checked) ∧
    AtWitness ((h.1 (withFrame (withGrp grp1) (fr .grp 1 [(offGrp, 2)])) (fr .grp 1 [(offGrp, 2)]) [] [] rfl checked).2.2.1 checked checked checked) ∧
    AtWitness ((h.1 (withFrame { withGrp grp1 with cmds := ⟨[(0, { run1 0x40 with group := 2 }), (1, { cmd0 with group := 2 })]⟩ } (fr .grp 1 [(offGrp, 2)])) (fr .grp 1 [(offGrp, 2)]) [] [] rfl checked).2.2.2.1 checked checked checked) ∧
    AtWitness ((h.1 (withFrame (withCmds []) (fr .grp 1 [(offGrp, 2)])) (fr .grp 1 [(offGrp, 2)]) [] [] rfl checked).2.2.2.2.1 checked checked) ∧
    AtWitness ((h.1 (withFrame (withGrp grp1) (fr .grp 1 [(offGrp, 3)])) (fr .grp 1 [(offGrp, 3)]) [] [] rfl checked).2.2.2.2.2.1 checked checked) ∧
    AtWitness ((h.1 (withFrame (withGrp { grp1 with rings := ⟨[(0, ())]⟩ }) (fr .grp 1 [(offGrp, 4)])) (fr .grp 1 [(offGrp, 4)]) [] [] rfl checked).2.2.2.2.2.2.1 checked checked) ∧
    AtWitness ((h.1 (withFrame (withGrp { grp1 with state := .aborted, epoch := 65535 }) (fr .grp 1 [(offGrp, 5), (offGrpGnext, 77)])) (fr .grp 1 [(offGrp, 5), (offGrpGnext, 77)]) [] [] rfl checked).2.2.2.2.2.2.2 checked checked) ∧
    AtWitness ((h.2.1 { withGrp grp1 with eng := { (withGrp grp1).eng with abortDue := [(1, 9 + 5 * 2 ^ 48)] } } 1 (9 + 5 * 2 ^ 48) [] rfl).1 checked checked checked) ∧
    AtWitness ((h.2.1 { withGrp grp1 with eng := { (withGrp grp1).eng with abortDue := [(1, 8)] } } 1 8 [] rfl).2 (.inr (.inl checked))) ∧
    AtWitness (h.2.2.1 (withGrp grp1) 1 0 rfl checked) ∧
    AtWitness (h.2.2.2.1 { withGrp { grp1 with state := .aborted, due := true } with cmds := ⟨[(0, { run1 0x40 with group := 2 }), (1, { cmd0 with group := 2 })]⟩ } 1 0 rfl checked) ∧
    AtWitness (h.2.2.2.2 (withFrame (withGrp grp1) (fr .grp 1 [(offGrp, 6)])) 1 (fr .grp 1 [(offGrp, 6)]) [] rfl checked checked checked checked checked) :=
  ⟨reached _, reached _, reached _, reached _, reached _, reached _, reached _, reached _, reached _, reached _, reached _, reached _, reached _⟩

theorem meets_IndexesAndTheirEpochs (h : Obligations.IndexesAndTheirEpochs) :
    AtWitness ((h.1 (withFrame live idxFrame) idxFrame [] rfl checked).1 checked checked) ∧
    AtWitness ((h.1 (withFrame { live with eng := { idxs := ⟨[(2, idx1)]⟩ } } (fr .idx 2 [(offIdxAttr, 2)])) (fr .idx 2 [(offIdxAttr, 2)]) [] rfl checked).2.1 checked checked checked) ∧
    AtWitness ((h.1 (withFrame live (fr .idx 2 [(offIdxAttr, 2)])) (fr .idx 2 [(offIdxAttr, 2)]) [] rfl checked).2.2 checked (.inl checked)) ∧
    AtWitness (h.2 { withCmds [(8, cmd0)] with eng := { idxs := ⟨[(2, idx1)]⟩ } } 2 idx1 checked checked) ∧
    AtWitness (h.2 { live with eng := { idxs := ⟨[(2, idx1)]⟩ } } 2 idx1 checked checked) :=
  ⟨reached _, reached _, reached _, reached _, reached _⟩

theorem meets_KvAllocGivesFreeBlocks (h : Obligations.KvAllocGivesFreeBlocks) :
    AtWitness ((h [] { live with eng := { kvDue := [{ key := 0, bits := 1 }] } } { key := 0, bits := 1 } [] rfl checked).1 checked) ∧
    AtWitness ((h [] { live with eng := { kvDue := [{ key := 0, bits := 2 * 2 ^ 16 + 1 }] }, regs := { committed := ⟨[(offKvPool, BitVec.ofNat 64 (2 ^ 63 + 4)), (offKvPool + 8, BitVec.ofNat 64 (4 * 2 ^ 40 + 64 * 256))]⟩ }, comps := ⟨[(0, { comp0 with kv := { enable := true } })]⟩ } { key := 0, bits := 2 * 2 ^ 16 + 1 } [] rfl checked).2 checked checked checked checked checked checked checked checked checked checked) :=
  ⟨reached _, reached _⟩

theorem meets_TablesArePublishedAndRetired (h : Obligations.TablesArePublishedAndRetired) :
    AtWitness (((h 0 1244 [] (publishing 64) (run1 publishDesc) checked checked checked checked checked checked checked checked checked checked checked).1 (((publishing 64).workAt 0 { src := 1244, items := 1 } (run1 publishDesc)).rd (fld (run1 publishDesc).desc 311 256) 64).1 (((publishing 64).workAt 0 { src := 1244, items := 1 } (run1 publishDesc)).rd (fld (run1 publishDesc).desc 311 256) 64).2 checked (by with_reducible rfl) checked checked checked checked checked checked checked checked checked).1 checked) ∧
    AtWitness (((h 0 1244 [] (publishing 0) (run1 publishDesc) checked checked checked checked checked checked checked checked checked checked checked).1 (((publishing 0).workAt 0 { src := 1244, items := 1 } (run1 publishDesc)).rd (fld (run1 publishDesc).desc 311 256) 64).1 (((publishing 0).workAt 0 { src := 1244, items := 1 } (run1 publishDesc)).rd (fld (run1 publishDesc).desc 311 256) 64).2 checked (by with_reducible rfl) checked checked checked checked checked checked checked checked checked).2 84 checked) ∧
    AtWitness (((h 0 1244 [] (retiring 1) (run1 (0x2B + 5 * 2 ^ 256 + 3 * 2 ^ 288)) checked checked checked checked checked checked checked checked checked checked checked).2 checked).1 checked) ∧
    AtWitness (((h 0 1244 [] (retiring 0) (run1 (0x2B + 5 * 2 ^ 256 + 3 * 2 ^ 288)) checked checked checked checked checked checked checked checked checked checked checked).2 checked).2 checked) :=
  ⟨reached _, reached _, reached _, reached _⟩

theorem meets_WatchesEndWithTheirCounts (h : Obligations.WatchesEndWithTheirCounts) :
    AtWitness (((h 0 (watching 2 1000000000) (run1 watchDesc) (watch1 2 1000000000) checked checked checked checked checked checked checked checked).1 { src := 1244, items := 1, media := [] } (.inl checked)).1 checked) ∧
    AtWitness (((h 0 (watching 1 1000000000) (run1 watchDesc) (watch1 1 1000000000) checked checked checked checked checked checked checked checked).1 { src := 1244, items := 1, media := [] } (.inl checked)).2 checked) ∧
    AtWitness ((h 0 (watching 1 999995000) (run1 watchDesc) (watch1 1 999995000) checked checked checked checked checked checked checked checked).2.1 checked) ∧
    AtWitness ((h 0 (watching 1 999995001) (run1 watchDesc) (watch1 1 999995001) checked checked checked checked checked checked checked checked).2.2 checked) :=
  ⟨reached _, reached _, reached _, reached _⟩

theorem meets_PagesAreFilled (h : Obligations.PagesAreFilled) :
    AtWitness ((h.1 0 0 (migrating 4 []) tileCmd hostSeg checked checked checked checked checked checked checked).2.2.2 0 checked checked checked checked) ∧
    AtWitness ((h.1 0 0 { migrating 4 [] with cmds := ⟨[(0, { tileCmd with busy := Tab.empty })]⟩ } { tileCmd with busy := Tab.empty } hostSeg checked checked checked checked checked checked checked).1 checked) ∧
    AtWitness ((h.1 0 0 (migrating 4 [(7, page1 .resident [])]) tileCmd hostSeg checked checked checked checked checked checked checked).2.1 7 (page1 .resident []) checked checked) ∧
    AtWitness ((h.1 0 0 (migrating 0 []) tileCmd hostSeg checked checked checked checked checked checked checked).2.2.1 checked checked checked) ∧
    AtWitness ((h.2 7 (page1 .filling []) (migrating 4 [(7, page1 .filling [])]) checked checked checked).1 checked) ∧
    AtWitness ((h.2 7 (page1 .filling [(3, ())]) (migrating 4 [(7, page1 .filling [(3, ())])]) checked checked checked).2 checked) :=
  ⟨reached _, reached _, reached _, reached _, reached _, reached _⟩

theorem meets_RemoteRequestsEnd (h : Obligations.RemoteRequestsEnd) :
    AtWitness (((h 4 0 (remoting (rem1 (.read 0 0) 1000)) (rem1 (.read 0 0) 1000) (run1 0x10) checked checked).1 checked checked).1 0 .ok (2 ^ 600 + 77) checked) ∧
    AtWitness (((h 4 0 (remoting (rem1 (.read 0 0) 1000)) (rem1 (.read 0 0) 1000) (run1 0x10) checked checked).1 checked checked).1 0 .unsupportedRequest 77 checked) ∧
    AtWitness (((h 4 0 (remoting (rem1 (.write 0) 1000)) (rem1 (.write 0) 1000) (run1 0x10) checked checked).1 checked checked).2.1 0 .unsupportedRequest 77 checked) ∧
    AtWitness ((((h 4 0 (remoting (rem1 (.read 0 0) 101)) (rem1 (.read 0 0) 101) (run1 0x10) checked checked).1 checked checked).2.2 0 999999900 checked checked).1 checked) ∧
    AtWitness ((((h 4 0 (remoting (rem1 (.read 0 0) 100)) (rem1 (.read 0 0) 100) (run1 0x10) checked checked).1 checked checked).2.2 0 999999900 checked checked).2 checked) ∧
    AtWitness ((h 4 0 { running 0x10 with timedOut := ⟨[(4, rem1 (.read 0 0) 100)]⟩ } (rem1 (.read 0 0) 100) (run1 0x10) checked checked).2.2.1 checked .ok 5 checked) ∧
    AtWitness ((h 4 0 (remoting { rem1 (.read 0 0) 100 with sent := none }) { rem1 (.read 0 0) 100 with sent := none } (run1 0x10) checked checked).2.1 checked checked .ok 5) ∧
    AtWitness ((h 4 0 (running 0x10) (rem1 (.read 0 0) 100) (run1 0x10) checked checked).2.2.2 checked checked .ok 5) :=
  ⟨reached _, reached _, reached _, reached _, reached _, reached _, reached _, reached _⟩

theorem meets_MirrorsDegradeAndResync (h : Obligations.MirrorsDegradeAndResync) :
    AtWitness ((h 0 (mir1 .mirrored [(0, ())]) (mirroring (mir1 .mirrored [(0, ())])) checked checked).1 0 0x80000000#32 checked checked checked (.inl checked)) ∧
    AtWitness ((h 0 (mir1 .mirrored []) { mirroring (mir1 .mirrored []) with remotes := ⟨[(4, rem1 (.mirror 0 40000) 100)]⟩ } checked checked).1 0 0x80000000#32 checked checked checked (.inl checked)) ∧
    AtWitness ((h 0 (mir1 .degraded [(0, ())]) (mirroring (mir1 .degraded [(0, ())])) checked checked).2.1 0 0x40000000#32 checked checked checked checked) ∧
    AtWitness ((h 0 (mir1 .degraded []) (mirroring (mir1 .degraded [])) checked checked).2.1 0 0x40000000#32 checked checked checked checked) ∧
    AtWitness ((h 0 (mir1 .degraded [(0, ())]) (mirroring (mir1 .degraded [(0, ())])) checked checked).2.2.1 0 checked checked checked checked) ∧
    AtWitness ((h 0 (mir1 .resync [(0, ())]) (mirroring (mir1 .resync [(0, ())])) checked checked).2.2.2 0 0 0 checked checked checked checked checked checked) :=
  ⟨reached _, reached _, reached _, reached _, reached _, reached _⟩

theorem meets_RegionsAreRebuiltAndRetired (h : Obligations.RegionsAreRebuiltAndRetired) :
    AtWitness ((h.1 7 (withMed { repair := ⟨[(7, ()), (9, ())]⟩, chans := ⟨[(lineChan 7, { calBusy := true })]⟩ }) checked).1 checked) ∧
    AtWitness ((h.1 7 (withMed { repair := ⟨[(7, ()), (9, ())]⟩ }) checked).2 checked) ∧
    AtWitness (h.2.1 4 .calibration (withMed { chans := ⟨[(4, { calFails := 3 })]⟩ }) checked checked checked (fun hh => by cases hh)) ∧
    AtWitness (h.2.1 31 .errors (withMed { chans := ⟨[(31, { ueTimes := List.replicate 1025 999000001 })]⟩ }) checked checked (fun hh => by cases hh) checked) ∧
    AtWitness ((h.2.2.1 0 .clean { slot := none, cause := 3 } (withPool { rebuilds := ⟨[(0, { slot := none, cause := 3 })]⟩ }) checked checked).1 100 checked checked) ∧
    AtWitness ((h.2.2.1 0 .clean { slot := some 100, next := 2, cause := 3 } { withPool { rebuilds := ⟨[(0, { slot := some 100, next := 2, cause := 3 })]⟩ } with mem := [(130, 5#8)], poison := ⟨[(2, ())]⟩ } checked checked).2 100 checked checked checked checked checked checked) ∧
    AtWitness (h.2.2.2.1 0 { slot := some 100, next := 32768, cause := 3 } (withPool { rebuilds := ⟨[(0, { slot := some 100, next := 32768, cause := 3 })]⟩ }) checked (.inr checked)) ∧
    AtWitness (h.2.2.2.1 9 { slot := none, cause := 3 } (withPool { rebuilds := ⟨[(9, { slot := none, cause := 3 })]⟩ }) checked (.inl checked)) ∧
    AtWitness (h.2.2.2.2.1 0 9#32 (withPool {}) checked checked checked checked checked checked) ∧
    AtWitness (h.2.2.2.2.2 0 1#32 (withPool { used := ⟨[(101, ())]⟩ }) checked checked checked) :=
  ⟨reached _, reached _, reached _, reached _, reached _, reached _, reached _, reached _, reached _, reached _⟩

theorem meets_FootingsMaintainTheirChannels (h : Obligations.FootingsMaintainTheirChannels) :
    AtWitness ((h (withChan 0 {}) 0 checked).1 checked none 3) ∧
    AtWitness ((h (withChan 0 { refreshes := [8191, 5, 0, 0] }) 0 checked).1 checked (some 0) 3) ∧
    AtWitness ((h (withChan 0 {}) 0 checked).2.1 dimm1 5 checked (.inr checked)) ∧
    AtWitness ((h (withChan 0 {}) 0 checked).2.2.1 dimm1 0 checked checked checked) ∧
    AtWitness ((h (withChan 0 {}) 0 checked).2.2.2.1 dimm1 0 7 checked checked) ∧
    AtWitness ((h (withChan 0 {}) 0 checked).2.2.2.2.1 dimm1 1 { row := 7, count := 70000 } checked checked checked) ∧
    AtWitness ((h (withChan 0 {}) 0 checked).2.2.2.2.2.1 checked checked) ∧
    AtWitness ((h (withChan 0 {}) 0 checked).2.2.2.2.2.2.1 checked checked) ∧
    AtWitness ((h (withChan 3 { calBusy := true, calFails := 2 }) 3 checked).2.2.2.2.2.2.2.1 false checked) ∧
    AtWitness ((h { withChan 3 { calBusy := true, calFails := 2 } with calHeld := ⟨[(3, [heldRd])]⟩ } 3 checked).2.2.2.2.2.2.2.1 true checked) ∧
    AtWitness ((h { withChan 3 {} with time := { live.time with elapsed := 172800000000000 } } 3 checked).2.2.2.2.2.2.2.2.1 7 checked checked checked checked) ∧
    AtWitness ((h (withChan 3 {}) 3 checked).2.2.2.2.2.2.2.2.2 7 checked checked checked checked checked) :=
  ⟨reached _, reached _, reached _, reached _, reached _, reached _, reached _, reached _, reached _, reached _, reached _, reached _⟩

theorem meets_MemoryTrainsAndIsScrubbed (h : Obligations.MemoryTrainsAndIsScrubbed) :
    AtWitness (h.1 (List.replicate 32 (some dimm1)) dimm1 untrained checked checked checked checked checked) ∧
    AtWitness (h.2.1 [] { untrained with med := { untrained.med with popReason := 2 } } checked) ∧
    AtWitness (h.2.2.1 (List.replicate 31 (some dimm1)) 31 untrained checked checked checked checked checked checked) ∧
    AtWitness (h.2.2.1 [] 0 untrained checked checked checked checked checked checked) ∧
    AtWitness (h.2.2.2 2 [4] scrubbing checked checked checked checked checked) ∧
    AtWitness (h.2.2.2 9 [] scrubbing checked checked checked checked checked) :=
  ⟨reached _, reached _, reached _, reached _, reached _, reached _⟩

theorem meets_StartUpAndReset (h : Obligations.StartUpAndReset) :
    AtWitness ((h (started { sealCtr := ⟨[(3, 1)]⟩ })).1 3 [] checked checked) ∧
    AtWitness (((h (started { running := true, otp := ⟨[(0, ())]⟩ })).2.1 0x465A5644 5 [2] [1] checked checked checked).1 checked) ∧
    AtWitness (((h (started { running := true, otp := ⟨[(0, ())]⟩, weak := ⟨[(2, ())]⟩ })).2.1 (flash1 3) (flash1 3) [2] [1] checked checked checked).2) ∧
    AtWitness ((h (started { running := true, loaded := true })).2.2.1 checked checked) ∧
    AtWitness ((h (started { running := true, loaded := true })).2.2.2.1 33 2 checked checked checked) ∧
    AtWitness ((h live).2.2.2.2.1) ∧
    AtWitness ((h (started {})).2.2.2.2.2.1 checked checked) ∧
    AtWitness ((h { started {} with power := { thermtrip := true } }).2.2.2.2.2.2.1 checked) ∧
    AtWitness ((h live).2.2.2.2.2.2.2.1 checked checked) ∧
    AtWitness ((h { live with power := { thermtrip := true, tripValid := true, tripCount := 3 } }).2.2.2.2.2.2.2.2 true checked) ∧
    AtWitness ((h { live with power := { tripValid := true, tripCount := 3 } }).2.2.2.2.2.2.2.2 false checked) :=
  ⟨reached _, reached _, reached _, reached _, reached _, reached _, reached _, reached _, reached _, reached _, reached _⟩

theorem meets_HeadsResetAndTrain (h : Obligations.HeadsResetAndTrain) :
    AtWitness ((h 0 { live with sec := { live.sec with ctxKeys := ⟨[(16, 5), (17, 6)]⟩ }, msix := ⟨[(3, { pend := true })]⟩ } checked).1 checked checked checked checked) ∧
    AtWitness ((h 0 (withHead {}) checked).2.1 checked) ∧
    AtWitness ((h 0 (withHead { perst := false }) checked).2.2.1 5 4 checked checked checked checked checked checked checked) ∧
    AtWitness ((h 0 live checked).2.2.2.1 checked checked) ∧
    AtWitness (((h 0 live checked).2.2.2.2 checked checked).1) ∧
    AtWitness (((h 0 live checked).2.2.2.2 checked checked).2 checked) :=
  ⟨reached _, reached _, reached _, reached _, reached _, reached _⟩

theorem meets_UathesNegotiates (h : Obligations.UathesNegotiates) :
    AtWitness (((h 0 (negotiating .standard none) checked).1 7 1 3 1 checked checked).1 checked) ∧
    AtWitness (((h 0 (negotiating .agreed none) checked).1 0x1E2A 1 3 1 checked checked).2.1 checked checked checked checked) ∧
    AtWitness (((h 0 (negotiating .standard none) checked).1 0x1E2A 1 3 1 checked checked).2.2.1 checked checked (.inl checked)) ∧
    AtWitness (((h 0 (negotiating .standard none) checked).1 0x1E2A 1 3 2 checked checked).2.2.2 checked checked) ∧
    AtWitness (((h 0 (negotiating .failed none) checked).1 0x1E2A 1 3 1 checked checked).2.2.2 checked checked) ∧
    AtWitness ((h 0 (negotiating .agreed none) checked).2.1 checked checked checked checked) ∧
    AtWitness ((h 0 (negotiating .agreed (some 952000000)) checked).2.2.1 952000000 checked checked checked checked) ∧
    AtWitness ((h 0 (negotiating .agreed (some 952000000)) checked).2.2.2.1 .timeout checked) ∧
    AtWitness ((h 0 (negotiating .uathes none) checked).2.2.2.1 (.replays 3 2 1999999) checked) ∧
    AtWitness ((h 0 (negotiating .uathes none) checked).2.2.2.2.1 4 checked (.inl checked)) ∧
    AtWitness ((h 0 (negotiating .uathes none) checked).2.2.2.2.2.1 3 2 2000000 checked (.inl checked)) ∧
    AtWitness ((h 0 (negotiating .failed none) checked).2.2.2.2.2.2 1 1#32 checked checked checked) :=
  ⟨reached _, reached _, reached _, reached _, reached _, reached _, reached _, reached _, reached _, reached _, reached _, reached _⟩

theorem meets_PowerLevelsFollow (h : Obligations.PowerLevelsFollow) :
    AtWitness ((h { live with power := { began := 999997900, ends := 999999948 } } checked).1 [(0, 1000), (70, 55)] checked) ∧
    AtWitness ((h { live with power := { ends := 1000000001 } } checked).2.1 [] checked) ∧
    AtWitness ((h live checked).2.2.1 [500, 7] checked) ∧
    AtWitness ((h { live with power := { pmb := List.replicate 63 (1, 1) } } checked).2.2.1 [500, 7] checked) ∧
    AtWitness ((h { live with power := { pmb := List.replicate 63 (1, 1) } } checked).2.2.1 [1] checked) ∧
    AtWitness ((h (withCourse { volt := 3, n := 3 }) checked).2.2.2.1 3 5 checked checked checked) ∧
    AtWitness (((h (withCourse {}) checked).2.2.2.2.1 3 checked).1 checked) ∧
    AtWitness (((h (withCourse { droop := true }) checked).2.2.2.2.1 3 checked).2 64 checked checked) ∧
    AtWitness ((h (withCourse {}) checked).2.2.2.2.2.1 129 checked checked) ∧
    AtWitness ((h { withCourse { n := 5 } with power := { floor := true, alertClear := 999000000 } } checked).2.2.2.2.2.2 checked checked checked) :=
  ⟨reached _, reached _, reached _, reached _, reached _, reached _, reached _, reached _, reached _, reached _⟩

theorem meets_DiesHaltAndTrip (h : Obligations.DiesHaltAndTrip) :
    AtWitness ((h (withCourse {}) checked).1 (List.replicate 100 (-40) ++ List.replicate 84 1700) checked checked) ∧
    AtWitness ((h (withCourse {}) checked).2.1 3 110 checked checked checked) ∧
    AtWitness ((h (withCourse { halted := true, haltCool := some 999000000 }) checked).2.2.1 3 110 checked checked checked) ∧
    AtWitness ((h (withCourse { halted := true, haltCool := some 999000000 }) checked).2.2.2.1 3 999000000 checked checked checked) ∧
    AtWitness ((h live checked).2.2.2.2.1 39 125 checked checked) ∧
    AtWitness ((h { withCourse {} with dir := ⟨[(dl, { comp := 0, st := .m, ptrs := [4083], order := 0 }), (dl + 1, { comp := 0, st := .s, ptrs := [9], order := 0 })]⟩, bufs := ⟨[(3, ⟨[(dl, { data := data1, own := true, dirty := true })]⟩)]⟩ } checked).2.2.2.2.2.1 3 0 checked checked checked checked checked checked) ∧
    AtWitness ((h { live with trans := ⟨[(dl, twoOut)]⟩ } checked).2.2.2.2.2.2 32 0 checked checked checked checked checked) :=
  ⟨reached _, reached _, reached _, reached _, reached _, reached _, reached _⟩

theorem meets_TimeFollowsPulses (h : Obligations.TimeFollowsPulses) :
    AtWitness (((h (timed 3 {})).1 checked checked).1 checked checked) ∧
    AtWitness (((h (timed (tenBonds + 3) { pulse := some (1000000000 - 2 ^ 24 + 4) })).1 checked checked).2.1 checked checked checked) ∧
    AtWitness (((h (timed (tenBonds + 3) { hadLock := true, pulse := some (1000000000 - 2 ^ 24 + 4) })).1 checked checked).2.2.1 checked checked checked) ∧
    AtWitness ((((h (timed (tenBonds + 16) { lock := true })).1 checked checked).2.2.2.1 checked checked (.inl checked)).1 checked) ∧
    AtWitness ((((h (timed (tenBonds - 4000) { lock := true })).1 checked checked).2.2.2.1 checked checked (.inl checked)).2 checked (.inl checked)) ∧
    AtWitness ((((h (timed (tenBonds - 4001) { lock := true, pulse := some (1000000000 - 2 ^ 24) })).1 checked checked).2.2.2.1 checked checked (.inl checked)).2 checked (.inr checked)) ∧
    AtWitness (((h (timed (tenBonds + 4001) { lock := true })).1 checked checked).2.2.2.2.1 checked checked checked) ∧
    AtWitness (((h { timed (tenBonds + 3) { lock := true, ptmLoad := some (tenBonds + 2 ^ 26 + 2600, 999999000) } with regs := ptmRegs }).1 checked checked).2.2.2.2.2.1 (tenBonds + 2 ^ 26 + 2600) 999999000 checked (.inl checked) checked checked checked) ∧
    AtWitness (((h { timed tenBonds { lock := true, atSync := some 0 } with cmds := ⟨[(0, waitingSet1)]⟩ }).1 checked checked).2.2.2.2.2.2 0 77 waitingSet1 checked (.inl checked) checked checked checked checked) ∧
    AtWitness (((h { timed 3 {} with cmds := ⟨[(0, run1 (0x50 + 77 * 2 ^ 256)), (1, run1 (0x50 + 77 * 2 ^ 256))]⟩ }).2.1 1 1244 [] (run1 (0x50 + 77 * 2 ^ 256)) checked checked checked checked checked checked checked checked checked checked checked).1 checked) ∧
    AtWitness (((h { timed 3 {} with cmds := ⟨[(0, waitingSet1)]⟩ }).2.1 0 1244 [] waitingSet1 checked checked checked checked checked checked checked checked checked checked checked).2.1 checked checked) ∧
    AtWitness (((h (timed 3 { lock := true })).2.1 0 1244 [] (run1 (0x50 + 77 * 2 ^ 256)) checked checked checked checked checked checked checked checked checked checked checked).2.2 checked checked) ∧
    AtWitness (((h (timed 3 {})).2.1 0 1244 [] (run1 (0x50 + 77 * 2 ^ 256)) checked checked checked checked checked checked checked checked checked checked checked).2.2 checked checked) ∧
    AtWitness ((h (timed (2 ^ 26 + 4001) { lock := true, missed := 3 })).2.2.1 checked checked) ∧
    AtWitness ((h (timed 3 { lock := true })).2.2.2.1 checked) ∧
    AtWitness ((h live).2.2.2.2.1 checked) ∧
    AtWitness (((h { timed 3 {} with regs := ptmRegs }).2.2.2.2.2.1 checked checked).1) ∧
    AtWitness ((((h { timed 3 { lock := true } with regs := ptmRegs }).2.2.2.2.2.1 checked checked).2 55 checked).1 checked) ∧
    AtWitness ((((h { timed 3 {} with regs := ptmRegs }).2.2.2.2.2.1 checked checked).2 5555 checked).2 checked checked) ∧
    AtWitness ((h live).2.2.2.2.2.2 0 checked) :=
  ⟨reached _, reached _, reached _, reached _, reached _, reached _, reached _, reached _, reached _, reached _, reached _, reached _, reached _, reached _, reached _, reached _, reached _, reached _, reached _, reached _⟩

theorem meets_ScheduledActivitiesRun (h : Obligations.ScheduledActivitiesRun) :
    AtWitness ((h live).1) ∧
    AtWitness ((h { live with regs := { committed := ⟨[(offTimQw, 0#64), (offTimQw + 8, 0xFFFFFFFF#64)]⟩ } }).2.1 checked) ∧
    AtWitness ((h live).2.2.1 checked) ∧
    AtWitness (((h live).2.2.2.1 { head := 0, width := 3, height := 4, done := true } checked checked checked checked).1 checked) ∧
    AtWitness (((h live).2.2.2.1 { head := 0, width := 3, height := 4, done := false } checked checked checked checked).2 checked) ∧
    AtWitness ((h { live with regs := { committed := ⟨(List.range 6).map (fun i => (offTimSched + 16 * i, 0#64))⟩ } }).2.2.2.2.1 { head := 0, width := 3, height := 4, done := true } checked) ∧
    AtWitness ((h live).2.2.2.2.2.1 checked) ∧
    AtWitness ((h { live with regs := { committed := ⟨(List.range 6).map (fun i => (offTimSched + 16 * i, 0#64))⟩ } }).2.2.2.2.2.2 checked) :=
  ⟨reached _, reached _, reached _, reached _, reached _, reached _, reached _, reached _⟩

theorem meets_MarksReachTheirBuffersAndThePort (h : Obligations.MarksReachTheirBuffersAndThePort) :
    AtWitness ((((h (tracing 1 { queue := [mark1] } {} {}) checked).1 7).1 mark1 [] checked checked).1 checked) ∧
    AtWitness ((((h (tracing 1 { queue := [mark1] } { frozen := true } {}) checked).1 7).1 mark1 [] checked checked).2.2 checked checked checked) ∧
    AtWitness ((((h (tracing 1 { queue := [{ mark1 with kind := 0x20 }] } { frozen := true } {}) checked).1 7).1 { mark1 with kind := 0x20 } [] checked checked).2.1 checked (.inr checked)) ∧
    AtWitness ((((h (tracing 1 { loss := some { cause := 4, count := 1, first := 2, last := 3 } } {} {}) checked).1 7).2.1 { cause := 4, count := 1, first := 2, last := 3 } checked).1 checked) ∧
    AtWitness ((((h (tracing 1 { loss := some { cause := 4, count := 1, first := 2, last := 3 } } { frozen := true } {}) checked).1 7).2.1 { cause := 4, count := 1, first := 2, last := 3 } checked).2 checked) ∧
    AtWitness (((h (tracing 1 {} {} {}) checked).1 7).2.2 checked checked) ∧
    AtWitness (((h (tracing 0 {} {} {}) checked).2.1 checked checked).1 checked) ∧
    AtWitness (((h (tracing 0 {} {} { row := 256, crc := [1, 2, 3, 4] }) checked).2.1 checked checked).1 checked) ∧
    AtWitness (((h (tracing 0 {} {} { row := 3 }) checked).2.1 checked checked).2.1 checked checked) ∧
    AtWitness (((h (tracing 0 {} { marks := ⟨[(9, mark1)]⟩, stream := [9, 10] } { row := 3, turn := 2 }) checked).2.1 checked checked).2.2 2 9 [10] checked checked checked) ∧
    AtWitness (((h (tracing 1 {} { frozen := true, post := some 3, next := 5 } {}) checked).2.2 0 1#32 checked checked).1) ∧
    AtWitness (((h (tracing 1 {} {} {}) checked).2.2 0 1#32 checked checked).2 [1, 2, 3]) :=
  ⟨reached _, reached _, reached _, reached _, reached _, reached _, reached _, reached _, reached _, reached _, reached _, reached _⟩

theorem meets_ReportsAreKept (h : Obligations.ReportsAreKept) :
    AtWitness (((h (reporting false { logQ := ⟨[(3, { entries := [entry1] })]⟩, backlog := { entries := List.replicate 1024 entry1 } })).1 3 entry1 [] checked checked).1 checked checked) ∧
    AtWitness (((h (reporting false { logQ := ⟨[(3, { entries := [entry1] })]⟩ })).1 3 entry1 [] checked checked).2.1 checked checked) ∧
    AtWitness (((h (reporting true { logQ := ⟨[(3, { entries := [entry1] })]⟩, log := { wr := 17, rd := 3 }, logSeq := 7 })).1 3 entry1 [] checked checked).2.2 checked checked checked checked checked checked) ∧
    AtWitness (((h (reporting false { acc := ⟨[(256 * 3 + 5, occ1)]⟩ })).2.1 3 5 occ1 checked checked checked).1 checked) ∧
    AtWitness (((h (reporting true { acc := ⟨[(256 * 3 + 5, occ1)]⟩, alarm := { wr := 2 ^ 32 - 1, rd := 2 ^ 32 - 16 } })).2.1 3 5 occ1 checked checked checked).2 checked checked checked checked checked checked checked) ∧
    AtWitness ((h (reporting true { alarms := ⟨[(5, { pend := true })]⟩ })).2.2.1 0 0 32#64 checked) ∧
    AtWitness ((h { reporting true {} with events := { zeroing := true, wr := 5 } }).2.2.2.1 checked checked checked) ∧
    AtWitness ((h (reporting true { log := { zeroing := true, wr := 5 } })).2.2.2.2.1 checked checked checked) ∧
    AtWitness ((h (reporting true { alarm := { zeroing := true, wr := 5 } })).2.2.2.2.2.1 checked checked checked) ∧
    AtWitness (((h (reporting true {})).2.2.2.2.2.2 3 0x10000 64 checked).1 checked checked checked checked checked) ∧
    AtWitness (((h (reporting true {})).2.2.2.2.2.2 3 0x3FFF8 64 checked).2 (.inr (.inr (.inr (.inr checked))))) :=
  ⟨reached _, reached _, reached _, reached _, reached _, reached _, reached _, reached _, reached _, reached _, reached _⟩

theorem meets_SessionsFollowTheirOrder (h : Obligations.SessionsFollowTheirOrder) :
    AtWitness ((h 0 (speaking {}) checked).1) ∧
    AtWitness ((h 0 (speaking { spdm := .version }) checked).2.1 5 checked) ∧
    AtWitness ((h 0 (speaking {}) checked).2.2.1 5 checked) ∧
    AtWitness ((h 0 (speaking { spdm := .caps }) checked).2.2.2.1 15 checked checked) ∧
    AtWitness ((h 0 (speaking {}) checked).2.2.2.2.1 15 checked) ∧
    AtWitness (((h 0 (speaking { spdm := .algs, psk := some 5, hint := 6 }) checked).2.2.2.2.2.1 6 7 5 checked checked).1 checked) ∧
    AtWitness (((h 0 (speaking { spdm := .algs, psk := some 5, hint := 6 }) checked).2.2.2.2.2.1 7 7 5 checked checked).2 checked) ∧
    AtWitness ((h 0 (speaking { spdm := .pskSent, secret := 5 }) checked).2.2.2.2.2.2.1 6 checked) ∧
    AtWitness ((h 0 (speaking {}) checked).2.2.2.2.2.2.2.1 checked) ∧
    AtWitness ((h 0 (speaking {}) checked).2.2.2.2.2.2.2.2.1 0x55) ∧
    AtWitness ((h 0 (speaking { ideMem := .secure }) checked).2.2.2.2.2.2.2.2.2.1 0 checked checked) ∧
    AtWitness (((h 0 (speaking { spdm := .session }) checked).2.2.2.2.2.2.2.2.2.2 checked).1 2 checked checked) ∧
    AtWitness (((h 0 (speaking { spdm := .session }) checked).2.2.2.2.2.2.2.2.2.2 checked).2.2.2.2.1 1 0 77 checked checked) ∧
    AtWitness ((((h 0 (speaking { spdm := .session, keyReady := ⟨[(3, ())]⟩ }) checked).2.2.2.2.2.2.2.2.2.2 checked).2.2.2.2.2.1 1 1 checked checked).1 checked checked) ∧
    AtWitness ((((h 0 (speaking { spdm := .session, keyReady := ⟨[(3, ())]⟩ }) checked).2.2.2.2.2.2.2.2.2.2 checked).2.2.2.2.2.1 1 0 checked checked).2.1 (.inl checked)) ∧
    AtWitness ((((h 0 (speaking { spdm := .session, ideIo := .secure, keySet := ⟨[(1, 0)]⟩, keys := ⟨[(2, 5)]⟩ }) checked).2.2.2.2.2.2.2.2.2.2 checked).2.2.2.2.2.1 1 0 checked checked).2.2) ∧
    AtWitness ((((h 0 (speaking { spdm := .session }) checked).2.2.2.2.2.2.2.2.2.2 checked).2.2.2.2.2.2 0 99 checked checked checked).1) ∧
    AtWitness ((((h 0 (speaking { spdm := .session }) checked).2.2.2.2.2.2.2.2.2.2 checked).2.2.2.2.2.2 0 99 checked checked checked).2 (.inr checked)) :=
  ⟨reached _, reached _, reached _, reached _, reached _, reached _, reached _, reached _, reached _, reached _, reached _, reached _, reached _, reached _, reached _, reached _, reached _, reached _⟩

theorem meets_PlinthAnswers (h : Obligations.PlinthAnswers) :
    AtWitness (((h live).1 0 checked).1 2 1 2 checked) ∧
    AtWitness (((h live).1 0 checked).2.1 4 checked) ∧
    AtWitness (((h (withPlinth { queue := [{ head := 0, raw := 5 }] })).1 0 checked).2.2.1 1604 5 checked) ∧
    AtWitness ((((h live).1 0 checked).2.2.2.1 1604 0x010001 checked).1 checked) ∧
    AtWitness ((((h live).1 0 checked).2.2.2.1 1603 0x010001 checked).2 checked) ∧
    AtWitness (((h (withPlinth { cert := 7 })).1 0 checked).2.2.2.2 4 0x020001 checked) ∧
    AtWitness (((h (withPlinth { queue := [{ head := 0, raw := 5 }] })).2.1 { head := 0, raw := 5 } [] checked checked checked).1 checked) ∧
    AtWitness (((h (withPlinth { queue := [{ head := 0, raw := 5 }], xnext := some 4, xend := 5 })).2.1 { head := 0, raw := 5 } [] checked checked checked).2 4 checked) ∧
    AtWitness ((h (withPlinth { queue := [{ head := 0, raw := 5, dropped := true }], xnext := some 4, xend := 5 })).2.2.1 { head := 0, raw := 5, dropped := true } [] 4 checked checked checked) ∧
    AtWitness (((h (withPlinth { boot := 1, svn := 3 })).2.2.2.1 0 checked).1 1#32 checked checked) ∧
    AtWitness (((h (withPlinth { boot := 1, svn := 3 })).2.2.2.1 0 checked).2.1 0#32 (.inl checked)) ∧
    AtWitness (((h live).2.2.2.1 0 checked).2.2.1) ∧
    AtWitness (((h live).2.2.2.1 0 checked).2.2.2.1 7#64 checked) ∧
    AtWitness (((h (withPlinth { l2Result := 1 })).2.2.2.1 0 checked).2.2.2.2 7#64 checked) ∧
    AtWitness (((h (withPlinth { l2Req := some 64, l2Nonce := some 5 })).2.2.2.2.1 64 [] checked).2.1 checked) ∧
    AtWitness (((h { withPlinth { l2Req := some 64, l2Nonce := some 5 } with med := { live.med with chans := ⟨(List.range 32).map (fun i => (i, { calBusy := true }))⟩ } }).2.2.2.2.1 64 [] checked).1 checked) ∧
    AtWitness (((h (withPlinth { l2Req := some (2 ^ 30), l2Nonce := some 5 })).2.2.2.2.1 (2 ^ 30) [] checked).2.2 checked) ∧
    AtWitness ((h live).2.2.2.2.2 checked) :=
  ⟨reached _, reached _, reached _, reached _, reached _, reached _, reached _, reached _, reached _, reached _, reached _, reached _, reached _, reached _, reached _, reached _, reached _, reached _⟩

theorem meets_SetupCommitsDecide (h : Obligations.SetupCommitsDecide) :
    AtWitness ((h.1 (withFrame live (bare .ctl)) (bare .ctl) [] rfl checked _ (List.mem_cons_self ..) rfl).2 checked) ∧
    AtWitness ((h.1 (withFrame live (fr .ctl 0 [(offCtlMaster, 13)])) (fr .ctl 0 [(offCtlMaster, 13)]) [] rfl checked _ (List.mem_cons_self ..) rfl).1 ⟨.encoding, offCtlMaster, true⟩ checked) ∧
    AtWitness ((h.1 (withFrame live (bare (.hed 11))) (bare (.hed 11)) [] rfl checked _ (List.mem_append_right _ (List.mem_map_of_mem (a := 11) (List.mem_range.2 (by omega : 11 < 12)))) rfl).2 checked) ∧
    AtWitness (((h.2 0 0x0D0000 live checked).1 1#32 .sec checked).1 checked checked) ∧
    AtWitness (((h.2 0 0x0D0000 { live with regs := { live.regs with queue := List.replicate 16 (bare .ctl) } } checked).1 1#32 .sec checked).2.1 checked checked) ∧
    AtWitness (((h.2 0 0x0D0000 live checked).1 0#32 .sec checked).2.2 checked) ∧
    AtWitness ((h.2 0 offAdrSel live checked).2.1 1#32 checked) ∧
    AtWitness ((h.2 0 offTimCfg live checked).2.2.1 0x1FF#64 checked checked) ∧
    AtWitness ((h.2 0 0x10008 live checked).2.2.2.1 5#64 checked checked checked) ∧
    AtWitness ((h.2 0 offTimCfg live checked).2.2.2.2 0 2 0#64 (.inl checked)) ∧
    AtWitness ((h.2 0 (offTimCfg + 4) live checked).2.2.2.2 0 8 0#64 (.inr checked)) :=
  ⟨reached _, reached _, reached _, reached _, reached _, reached _, reached _, reached _, reached _, reached _, reached _⟩

theorem meets_FlagAliasesStandForTheirLine (h : Obligations.FlagAliasesStandForTheirLine) :
    AtWitness (h 0 5 0x40 live checked) :=
  reached _

theorem meets_SoftwareExtentsKeepNoRecord (h : Obligations.SoftwareExtentsKeepNoRecord) :
    AtWitness (((h 0 1 5 0x40 0 soft live checked checked checked checked).1 checked).1 .s {} checked checked) ∧
    AtWitness (((h 0 1 5 0x40 0 soft live checked checked checked checked).1 checked).2 .none) ∧
    AtWitness ((h 0 1 5 0x40 0 soft live checked checked checked checked).2 checked checked data1 false .i {}) :=
  ⟨reached _, reached _, reached _⟩

end Sys2Proof.Tests
end

section
/-! PROOFS. The set-up registers (R4, R6, R451 to R458, R495). First what no operation on the store, the records, the engines or the
remote requests changes: the registers and the heads. Then the commit engine, the commits of the domains that set registers, and the
writes to a commit register, a selector, a register word and a CXL component register. -/

namespace Sys2Proof.Machine

/-! ### Views of the state that operations leave as they are -/

/-- The set-up registers and the heads of a state. -/
def State.setupView (s : State) : RegSt × Tab Head := (s.regs, s.heads)

/-- The same with the bytes of the store, the rings and the commands. -/
def State.workView (s : State) : (RegSt × Tab Head) × List Host.Cell × Tab Ring × Tab Cmd := (s.setupView, s.mem, s.rings, s.cmds)

/-- What every step of a fold leaves as it is, the fold leaves. -/
theorem foldl_view {σ α β : Type} {view : σ → β} {f : σ → α → σ} (hf : ∀ t x, view (f t x) = view t) (l : List α)
    (s : σ) : view (l.foldl f s) = view s := by
  induction l generalizing s with
  | nil => rfl
  | cons x l ih => rw [List.foldl_cons, ih, hf]

theorem setup_of_work {s t : State} (h : t.workView = s.workView) : t.setupView = s.setupView := congrArg Prod.fst h

/-- An update of fields bears on the view only through the two it shows; with `setup_eta`, `simp` passes through updates. -/
@[simp] theorem setup_mk {pending out fresh time mem poison lost lineBuf med exts comps flags dir dirOrder dirFix trans waitQ toBuf
    fromBuf bufs uio hostDown lostWr lostRd lostDrop remotes nextId owed mirReads mirCopy calHeld calAcc conflicts timedOut remFault
    rings fetchLast cmds nextCid events msix eng courses heads regs obs power sec} :
    (State.mk pending out fresh time mem poison lost lineBuf med exts comps flags dir dirOrder dirFix trans waitQ toBuf
        fromBuf bufs uio hostDown lostWr lostRd lostDrop remotes nextId owed mirReads mirCopy calHeld calAcc conflicts
        timedOut remFault rings fetchLast cmds nextCid events msix eng courses heads regs obs power sec).setupView
      = (regs, heads) := rfl

@[simp] theorem setup_eta {s : State} : (s.regs, s.heads) = s.setupView := rfl

@[simp] theorem work_mk {pending out fresh time mem poison lost lineBuf med exts comps flags dir dirOrder dirFix trans waitQ toBuf
    fromBuf bufs uio hostDown lostWr lostRd lostDrop remotes nextId owed mirReads mirCopy calHeld calAcc conflicts timedOut remFault
    rings fetchLast cmds nextCid events msix eng courses heads regs obs power sec} :
    (State.mk pending out fresh time mem poison lost lineBuf med exts comps flags dir dirOrder dirFix trans waitQ toBuf
        fromBuf bufs uio hostDown lostWr lostRd lostDrop remotes nextId owed mirReads mirCopy calHeld calAcc conflicts
        timedOut remFault rings fetchLast cmds nextCid events msix eng courses heads regs obs power sec).workView
      = ((regs, heads), mem, rings, cmds) := rfl

@[simp] theorem work_eta {s : State} : (s.setupView, s.mem, s.rings, s.cmds) = s.workView := rfl

namespace State
variable {s : State}

/-! ### Registers, heads, memory, rings and commands stay: logs, alarms, retirement, remote requests, presentation, contexts -/

@[simp] theorem emit_work {o : Out} : (s.emit o).workView = s.workView := rfl
@[simp] theorem bump_work {w n : Nat} : (s.bump w n).workView = s.workView := rfl
@[simp] theorem modExt_work {i : Nat} {f : Extent → Extent} : (s.modExt i f).workView = s.workView := rfl
@[simp] theorem setPeer_work {p : Nat} {x : PeerSt} : (s.setPeer p x).workView = s.workView := rfl

@[simp] theorem logAt_work {die src kind sev body : Nat} : (s.logAt die src kind sev body).workView = s.workView := by
  simp [logAt, apply_ite State.workView]

@[simp] theorem alarm_work {die kind detail : Nat} {active : Option Bool} : (s.alarm die kind detail active).workView = s.workView := by
  cases active <;> rfl

@[simp] theorem alarmEnd_work {die kind : Nat} : (s.alarmEnd die kind).workView = s.workView := rfl

@[simp] theorem endSlotWait_work : s.endSlotWait.workView = s.workView := by
  simp [endSlotWait, apply_ite State.workView]

@[simp] theorem retireRegion_work {rg : Nat} : (s.retireRegion rg).workView = s.workView := by
  unfold retireRegion
  split
  · rfl
  · simp [apply_ite State.workView]

@[simp] theorem startRetire_work {rg cause : Nat} : (s.startRetire rg cause).workView = s.workView := by
  simp [startRetire, apply_ite State.workView]

@[simp] theorem transmit_work {id : Nat} {r : Remote} : (s.transmit id r).workView = s.workView := by
  cases hf : r.flag <;> simp [transmit, hf, apply_ite State.workView]

theorem pumpOne_work {x : State × List Nat} {id : Nat} : (pumpOne x id).1.workView = x.1.workView := by
  cases hr : x.1.remotes.get? id <;> simp [pumpOne, hr, apply_ite Prod.fst, apply_ite State.workView]

@[simp] theorem pump_work : s.pump.workView = s.workView := by
  unfold pump
  have hold (l : List Nat) (t : State) : (l.foldl pumpOne (t, [])).1.workView = t.workView :=
    foldl_view (view := fun x : State × List Nat => x.1.workView) (fun _ _ => pumpOne_work) l (t, [])
  rw [hold, hold]

@[simp] theorem startPeerSync_work {port line : Nat} : (s.startPeerSync port line).workView = s.workView := by
  dsimp only [startPeerSync]
  split <;> rfl

@[simp] theorem retrySyncs_work : s.retrySyncs.workView = s.workView :=
  foldl_view (fun _ _ => by simp [apply_ite State.workView]) _ _

@[simp] theorem markReroutes_work {old : State} : (s.markReroutes old).workView = s.workView :=
  foldl_view (fun _ _ => by simp [apply_ite State.workView]) _ _

@[simp] theorem present_work {i h : Nat} : (s.present i h).workView = s.workView := by
  unfold present
  split
  · rfl
  · simp [apply_ite State.workView]

@[simp] theorem postDeferred_work {h : Nat} : (s.postDeferred h).workView = s.workView := by
  refine foldl_view (fun t i => ?_) _ _
  split <;> simp [apply_ite State.workView]

@[simp] theorem ceReached_work {rg : Nat} : (s.ceReached rg).workView = s.workView := by
  unfold ceReached
  split <;> simp [apply_ite State.workView]

@[simp] theorem cutCeLimit_work {old : Nat} : (s.cutCeLimit old).workView = s.workView :=
  foldl_view (fun _ _ => ceReached_work) _ _

@[simp] theorem setCtx_work {i : Nat} {c : Ctx} : (s.setCtx i c).workView = s.workView := by
  simp [setCtx, apply_ite State.workView]

@[simp] theorem dropRows_work {p : RowLine → Bool} : (s.dropRows p).workView = s.workView := rfl

/-! ### Registers and heads stay: the shared operations -/

@[simp] theorem emit_setup {o : Out} : (s.emit o).setupView = s.setupView := rfl
@[simp] theorem putLine_setup {ln : Nat} {d : Line} : (s.putLine ln d).setupView = s.setupView := rfl
@[simp] theorem bump_setup {w n : Nat} : (s.bump w n).setupView = s.setupView := rfl
@[simp] theorem charge_setup {k n : Nat} : (s.charge k n).setupView = s.setupView := rfl
@[simp] theorem bumpMeter_setup {c w n : Nat} : (s.bumpMeter c w n).setupView = s.setupView := rfl
@[simp] theorem modCmd_setup {c : Nat} {f : Cmd → Cmd} : (s.modCmd c f).setupView = s.setupView := rfl
@[simp] theorem wait_setup {r : LineReq} : (s.wait r).setupView = s.setupView := rfl
@[simp] theorem defer_setup {ch : Nat} {x : CalAccess} : (s.defer ch x).setupView = s.setupView := rfl
@[simp] theorem sendUp_setup {die : Nat} {m : FromBuf} : (s.sendUp die m).setupView = s.setupView := rfl

@[simp] theorem logAt_setup {die src kind sev body : Nat} : (s.logAt die src kind sev body).setupView = s.setupView :=
  setup_of_work logAt_work
@[simp] theorem alarm_setup {die kind detail : Nat} {active : Option Bool} :
    (s.alarm die kind detail active).setupView = s.setupView := setup_of_work alarm_work
@[simp] theorem pump_setup : s.pump.setupView = s.setupView := setup_of_work pump_work
@[simp] theorem startPeerSync_setup {port line : Nat} : (s.startPeerSync port line).setupView = s.setupView :=
  setup_of_work startPeerSync_work

/-! ### Registers and heads stay: answers and the end of mirroring -/

@[simp] theorem reply_setup {h : Nat} {o : Out} : (s.reply h o).setupView = s.setupView := by
  simp [reply, apply_ite State.setupView]

@[simp] theorem ackConflicts_setup : s.ackConflicts.setupView = s.setupView :=
  foldl_view (fun _ _ => by simp [apply_ite State.setupView]) _ _

@[simp] theorem uioLineDone_setup {h tag ln : Nat} {ahead : Bool} : (s.uioLineDone h tag ln ahead).setupView = s.setupView := by
  dsimp only [uioLineDone]
  split <;> simp [apply_ite State.setupView]

@[simp] theorem flagCpl_setup {h tag : Nat} : (s.flagCpl h tag).setupView = s.setupView := by
  simp [flagCpl, apply_ite State.setupView]

@[simp] theorem bufEvict_setup {die : Nat} : (s.bufEvict die).setupView = s.setupView := by
  dsimp only [bufEvict]
  split <;> simp

@[simp] theorem bufMake_setup {die n : Nat} : (s.bufMake die n).setupView = s.setupView :=
  foldl_view (fun _ _ => bufEvict_setup) _ _

@[simp] theorem bufPut_setup {die ln : Nat} {b : BufLine} : (s.bufPut die ln b).setupView = s.setupView := by
  rw [bufPut]
  split
  · rfl
  · exact bufMake_setup

@[simp] theorem fillBuf_setup {die : Nat} {r : LineReq} {data : Line} {pz : Bool} :
    (s.fillBuf die r data pz).setupView = s.setupView := by
  dsimp only [fillBuf]
  split
  · rfl
  · split <;> simp

@[simp] theorem respond_setup {r : LineReq} {data : Line} {pz : Bool} : (s.respond r data pz).setupView = s.setupView := by
  dsimp only [respond]
  split <;> simp only [reply_setup, flagCpl_setup, uioLineDone_setup, fillBuf_setup, apply_ite State.setupView, setup_mk,
    setup_eta, ite_self]

@[simp] theorem finishOwed_setup {id : Nat} : (s.finishOwed id).setupView = s.setupView := by
  rw [finishOwed, ackConflicts_setup, foldl_view (fun _ _ => respond_setup)]
  rfl

@[simp] theorem letWriteGo_setup {id : Nat} : (s.letWriteGo id).setupView = s.setupView := by
  unfold letWriteGo
  split <;> rfl

@[simp] theorem degrade_setup {i : Nat} : (s.degrade i).setupView = s.setupView := by
  rw [degrade, alarm_setup, foldl_view (fun _ _ => finishOwed_setup.trans letWriteGo_setup)]
  rfl

/-! ### Registers and heads stay: requests of the controller's own -/

@[simp] theorem rerouteSync_setup {port line : Nat} : (s.rerouteSync port line).setupView = s.setupView := by
  simp [rerouteSync, apply_ite State.setupView]

@[simp] theorem issue_setup {r : Remote} : (s.issue r).2.setupView = s.setupView := by
  dsimp only [issue]
  split
  · simp [apply_ite Prod.snd, apply_ite State.setupView]
  · split
    · rfl
    · simp [apply_ite State.setupView]

/-! ### Registers and heads stay: landing a write -/

@[simp] theorem activateAt_setup {ch a : Nat} : (s.activateAt ch a).setupView = s.setupView := by
  unfold activateAt
  split
  · rfl
  · simp [setBank, apply_ite State.setupView]

@[simp] theorem touch_setup {ln : Nat} {wr : Bool} : (s.touch ln wr).setupView = s.setupView := by simp [touch]

@[simp] theorem chanWrite_setup {ln : Nat} : (s.chanWrite ln).setupView = s.setupView := by
  simp [chanWrite, apply_ite State.setupView]

@[simp] theorem keepLine_setup {ln : Nat} : (s.keepLine ln).setupView = s.setupView := by
  unfold keepLine
  split
  · rfl
  · split
    · rfl
    · split <;> rfl

@[simp] theorem logUe_setup {ln dev : Nat} {recovered : Bool} : (s.logUe ln dev recovered).setupView = s.setupView := logAt_setup

@[simp] theorem postMediaEvent_setup {ln : Nat} : (s.postMediaEvent ln).setupView = s.setupView := by
  unfold postMediaEvent
  split
  · rfl
  · exact foldl_view (fun _ _ => emit_setup) _ _

@[simp] theorem countPoisonRead_setup {ln : Nat} : (s.countPoisonRead ln).setupView = s.setupView := by
  unfold countPoisonRead
  split <;> simp

@[simp] theorem putParity_setup {ln : Nat} {d : Line} : (s.putParity ln d).setupView = s.setupView := by simp [putParity]

@[simp] theorem updateParity_setup {e : Extent} {ln : Nat} {new : Line} : (s.updateParity e ln new).setupView = s.setupView := by
  simp [updateParity, apply_ite State.setupView]

@[simp] theorem writeParity_setup {ln : Nat} {new : Line} : (s.writeParity ln new).setupView = s.setupView := by
  unfold writeParity
  split <;> simp [apply_ite State.setupView]

@[simp] theorem putWritten_setup {ln : Nat} {new : Line} {keeps : Bool} : (s.putWritten ln new keeps).setupView = s.setupView := by
  simp [putWritten, apply_ite State.setupView]

@[simp] theorem markWritten_setup {ln : Nat} {pois keepsLost keepsUe : Bool} :
    (s.markWritten ln pois keepsLost keepsUe).setupView = s.setupView := rfl

@[simp] theorem rescueWrite_setup {ln : Nat} {d : Line} {stuck poison : Bool} :
    (s.rescueWrite ln d stuck poison).setupView = s.setupView := by
  unfold rescueWrite
  split
  · split
    · simp [apply_ite State.setupView]
    · rfl
  · rfl

@[simp] theorem mirrorWrite_setup {cid : Option Nat} {i : Nat} {e : Extent} {ln : Nat} {d : Line} {poison : Bool} :
    (s.mirrorWrite cid i e ln d poison).2.setupView = s.setupView := by
  dsimp only [mirrorWrite]
  split
  · rfl
  · split
    · rfl
    · split <;> simp

@[simp] theorem mirrorLine_setup {cid : Option Nat} {ln : Nat} {new : Line} {pois : Bool} :
    (s.mirrorLine cid ln new pois).2.setupView = s.setupView := by
  unfold mirrorLine
  split <;> simp

@[simp] theorem setLine_setup {cid : Option Nat} {ln : Nat} {new : Line} {stuck pois full pz : Bool} :
    (s.setLine cid ln new stuck pois full pz).2.setupView = s.setupView := by
  simp [setLine, apply_ite State.setupView]

@[simp] theorem dropWrite_setup {ln : Nat} : (s.dropWrite ln).setupView = s.setupView := by
  unfold dropWrite
  split <;> simp

@[simp] theorem landBytes_setup {cid : Option Nat} {ln : Nat} {data : Line} {be : ByteEn} {full pz : Bool} :
    (s.landBytes cid ln data be full pz).2.setupView = s.setupView := by
  simp [landBytes, apply_ite Prod.snd, apply_ite State.setupView]

@[simp] theorem compareWait_setup {ln v st cid : Nat} : (compareWait ln v st s cid).setupView = s.setupView := by
  unfold compareWait
  split
  · rfl
  · simp [apply_ite State.setupView]

@[simp] theorem landed_setup {ln : Nat} {be : ByteEn} {new : Line} {kv : Bool} : (s.landed ln be new kv).setupView = s.setupView := by
  have hwaits (v st : Nat) : (s.cmds.keys.foldl (compareWait ln v st) s).setupView = s.setupView :=
    foldl_view (fun _ _ => compareWait_setup) _ _
  dsimp only [landed]
  repeat' split
  all_goals exact hwaits _ _

@[simp] theorem landNow_setup {cid : Option Nat} {ln : Nat} {data : Line} {be : ByteEn} {full pz kv : Bool} :
    (s.landNow cid ln data be full pz kv).2.setupView = s.setupView := by simp [landNow]

@[simp] theorem fetchCopy_setup {r : LineReq} : (s.fetchCopy r).2.setupView = s.setupView := by
  dsimp only [fetchCopy]
  split
  · rfl
  · split <;> next hi => exact (congrArg (·.2.setupView) hi).symm.trans issue_setup

@[simp] theorem partnerLost_setup {ln : Nat} : (s.partnerLost ln).setupView = s.setupView := by
  simp [partnerLost, apply_ite State.setupView]

@[simp] theorem landLine_setup {cid : Option Nat} {ln : Nat} {data : Line} {be : ByteEn} {full pz kv : Bool} :
    (s.landLine cid ln data be full pz kv).2.setupView = s.setupView := by
  dsimp only [landLine]
  split
  · split <;> simp
  · simp

@[simp] theorem ownLine_setup {ln : Nat} {data : Line} {be : ByteEn} {full pz : Bool} :
    (s.ownLine ln data be full pz).setupView = s.setupView := by
  simp [ownLine, apply_ite State.setupView]

@[simp] theorem ownWrite_setup {a : Nat} {bs : List Nat} {pz : Bool} : (s.ownWrite a bs pz).setupView = s.setupView :=
  foldl_view (fun _ _ => ownLine_setup) _ _

/-! ### Registers and heads stay: events, the log, alarms and the trace -/

@[simp] theorem ringMsix_setup {w : Nat} : (s.ringMsix w).setupView = s.setupView := by
  simp [ringMsix, sendMsix, apply_ite State.setupView]

@[simp] theorem flushEvents_setup {n : Nat} : (s.flushEvents n).setupView = s.setupView := by
  induction n generalizing s with
  | zero => rfl
  | succ n ih =>
    dsimp only [flushEvents]
    split
    · split <;> simp [ih]
    · rfl

@[simp] theorem raiseEvent_setup {kind status r0 r1 : Nat} : (s.raiseEvent kind status r0 r1).setupView = s.setupView := by
  simp [raiseEvent, apply_ite State.setupView]

@[simp] theorem logWrite_setup {e : LogEntry} : (s.logWrite e).setupView = s.setupView := by simp [logWrite]

@[simp] theorem flushLog_setup {n : Nat} : (s.flushLog n).setupView = s.setupView := by
  induction n generalizing s with
  | zero => rfl
  | succ n ih =>
    dsimp only [flushLog]
    split
    · rfl
    · split <;> simp [ih]

@[simp] theorem flushAlarms_setup {n : Nat} : (s.flushAlarms n).setupView = s.setupView := by
  induction n generalizing s with
  | zero => rfl
  | succ n ih =>
    dsimp only [flushAlarms]
    split
    · split <;> simp [ih]
    · rfl

@[simp] theorem updateAlert_setup : s.updateAlert.setupView = s.setupView := rfl

@[simp] theorem traceChanged_setup {old new : Nat} : (s.traceChanged old new).setupView = s.setupView := by
  simp [traceChanged, apply_ite State.setupView]

@[simp] theorem recRingsChanged_setup {l a : Nat} : (s.recRingsChanged l a).setupView = s.setupView := by
  simp [recRingsChanged, apply_ite State.setupView]

end State

/-! ### Tables of words -/

namespace Tab
variable {α : Type}

/-- A filter that looks at keys alone keeps a key's value, or takes the key out. -/
theorem get?_filter_key {t : Tab α} {p : Nat → Bool} {k : Nat} :
    (Tab.filter t (fun o _ => p o)).get? k = if p k then t.get? k else none := by
  obtain ⟨l⟩ := t
  induction l with
  | nil => simp [filter, get?, findRow]
  | cons x l ih =>
    simp only [filter, get?, List.filter_cons, findRow] at ih ⊢
    by_cases hx : x.1 = k
    · subst hx
      cases hp : p x.1 <;> simp_all [findRow]
    · cases p x.1 <;> simp_all [findRow]

theorem get?_none_of_not_mem {t : Tab α} {k : Nat} (h : k ∉ t.keys) : t.get? k = none := by
  obtain ⟨l⟩ := t
  induction l with
  | nil => rfl
  | cons x l ih =>
    obtain ⟨hk, hl⟩ : k ≠ x.1 ∧ k ∉ (Tab.mk l).keys := by simpa [keys] using h
    simp only [get?, findRow, if_neg hk.symm]
    exact ih hl

/-- Setting the rows of a table whose keys differ, one after another, puts every one of them into force. -/
theorem get?_fold_set {t b : Tab α} {k : Nat} (h : t.keys.Nodup) :
    (t.fold (fun u o w => Tab.set u o w) b).get? k = (t.get? k).or (b.get? k) := by
  obtain ⟨l⟩ := t
  induction l generalizing b with
  | nil => rfl
  | cons x l ih =>
    obtain ⟨hx, hl⟩ := List.nodup_cons.mp h
    refine (ih hl).trans ?_
    rw [get?_set]
    by_cases hk : x.1 = k
    · have hnone : findRow l k = none := get?_none_of_not_mem (t := ⟨l⟩) (hk ▸ hx)
      simp [hnone, hk, get?, findRow]
    · simp [hk, get?, findRow]

theorem keys_filter_nodup {t : Tab α} {p : Nat → α → Bool} (h : t.keys.Nodup) : (Tab.filter t p).keys.Nodup :=
  h.sublist (List.filter_sublist.map _)

end Tab

/-! ### The commit engine -/

namespace State
variable {s : State} {f : Frame}

/-- The words a frame puts into force: its own at the offsets given, the old ones elsewhere (R453). -/
theorem adopt_get? {offs : List Nat} {o : Nat} (h : f.words.keys.Nodup) :
    (s.adopt f offs).regs.committed.get? o = if o ∈ offs then f.words.get? o else s.regs.committed.get? o := by
  dsimp only [adopt]
  rw [Tab.get?_fold_set (Tab.keys_filter_nodup h), Tab.get?_filter_key, Tab.get?_filter_key (p := fun o => !offs.contains o)]
  by_cases ho : o ∈ offs <;> simp [ho]

theorem adopt_committed_in {offs : List Nat} {o : Nat} (h : f.words.keys.Nodup) (ho : o ∈ offs) :
    (s.adopt f offs).regs.committedAt o = f.words.getD o (regReset o) := by
  rw [RegSt.committedAt, Tab.getD, adopt_get? h, if_pos ho]
  rfl

theorem adopt_committed_out {offs : List Nat} {o : Nat} (h : f.words.keys.Nodup) (ho : o ∉ offs) :
    (s.adopt f offs).regs.committedAt o = s.regs.committedAt o := by
  rw [RegSt.committedAt, Tab.getD, adopt_get? h, if_neg ho]
  rfl

/-- The engine applies the front frame to the domain it belongs to (R455). -/
theorem commitStep_front {rest : List Frame} {app : State → Frame → State} (h : s.regs.queue = f :: rest) :
    s.commitStep f.dom app = app (s.taken rest) f := by
  simp [commitStep, takeFrame, h, taken]

@[simp] theorem report_outcome {d : Dom} {r : Reason} {a : Nat} :
    (s.report d r a).outcome d = { done := ((s.outcome d).done + 1) % 2 ^ 32, whereOff := a, reason := r } := Tab.getD_set_self

theorem decide_rejected {d : Dom} {cs : List Check} {eff : State → State} {k : Check} (h : faultOf cs = some k) :
    s.decide_ d cs eff = s.report d k.reason (k.at_ - d.block) := by
  rw [decide_, h]

theorem decide_accepted {d : Dom} {cs : List Check} {eff : State → State} (h : faultOf cs = none) :
    s.decide_ d cs eff = (eff s).report d .accepted 0 := by
  rw [decide_, h]

@[simp] theorem setCtx_ctxs {i : Nat} {c : Ctx} : (s.setCtx i c).eng.ctxs = s.eng.ctxs.set i c := by
  dsimp only [setCtx]
  split <;> rfl

@[simp] theorem dropRows_ctxs {p : RowLine → Bool} : (s.dropRows p).eng.ctxs = s.eng.ctxs := rfl

end State

/-- What the commit of one domain does with the front frame `f`: `row` gives its command, its domain, its checks and the offsets
of its registers (R453, R456, R458, R495). -/
def CommitDecides (s : State) (f : Frame) (rest : List Frame) (row : Instr × Dom × List Check × List Nat) : Prop :=
  (∀ k, faultOf row.2.2.1 = some k → Completes row.1 s (fun t => Rejected (s.taken rest) t row.2.1 k)) ∧
  (faultOf row.2.2.1 = none → Completes row.1 s (fun t =>
    Accepted s t row.2.1 ∧ t.regs.queue = rest ∧ t.regs.staged = s.regs.staged ∧
    (∀ o, o ∈ row.2.2.2 → t.regs.committedAt o = f.words.getD o (regReset o)) ∧
    (∀ o, o ∉ row.2.2.2 → t.regs.committedAt o = s.regs.committedAt o) ∧
    (f.dom = .eng → State.ctxOfWord (f.word offCtx) ≠ s.eng.ctxs.getD f.sel {} →
      t.eng.ctxs.get? f.sel = some (State.ctxOfWord (f.word offCtx))) ∧
    (f.dom ≠ .ctl → f.dom ≠ .obs → t.mem = s.mem ∧ t.rings = s.rings ∧ t.cmds = s.cmds) ∧ t.heads = s.heads))

section Commits
variable {s : State} {f : Frame} {rest : List Frame} {d : Dom} {i : Instr} {app : State → Frame → State} {cs : List Check}
  {offs : List Nat} {after : State → State}
  (hq : s.regs.queue = f :: rest) (hnd : f.words.keys.Nodup) (hd : f.dom = d) (hexec : exec i s = .next (s.commitStep d app))
  (happ : app (s.taken rest) f = (s.taken rest).applyRegs f offs cs after)
include hq hnd hd hexec happ

/-- A commit decides as it must when what follows the adoption of its registers changes neither registers nor heads, nor memory,
rings and commands where its domain is not CTL or OBS, and sets the context that an ENG frame carries. -/
theorem commitDecides_of_after (hsetup : ∀ u, (after u).setupView = u.setupView)
    (hwork : d ≠ .ctl → d ≠ .obs → ∀ u, (after u).workView = u.workView)
    (hctx : d = .eng → State.ctxOfWord (f.word offCtx) ≠ s.eng.ctxs.getD f.sel {} →
      (after ((s.taken rest).adopt f offs)).eng.ctxs.get? f.sel = some (State.ctxOfWord (f.word offCtx))) :
    CommitDecides s f rest (i, d, cs, offs) := by
  subst hd
  have hnext : exec i s = .next ((s.taken rest).applyRegs f offs cs after) := by
    rw [hexec, State.commitStep_front hq, happ]
  constructor
  · intro k hk
    exact ⟨_, hnext, State.decide_rejected hk⟩
  · intro hnone
    obtain ⟨hregs, hheads⟩ := Prod.mk.inj (hsetup ((s.taken rest).adopt f offs))
    have hstatus : (after ((s.taken rest).adopt f offs)).regs.status = s.regs.status := by rw [hregs]; rfl
    refine ⟨_, hnext, ?_⟩
    rw [State.applyRegs, State.decide_accepted hnone]
    refine ⟨?_, (congrArg RegSt.queue hregs :), (congrArg RegSt.staged hregs :), fun o ho => ?_, fun o ho => ?_, hctx,
      fun hctl hobs => ?_, hheads⟩
    · rw [Accepted, State.report_outcome, State.outcome, hstatus]
      rfl
    · exact (congrArg (RegSt.committedAt · o) hregs).trans (State.adopt_committed_in hnd ho)
    · exact (congrArg (RegSt.committedAt · o) hregs).trans (State.adopt_committed_out hnd ho)
    · obtain ⟨-, hrest⟩ := Prod.mk.inj (hwork hctl hobs ((s.taken rest).adopt f offs))
      obtain ⟨hmem, hrest⟩ := Prod.mk.inj hrest
      exact ⟨hmem, Prod.mk.inj hrest⟩

/-- The same for a domain other than ENG, after which registers, heads, memory, rings and commands stand as they were. -/
theorem commitDecides_of_work (hne : d ≠ .eng) (hwork : ∀ u, (after u).workView = u.workView) :
    CommitDecides s f rest (i, d, cs, offs) :=
  commitDecides_of_after hq hnd hd hexec happ (fun u => setup_of_work (hwork u)) (fun _ _ => hwork) (fun h => absurd h hne)

/-- The same for CTL and OBS, whose events and records may be written into the store. -/
theorem commitDecides_of_setup (hd' : d = .ctl ∨ d = .obs) (hsetup : ∀ u, (after u).setupView = u.setupView) :
    CommitDecides s f rest (i, d, cs, offs) :=
  commitDecides_of_after hq hnd hd hexec happ hsetup (fun hctl hobs => (hd'.elim hctl hobs).elim)
    (fun h => by subst h; simp at hd')

end Commits

/-! ### The domains -/

section Domains
variable {s : State} {f : Frame} {rest : List Frame} (hq : s.regs.queue = f :: rest) (hnd : f.words.keys.Nodup)
include hq hnd

theorem ctlCommit_decides (hd : f.dom = .ctl) : CommitDecides s f rest
    (.ctlCommit, .ctl, (s.taken rest).ctlChecks f, [offCtlMaster, offCtlPort, offCtlMortar, offCtlFlagCfg]) :=
  commitDecides_of_setup hq hnd hd (app := State.applyCtl) rfl (by unfold State.applyCtl; rfl) (.inl rfl) (fun u => by
    split
    · rfl
    · exact State.raiseEvent_setup)

theorem cohCommit_decides (hd : f.dom = .coh) : CommitDecides s f rest
    (.cohCommit, .coh, (s.taken rest).cohChecks f, [offCohCfg, offCohLostCfg]) :=
  commitDecides_of_work hq hnd hd (app := State.applyCoh) rfl rfl nofun (fun _ => rfl)

theorem medCommit_decides (hd : f.dom = .med) : CommitDecides s f rest
    (.medCommit, .med, (s.taken rest).medChecks f,
      [offMedPar, offMedMirCfg, offMedRescue, offMedRetCfg, offMedDist, offMedScrub, offMedSpeed]) :=
  commitDecides_of_work hq hnd hd (app := State.applyMed) rfl (by unfold State.applyMed; rfl) nofun
    (fun u => by simp [apply_ite State.workView])

theorem engCommit_decides (hd : f.dom = .eng) : CommitDecides s f rest
    (.engCommit, .eng, (s.taken rest).engChecks f, [offKvPool, offKvPool + 8, offRowc]) :=
  commitDecides_of_after hq hnd hd (app := State.applyEng) rfl (by unfold State.applyEng; rfl)
    (fun u => setup_of_work (by simp [apply_ite State.workView])) (fun _ _ u => by simp [apply_ite State.workView])
    (fun _ hnew => by
      have hchanges : State.ctxOfWord (f.word offCtx) ≠
          ((s.taken rest).adopt f [offKvPool, offKvPool + 8, offRowc]).eng.ctxs.getD f.sel {} := hnew
      simp only [if_neg hchanges]
      split <;> simp)

theorem timCommit_decides (hd : f.dom = .tim) : CommitDecides s f rest
    (.timCommit, .tim, (s.taken rest).timChecks f, State.timOffs) :=
  commitDecides_of_work hq hnd hd (app := State.applyTim) rfl rfl nofun (fun _ => rfl)

theorem pwrCommit_decides (hd : f.dom = .pwr) : CommitDecides s f rest
    (.pwrCommit, .pwr, (s.taken rest).pwrChecks f,
      (List.range 24).map (fun n => offPwrRail + 8 * n) ++ [offPwrPkg, offPwrDroop, offPwrTherm]) :=
  commitDecides_of_work hq hnd hd (app := State.applyPwr) rfl rfl nofun (fun _ => rfl)

theorem obsCommit_decides (hd : f.dom = .obs) : CommitDecides s f rest
    (.obsCommit, .obs, (s.taken rest).obsChecks f,
      [offTraceCfg, offLogCfg, offAlmCfg] ++ (List.range 4).map (fun i => offAlertMask + 8 * i)) :=
  commitDecides_of_setup hq hnd hd (app := State.applyObs) rfl (by unfold State.applyObs; rfl) (.inr rfl) (fun u => by simp)

theorem secCommit_decides (hd : f.dom = .sec) : CommitDecides s f rest (.secCommit, .sec, [], [offSecPolicy]) :=
  commitDecides_of_work hq hnd hd (app := State.applySec) rfl rfl nofun (fun _ => rfl)

theorem hedCommit_decides {h : Nat} (hd : f.dom = .hed h) : CommitDecides s f rest
    (.hedCommit, .hed h, (s.taken rest).hedChecks f h, State.hedOffs h) := by
  have hexec : exec .hedCommit s = .next (s.commitStep (.hed h) (fun s f => s.applyHed f h)) := by
    simp [exec, execHedCommit, hq, State.hedOf, hd]
  exact commitDecides_of_work hq hnd hd hexec (by unfold State.applyHed; rfl) nofun (fun u => by simp [apply_ite State.workView])

end Domains

/-! ### Commit registers (R454, R455) -/

theorem setupWrite_up {s : State} {h : Nat} {g : State → State} (hup : s.headUp h = true) : s.setupWrite h g = g (s.landSetup h) :=
  if_pos hup

/-- `t` is `s` after a write of head `h` that landed in a set-up register: CTL_SETUP_SRC notes the head, no committed copy changes,
and nothing but the registers does (R189, R453). -/
def SetupLanded (s t : State) (h : Nat) : Prop :=
  t.regs.setupSrc = s.regs.setupSrc ||| 2 ^ h ∧ t.regs.committed = s.regs.committed ∧ t = { s with regs := t.regs }

theorem State.commitLands_full {s : State} {d : Dom} (hfull : 16 ≤ s.regs.queue.length) : s.commitLands d = s.report d .busy 0 :=
  if_pos hfull

section CommitWrite
variable {s : State} {h off : Nat} {v : BitVec 32} {d : Dom}

theorem exec_commitWrite (hup : s.headUp h = true) (hd : domOf off = some d) : exec (.commitWrite h off v) s =
    .next (if bit v.toNat 0 then (s.landSetup h).commitLands d else s.landSetup h) := by
  simp [exec, execCommitWrite, setupWrite_up hup, hd]

theorem commitWrite_captures (hup : s.headUp h = true) (hd : domOf off = some d) (hgo : bit v.toNat 0 = true)
    (hroom : s.regs.queue.length < 16) :
    Completes (.commitWrite h off v) s (fun t => SetupLanded s t h ∧ t.regs.status = s.regs.status ∧
      ∃ f, t.regs.queue = s.regs.queue ++ [f] ∧ f.dom = d ∧ (∀ o, d.selOff = some o → f.sel = s.selAt o) ∧
        (∀ o, d.span.1 ≤ o → o < d.span.2 → f.words.get? o = s.regs.staged.get? o)) := by
  refine ⟨_, exec_commitWrite hup hd, ?_⟩
  have hfull : ¬ 16 ≤ (s.landSetup h).regs.queue.length := Nat.not_le.mpr hroom
  rw [if_pos hgo, State.commitLands, if_neg hfull]
  refine ⟨⟨rfl, rfl, rfl⟩, rfl, _, rfl, rfl, fun o ho => ?_, fun o hlo hhi => ?_⟩
  · simp only [ho]
    rfl
  · exact (Tab.get?_filter_key (p := fun o => decide (d.span.1 ≤ o) && decide (o < d.span.2))).trans (if_pos (by simp [hlo, hhi]))

theorem commitWrite_busy (hup : s.headUp h = true) (hd : domOf off = some d) (hgo : bit v.toNat 0 = true)
    (hfull : 16 ≤ s.regs.queue.length) :
    Completes (.commitWrite h off v) s (fun t => SetupLanded s t h ∧ t.regs.queue = s.regs.queue ∧
      t.outcome d = { done := ((s.outcome d).done + 1) % 2 ^ 32, whereOff := 0, reason := .busy }) := by
  refine ⟨_, exec_commitWrite hup hd, ?_⟩
  rw [if_pos hgo, State.commitLands_full (s := s.landSetup h) hfull]
  exact ⟨⟨rfl, rfl, rfl⟩, rfl, State.report_outcome⟩

theorem commitWrite_ignored (hup : s.headUp h = true) (hd : domOf off = some d) (hgo : bit v.toNat 0 = false) :
    Completes (.commitWrite h off v) s (fun t =>
      SetupLanded s t h ∧ t.regs.queue = s.regs.queue ∧ t.regs.status = s.regs.status) := by
  refine ⟨_, exec_commitWrite hup hd, ?_⟩
  rw [if_neg (by simp [hgo])]
  exact ⟨⟨rfl, rfl, rfl⟩, rfl, rfl⟩

end CommitWrite

/-! ### Selectors (R457) -/

namespace State
variable {s : State} {l : List (Nat × Nat)}

theorem stagedAt_stage {o o' v : Nat} : (s.stage o v).regs.stagedAt o' = if o = o' then BitVec.ofNat 64 v else s.regs.stagedAt o' := by
  simp only [RegSt.stagedAt, stage_regs, Tab.getD, Tab.get?_set]
  split <;> rfl

/-- Loading words changes staged words alone. -/
theorem foldl_loadWord_eq : l.foldl loadWord s = { s with regs := { s.regs with staged := (l.foldl loadWord s).regs.staged } } := by
  induction l generalizing s with
  | nil => rfl
  | cons x l ih => exact ih

theorem stagedAt_foldl_loadWord_other {o : Nat} (ho : ∀ x ∈ l, x.1 ≠ o) :
    (l.foldl loadWord s).regs.stagedAt o = s.regs.stagedAt o := by
  induction l generalizing s with
  | nil => rfl
  | cons x l ih =>
    obtain ⟨hx, hl⟩ := List.forall_mem_cons.mp ho
    exact (ih hl).trans (stagedAt_stage.trans (if_neg hx))

/-- Words at offsets that differ are loaded each as it would be alone. -/
theorem stagedAt_foldl_loadWord {x : Nat × Nat} (hl : (l.map Prod.fst).Nodup) (hx : x ∈ l) :
    (l.foldl loadWord s).regs.stagedAt x.1
      = BitVec.ofNat 64 (x.2 - (x.2 &&& opMask x.1) + ((s.regs.stagedAt x.1).toNat &&& opMask x.1)) := by
  induction l generalizing s with
  | nil => cases hx
  | cons y l ih =>
    obtain ⟨hy, hl⟩ := List.nodup_cons.mp hl
    rw [List.foldl_cons]
    rcases List.mem_cons.mp hx with hxy | hx
    · subst hxy
      rw [stagedAt_foldl_loadWord_other fun z hz he => hy (List.mem_map.mpr ⟨z, hz, he⟩), loadWord, stagedAt_stage, if_pos rfl]
    · have hne : y.1 ≠ x.1 := fun he => hy (List.mem_map.mpr ⟨x, hx, he.symm⟩)
      rw [ih hl hx, loadWord, stagedAt_stage, if_neg hne]

/-- Offsets below a row of words, followed by the words of the row, differ. -/
theorem nodup_append_row {l : List Nat} {base n : Nat} (hl : l.Nodup) (hbelow : ∀ o ∈ l, o < base) :
    (l ++ (List.range n).map (fun k => base + 8 * k)).Nodup := by
  refine List.nodup_append.mpr ⟨hl, List.Pairwise.map _ (fun a b hab => ?_) List.nodup_range, fun o ho w hw => ?_⟩
  · omega
  · obtain ⟨k, -, rfl⟩ := List.mem_map.mp hw
    have := hbelow o ho
    omega

theorem adrWindow_keys_nodup {i : Nat} : ((s.adrWindow i).map Prod.fst).Nodup := by
  simp only [adrWindow, List.map_append, List.map_map, Function.comp_def]
  exact nodup_append_row (l := [offAdrRange, offAdrAttr, offAdrMirror, offAdrTag, offAdrTag + 8]) (by decide) (by decide)

theorem cmpWindow_keys_nodup {c : Nat} : ((s.cmpWindow c).map Prod.fst).Nodup := by
  simp only [cmpWindow, List.map_append, List.map_map, Function.comp_def]
  exact nodup_append_row (l := [offCmpCtl, offCmpMeter, offCmpCnt, offCmpMig, offCmpKv] ++ (List.range 8).map (offCmpQuota + 8 * ·))
    (nodup_append_row (by decide) (by decide)) (by decide)

/-- No window holds a register twice. -/
theorem window_keys_nodup {sel n : Nat} : ((s.window sel n).map Prod.fst).Nodup := by
  unfold window
  split
  · exact adrWindow_keys_nodup
  split
  · exact cmpWindow_keys_nodup
  split
  · exact (by decide : [offRngSq, offRngCq, offRngLines, offRngLines + 8, offRngCtr, offRngAttr].Nodup)
  split
  · exact (by decide : [offCtx].Nodup)
  split
  · exact (by decide : [offGrp, offGrpLoc, offGrpGnext].Nodup)
  split
  · exact (by decide : [offIdxGeom, offIdxAttr, offIdxMem, offIdxMem + 8, offIdxMem + 16].Nodup)
  · exact List.nodup_nil

end State

/-- The state when a write of head `h` has put `n` into a selector whose window is not loaded yet. -/
def State.selected (s : State) (h sel n : Nat) : State :=
  { s.landSetup h with regs := { (s.landSetup h).regs with imm := s.regs.imm.set sel (BitVec.ofNat 64 n) } }

section Selector
variable {s : State} {h off : Nat} {v : BitVec 32}

theorem selectorWrite_loads (hup : s.headUp h = true) (hsel : selBits off ≠ 0) :
    let n := v.toNat % 2 ^ selBits off
    Completes (.selectorWrite h off v) s (fun t => SetupLanded s t h ∧ t.regs.imm.get? off = some (BitVec.ofNat 64 n) ∧
      t.regs.queue = s.regs.queue ∧
      (∀ x, x ∈ s.window off n → t.regs.stagedAt x.1 = BitVec.ofNat 64
        (x.2 - (x.2 &&& State.opMask x.1) + ((s.regs.stagedAt x.1).toNat &&& State.opMask x.1))) ∧
      (∀ o, (s.window off n).any (fun x => x.1 == o) = false → t.regs.stagedAt o = s.regs.stagedAt o)) := by
  intro n
  have hexec : exec (.selectorWrite h off v) s = .next ((s.landSetup h).select off v.toNat) := by
    simp [exec, execSelectorWrite, setupWrite_up hup, hsel]
  refine ⟨_, hexec, ?_⟩
  have hselect : (s.landSetup h).select off v.toNat = (s.window off n).foldl State.loadWord (s.selected h off n) := rfl
  rw [hselect]
  refine ⟨?_, ?_, ?_, fun x hx => State.stagedAt_foldl_loadWord State.window_keys_nodup hx,
    fun o ho => State.stagedAt_foldl_loadWord_other (by simpa using ho)⟩
  · rw [State.foldl_loadWord_eq]
    exact ⟨rfl, rfl, rfl⟩
  · rw [State.foldl_loadWord_eq]
    exact Tab.get?_set_self
  · rw [State.foldl_loadWord_eq]
    rfl

end Selector

/-! ### Register words and CXL component registers (R6, R451 to R453) -/

theorem ite_lt {c : Prop} [Decidable c] {a b n : Nat} (ha : a < n) (hb : b < n) : (if c then a else b) < n := by
  split <;> assumption

theorem find?_mask_lt {p : Nat × Nat → Bool} {l : List (Nat × Nat)} (hl : ∀ x ∈ l, x.2 < 2 ^ 64) :
    ((l.find? p).map (·.2)).getD 0 < 2 ^ 64 := by
  cases hf : l.find? p with
  | none => decide
  | some x => exact hl x (List.mem_of_find?_eq_some hf)

/-- A mask of writable bits lies in a 64-bit word. -/
theorem rwMask_lt (off : Nat) : rwMask off < 2 ^ 64 := by
  unfold rwMask
  dsimp only
  exact ite_lt (by decide) <| ite_lt (by decide) <| ite_lt (by decide) <| ite_lt (by decide) <|
    ite_lt (ite_lt (by decide) (by decide)) <| ite_lt (ite_lt (by decide) (by decide)) <| ite_lt (by decide) <|
    ite_lt (by decide) <| ite_lt (ite_lt (by decide) (ite_lt (by decide) (by decide))) (find?_mask_lt (by decide))

/-- A write of a whole word covers its 64 bits. -/
theorem and_bits_word (n : Nat) : n &&& bits 63 0 = n % 2 ^ 64 := Nat.and_two_pow_sub_one_eq_mod n 64

theorem rwMask_and_bits (off : Nat) : rwMask off &&& bits 63 0 = rwMask off := by
  rw [and_bits_word, Nat.mod_eq_of_lt (rwMask_lt off)]

section RegisterWrite
variable {s : State} {h bar off size : Nat} {v : Word}

theorem alignedAccess_word (hoff : off % 8 = 0) : State.alignedAccess off 8 = true := by simp [State.alignedAccess, hoff]

theorem headAt_modHead {g : Head → Head} : (s.modHead h g).headAt h = g (s.headAt h) := Tab.getD_set_self

theorem cxlWrite_word {n : Nat} :
    let old := (s.headAt h).cxl.getD (off / 8) 0
    s.cxlWrite h off 8 n = s.modHead h (fun x => { x with cxl := x.cxl.set (off / 8) (old - old % 2 ^ 64 + n % 2 ^ 64) }) := by
  simp only [← and_bits_word]
  rfl

theorem registerWrite_stages (hup : s.headUp h = true) (hoff : off % 8 = 0) (hrw : rwMask off ≠ 0) :
    Completes (.registerWrite h 0 off 8 v) s (fun t => SetupLanded s t h ∧ t.regs.queue = s.regs.queue ∧
      t.regs.stagedAt off = BitVec.ofNat 64
        ((s.regs.stagedAt off).toNat - ((s.regs.stagedAt off).toNat &&& rwMask off) + (v.toNat &&& rwMask off)) ∧
      (∀ o, o ≠ off → t.regs.stagedAt o = s.regs.stagedAt o)) := by
  have hword : off / 8 * 8 = off := by omega
  have hexec : exec (.registerWrite h 0 off 8 v) s = .next ((s.stageWord off (bits 63 0) v.toNat).landSetup h) := by
    simp [exec, execRegisterWrite, State.regWrite, hup, alignedAccess_word hoff, hword, State.landWord, hrw, State.halves]
  refine ⟨_, hexec, ?_⟩
  rw [State.stageWord, rwMask_and_bits]
  exact ⟨⟨rfl, rfl, rfl⟩, rfl, State.stagedAt_stage.trans (if_pos rfl), fun o ho => State.stagedAt_stage.trans (if_neg ho.symm)⟩

theorem registerWrite_keepsCxl (hup : s.headUp h = true) (hoff : off % 8 = 0) (hlo : 0x10000 ≤ off) (hhi : off < 0x20000) :
    Completes (.registerWrite h 4 off 8 v) s (fun t => (t.headAt h).cxl.getD (off / 8) 0 % 2 ^ 64 = v.toNat ∧
      (∀ o, o ≠ off / 8 → (t.headAt h).cxl.get? o = (s.headAt h).cxl.get? o) ∧
      (∀ j, j ≠ h → t.heads.get? j = s.heads.get? j) ∧ t = { s with heads := t.heads }) := by
  have hmsix : ¬ off < 0x8000 := by omega
  have hexec : exec (.registerWrite h 4 off 8 v) s = .next (s.cxlWrite h off 8 v.toNat) := by
    simp [exec, execRegisterWrite, State.regWrite, hup, alignedAccess_word hoff, hmsix, hlo, hhi]
  refine ⟨_, hexec, ?_⟩
  rw [cxlWrite_word]
  refine ⟨?_, fun o ho => ?_, fun j hj => Tab.get?_set_other hj.symm, rfl⟩
  · rw [headAt_modHead, Tab.getD_set_self]
    have hv := v.isLt
    omega
  · rw [headAt_modHead, Tab.get?_set_other ho.symm]

theorem registerWrite_unaligned (hup : s.headUp h = true) (hbad : (size ≠ 4 ∧ size ≠ 8) ∨ off % size ≠ 0) :
    exec (.registerWrite h bar off size v) s = .next s := by
  have halign : State.alignedAccess off size = false := by
    rcases hbad with ⟨h4, h8⟩ | hoff <;> simp [State.alignedAccess, *]
  simp [exec, execRegisterWrite, State.regWrite, hup, halign]

end RegisterWrite

/-- Settles O58: each commit by the one lemma about a domain's commit (`commitDecides_of_after`), since what follows the adoption of
its registers changes neither registers nor heads; each write by what it lands in. -/
theorem setupCommitsDecide : Obligations.SetupCommitsDecide := by
  refine ⟨fun s f rest hq hnd => ?_, fun h off s hup => ⟨fun v d hd => ⟨fun hgo hroom => ?_, fun hgo hfull => ?_, fun hgo => ?_⟩,
    fun v hsel => ?_, fun v hoff hrw => ?_, fun v hoff hlo hhi => ?_, fun bar size v hbad => ?_⟩⟩
  · intro s0 pages rules x hx hdom
    have key : CommitDecides s f rest x := by
      simp only [rules, List.mem_append, List.mem_cons, List.not_mem_nil, or_false, List.mem_map] at hx
      rcases hx with (rfl | rfl | rfl | rfl | rfl | rfl | rfl | rfl) | ⟨h, -, rfl⟩
      · exact ctlCommit_decides hq hnd hdom
      · exact cohCommit_decides hq hnd hdom
      · exact medCommit_decides hq hnd hdom
      · exact engCommit_decides hq hnd hdom
      · exact timCommit_decides hq hnd hdom
      · exact pwrCommit_decides hq hnd hdom
      · exact obsCommit_decides hq hnd hdom
      · exact secCommit_decides hq hnd hdom
      · exact hedCommit_decides hq hnd hdom
    exact key
  · exact commitWrite_captures hup hd hgo hroom
  · exact commitWrite_busy hup hd hgo hfull
  · exact commitWrite_ignored hup hd hgo
  · exact selectorWrite_loads hup hsel
  · exact registerWrite_stages hup hoff hrw
  · exact registerWrite_keepsCxl hup hoff hlo hhi
  · exact registerWrite_unaligned hup hbad

end Sys2Proof.Machine
end
